-- ==== Sys2Proof/Word.lean ====
section
/-! DEFINITION. The word type of the Yard Bus and of the configuration memory: one byte. -/

namespace Sys2Proof

/-- One byte as the Yard Bus carries it (R1) and as the configuration memory holds it (R26). -/
abbrev Byte := BitVec 8

end Sys2Proof
end

