-- ==== Sys2Proof/Syntax.lean ====
section
/-! DEFINITION. The commands of the YL220: one constructor of `Instr` for each row of the table of
operations and events, with the types of their operands.

A row that takes a request of a station (HOOK_ON .. COUNTER_DELEGATE, OVERHEARD_GRANT, OVERHEARD_TAKE)
carries no operand: it takes the OLDEST frame of the receive buffer (R14), where the sender and the fields
of the request stand. A row that is the expiry of a timer names the record the timer belongs to, when there
is more than one. A row that is an event at a connection of the part carries what the connection shows. -/

namespace Sys2Proof

/-- The two house ports (R105). -/
inductive Port where
  | a
  | b
  deriving DecidableEq, Repr

/-- The three urgency classes of the Yard Bus (section 1.2). -/
inductive UrgencyClass where
  | urgent
  | call
  | routine
  deriving DecidableEq, Repr

/-- The two loading tables of each direction (R40). -/
inductive TableName where
  | normal
  | guard
  deriving DecidableEq, Repr

/-- A key of a DTMF telephone (R109). -/
inductive DtmfKey where
  | digit (d : Fin 10)
  | star
  | hash
  deriving DecidableEq, Repr

/-- What the loop shows to the measurements of a survey at the end of an item (R159, R160): the running item
takes the readings that are its own. Voltages in V, resistances in ohm and kilo-ohm, capacitance in nF. -/
structure LoopReadings where
  acTip : Nat
  dcTip : Nat
  acRing : Nat
  dcRing : Nat
  feed : Nat
  loopOhm : Nat
  tipGround : Nat
  ringGround : Nat
  tipRing : Nat
  nanofarad : Nat
  deriving DecidableEq, Repr

/-- A stretch of time over which the pair of the Yard Bus keeps one level (R1). -/
structure WireRun where
  dominant : Bool
  micros : Nat
  deriving DecidableEq, Repr

/-- The commands: one constructor for each row of spec/opcode_table.json, in the order of the table. -/
inductive Instr where
  | deviceReset (straps : Fin 32) (mainsOk battLow : Bool)
  | configReadDone (memory : Option (List Byte))
  | listenTimerExpiry
  | frameReceived (low : Nat) (wire : List WireRun)
  | ownSlotBegins (cls : UrgencyClass)
  | frameSent
  | collision
  | yieldEnd
  | backlogTimerExpiry
  | presenceTimerExpiry
  | presenceAgeing
  | stationAbsent (station : Nat)
  | hookOn
  | hookFlash
  | claimOutside
  | claimOutsideAny
  | claimAnswer
  | claimIntercom
  | claimJoin
  | take
  | hold
  | retrieve
  | release
  | overheardGrant
  | overheardTake
  | grantDeadlineExpiry (station : Nat)
  | pendingAnyExpiry (station : Nat)
  | intercomRingExpiry (callId : Nat)
  | holdAgeRecall (callId : Nat)
  | recallRetryExpiry (callId : Nat)
  | holdAgeRelease (callId : Nat)
  | clearingGuardExpiry (callId : Nat)
  | queryLink
  | queryLoopRecord
  | queryFaultSummary
  | queryFaultAll
  | queryFaultActive
  | queryPresenceTable
  | queryConfiguration
  | test
  | linkControlHold
  | linkControlRelease
  | linkControlRetrain
  | clearRetry
  | clearFaults
  | counterRead
  | counterReadClear
  | counterSet
  | counterDelegate
  | mainsOkChange (level : Bool)
  | mainsOkDebounced
  | battLowChange (asserted : Bool)
  | battLowDebounced
  | railSettleEnd
  | converterSettleEnd
  | converterIdleExpiry
  | handshakeStart
  | farEndAnswer
  | handshakeTimeout
  | probeEnd (snr : List Int)
  | probeSignalLoss
  | farTablesReceived (normal guard : List Nat)
  | loadTimeout
  | backoffExpiry
  | lockoutExpiry
  | overheadAgree (number : Nat)
  | overheadDecline (number : Nat)
  | overheadTimerExpiry
  | farEndSwap (number : Nat) (table : TableName) (group : Nat) (bits : List Nat)
  | farEndSwitch (number : Nat) (table : TableName)
  | farEndRetrain (number : Nat)
  | payloadFrameOffered (payload : List Byte)
  | payloadFrameSent
  | refreshTimerExpiry (measured : List Int)
  | catchUpExpiry (measured : List Int)
  | guardExit
  | switchRetryExpiry
  | impulseEvent (start length : Nat)
  | predictionMiss
  | correctedCodeword
  | uncorrectedCodeword
  | secondTimerExpiry
  | signalAbsent
  | signalPresent
  | lossOfSignalExpiry
  | marginWatchExpiry
  | portLoopClosed (port : Port)
  | portLoopOpened (port : Port)
  | portOnHook (port : Port)
  | digitPauseExpiry (port : Port)
  | dtmfDigit (port : Port) (key : DtmfKey)
  | firstDigitWindowExpiry (port : Port)
  | interDigitExpiry (port : Port)
  | postFlashWindowExpiry (port : Port)
  | offHookTimerExpiry (port : Port)
  | howlerTimerExpiry (port : Port)
  | noLoadTimerExpiry (port : Port)
  | noLoadCheckDone (port : Port) (ringerFound : Bool)
  | loopCurrentChange (port : Port) (milliamp : Nat)
  | lowCurrentExpiry (port : Port)
  | lineVoltageChange (millivolt : Nat)
  | offHookBandHeld
  | onHookBandHeld
  | noFeedExpiry
  | feedRestored
  | ringingVoltageChange (present : Bool)
  | ringBurstDetected
  | ringBurstEnd
  | ringEndTimeout
  | releaseGuardExpiry
  | outpulseTimerExpiry
  | cadencePhaseExpiry (callId : Nat)
  | testRingDetected
  | surveyPhaseStart
  | automaticCheckStart
  | itemTimerExpiry (readings : LoopReadings)
  | restoreTimerExpiry
  | waitTimerExpiry
  | holdOffExpiry
  | periodicCheckExpiry
  | recheckTimerExpiry
  | lampFlashToggle
  | anotherStationStartBit
  deriving DecidableEq, Repr

end Sys2Proof
end

