-- ==== Sys2Proof/Decode.lean ====
section
/-! DEFINITION. The command that a word of bits spells. No row of the table of operations and events gives any bits:
the commands are operations and events of a block, so no word spells one. -/

namespace Sys2Proof

/-- The command of a word: none, since no row of the table has bits. -/
def decodeTableWord (_nbits _w : Nat) : Option Instr := none

end Sys2Proof
end

