-- ==== Sys2Proof/Config.lean ====
section
/-! DEFINITION. What the manual fixes once for the part (times, capacities, thresholds, each under the name
the manual gives it) and the free values: constants without a body that stand where the manual states that
a value exists and does not state it. Times are in milliseconds. -/

namespace Sys2Proof.Config

/-! ### Times -/

/-- R28: the listen timer. -/
def listenMs : Nat := 1000
/-- R17: the ageing of the presence table and the count of uptime go second by second. -/
def secondMs : Nat := 1000
/-- R10: the backlog timer. -/
def backlogMs : Nat := 60000
/-- R19: the PRESENCE timer. -/
def presenceMs : Nat := 10000
/-- R31: debounce of MAINS_OK. -/
def mainsDebounceMs : Nat := 200
/-- R31: debounce of BATT_LOW. -/
def battDebounceMs : Nat := 5000
/-- R36: settle of one rail step. -/
def railSettleMs : Nat := 5
/-- R38: SETTLING of the ring converter. -/
def converterSettleMs : Nat := 20
/-- R38: idle timer of the ring converter. -/
def converterIdleMs : Nat := 10000
/-- R43: wait for the far end's answer. -/
def handshakeMs : Nat := 5000
/-- R44: length of PROBE. -/
def probeMs : Nat := 3000
/-- R45: wait for the far end's tables. -/
def loadMs : Nat := 1000
/-- R49: the lockout timer. -/
def lockoutMs : Nat := 900000
/-- R50: the backoff after a drop. -/
def dropBackoffMs : Nat := 2000
/-- R57: the overhead request timer. -/
def overheadMs : Nat := 250
/-- R81: the refresh interval timer. -/
def refreshMs : Nat := 500
/-- R82: the catch-up timer. -/
def catchUpMs : Nat := 100
/-- R93, R95: the guard exit timer and the switch retry timer. -/
def guardMs : Nat := 5000
/-- R103: the loss-of-signal timer. -/
def signalLossMs : Nat := 1000
/-- R104: the margin watch timer. -/
def marginWatchMs : Nat := 60000
/-- R108: the pause that ends a pulse digit. -/
def digitPauseMs : Nat := 250
/-- R105: first-digit window, inter-digit time and post-flash window. -/
def digitWindowMs : Nat := 4000
/-- R110: the off-hook timer. -/
def offHookMs : Nat := 20000
/-- R116: the howler timer. -/
def howlerMs : Nat := 30000
/-- R117: the no-load timer. -/
def noLoadMs : Nat := 600000
/-- R117: the length of a no-load check. -/
def noLoadCheckMs : Nat := 100
/-- R118: the low-current timer. -/
def lowCurrentMs : Nat := 2000
/-- R107: a break longer than this is an on-hook. -/
def onHookBreakMs : Nat := 800
/-- R120: how long a band must hold. -/
def bandMs : Nat := 100
/-- R121: how long the no-feed band must hold. -/
def noFeedMs : Nat := 10000
/-- R121: how long the feed must stand before LOOP_OPEN is made inactive. -/
def feedMs : Nat := 1000
/-- R122: ringing voltage present so long is a burst. -/
def burstOnMs : Nat := 150
/-- R122: ringing voltage absent so long ends the burst. -/
def burstOffMs : Nat := 100
/-- R122: the ring-end timer. -/
def ringEndMs : Nat := 6000
/-- R119: the release guard of the line. -/
def releaseGuardMs : Nat := 800
/-- R123: the break of one outpulsed pulse. -/
def pulseBreakMs : Nat := 60
/-- R123: the make of one outpulsed pulse. -/
def pulseMakeMs : Nat := 40
/-- R123: the make between two outpulsed digits. -/
def interDigitMakeMs : Nat := 700
/-- R136: the deadline of a grant. -/
def grantMs : Nat := 2000
/-- R145: the timer of a pending ANY-line entry. -/
def pendingAnyMs : Nat := 200
/-- R143: the intercom ring timer. -/
def intercomRingMs : Nat := 30000
/-- R151: hold age of the first recall. -/
def recallAgeMs : Nat := 300000
/-- R151: hold age of the release. -/
def holdReleaseMs : Nat := 420000
/-- R151: the recall retry timer. -/
def recallRetryMs : Nat := 30000
/-- R153: the clearing guard. -/
def clearingGuardMs : Nat := 800
/-- R166: the restore timer. -/
def restoreMs : Nat := 200
/-- R167: the wait timer. -/
def surveyWaitMs : Nat := 60000
/-- R169: the hold-off timer. -/
def holdOffMs : Nat := 10000
/-- R170: the periodic check timer (6 h). -/
def periodicMs : Nat := 21600000
/-- R171: the high-voltage re-check timer (10 min). -/
def recheckMs : Nat := 600000
/-- R182: one half of the flash of the lamp. -/
def flashMs : Nat := 500
/-- R96: downstream symbols in one millisecond. -/
def symbolsPerMs : Nat := 4

/-- Section 1.1: one bit time of the Yard Bus, in microseconds. -/
def bitMicros : Nat := 50
/-- R1: the middle of a bit time, in microseconds from its beginning. -/
def halfBitMicros : Nat := 25
/-- R1: the 10 bit times of a byte, in microseconds. -/
def byteMicros : Nat := 500
/-- R2: the 20 bit times without a start bit after which the bus is idle, in microseconds. -/
def idleMicros : Nat := 1000

/-! ### Capacities and limits -/

/-- R7: frames the URGENT queue holds. -/
def urgentCapacity : Nat := 4
/-- R7, R8: frames the CALL and the ROUTINE queue hold. -/
def queueCapacity : Nat := 8
/-- R14: frames the receive buffer holds. -/
def rxCapacity : Nat := 4
/-- R15: entries of the presence table. -/
def presenceCapacity : Nat := 23
/-- R17: the age at which a station becomes ABSENT. -/
def absentAge : Nat := 35
/-- R17: where the age saturates. -/
def ageMax : Nat := 65535
/-- R47: the retry count at which the part stops trying. -/
def retryMax : Nat := 12
/-- R64: frames of the upstream queue. -/
def payloadCapacity : Nat := 16
/-- R81: the largest refresh debt. -/
def debtMax : Nat := 8
/-- R88: entries of the swap queue. -/
def swapCapacity : Nat := 8
/-- R96: events of the impulse list. -/
def impulseCapacity : Nat := 8
/-- R123: digits of the repeat queue. -/
def repeatCapacity : Nat := 16
/-- R130: records of the call table. -/
def callCapacity : Nat := 4
/-- R130: parties of a call. -/
def partyLimit : Nat := 3
/-- R140: claims of the deferred claim list. -/
def deferredCapacity : Nat := 4
/-- R158: merged requesters of a request. -/
def mergedCapacity : Nat := 4
/-- R175: entries of the fault table. -/
def faultCapacity : Nat := 16
/-- R175: the largest count of occurrences. -/
def occurrencesMax : Nat := 255
/-- R192: the top of a counter. -/
def counterTop : Nat := 16777215

/-! ### Loading (chapter 4) -/

/-- The gap G in quarter-dB. -/
def gap : Nat := 38
/-- SNR needed for each further bit. -/
def stepPerBit : Nat := 12
/-- The smallest headroom at which a tone is loaded (R68). -/
def loadThreshold : Nat := 24
/-- The margin added while LOOP_LEAKAGE is ACTIVE (R67). -/
def leakageMargin : Nat := 8
/-- The downstream tones 48..383 (R40). -/
def firstDownTone : Nat := 48
/-- Number of downstream tones. -/
def downTones : Nat := 336
/-- Number of upstream tones kept, 0..47; tones 0..7 carry nothing (R40). -/
def upTones : Nat := 48

/-! ### Free values

Each stands where the manual lets the part go on and does not state a value. Nothing can be proved of them. -/

/-- The ring mode that a PRESENCE announces by a code other than 0 and 1 (section 11.3 names two codes, and
R16 does not refuse the others): true stands for PAIR. -/
opaque unnamedRingMode : Byte → Bool

/-- The byte that stands for the average of a group when the loop record holds none (R174, section 11.4 give
no code for "none" there); the argument is the group. -/
opaque absentAverage : Nat → Byte

/-- The byte that stands for a value "none" in the summary of LINK_PROFILE, which section 11.4 gives no code
for; the argument is the offset in the body. -/
opaque absentProfileByte : Nat → Byte

/-- The byte of a presence REPORT that tells of a grant expectation or a line status the entry does not hold (R20,
section 11.4 give it no value there); the argument is the offset in the body. -/
opaque absentPresenceByte : Nat → Byte

/-- The bits of the status byte that tell of an entry (severity, ACTIVE, reported), in a fault-table answer that holds
none (R187, sections 11.3 and 11.4 give them no value there). -/
opaque absentFaultStatus : Byte

/-- The uptime the part records after 4294967295 s, which the range of R175 ends at; the argument is the
number of seconds since device reset. -/
opaque uptimeBeyond : Nat → Nat

/-- Whether a downstream frame is in delivery to the packet station at a departure from SHOWTIME (R63); the argument is
the number of departures before. -/
opaque inDelivery : Nat → Bool

end Sys2Proof.Config
end

