-- ==== Sys2Proof/Machine/State.lean ====
section
/-! DEFINITION. The state of the YL220 as plain data, one structure for each block of the block diagram, the
connections of the part as it last saw them, and the queue of commands; and `State.reset`. -/

namespace Sys2Proof.Machine

open Sys2Proof

/-- A timer: `none` when stopped, else the instant (ms since the release of device reset) it expires at. -/
abbrev Timer := Option Nat

/-! ### The Yard Bus Interface (chapter 1) -/

/-- Roles a station announces (section 11.3). -/
inductive Role where
  | lineUnit
  | extension
  | packet
  | tester
  deriving DecidableEq, Repr

/-- Ring modes (section 11.3). -/
inductive RingMode where
  | ownSupply
  | pair
  deriving DecidableEq, Repr

/-- The kinds of frame (section 11.2). -/
inductive Kind where
  | presence
  | lineStatus
  | fault
  | counterWrap
  | hook
  | claim
  | grant
  | take
  | refuse
  | hold
  | held
  | retrieve
  | release
  | ring
  | ringEnd
  | query
  | report
  | done
  | test
  | testDone
  | linkControl
  | clearRetry
  | clearFaults
  | counterRead
  | counterSet
  | counterDelegate
  deriving DecidableEq, Repr

/-- The 19 fault codes of the catalogue (section 9.1), in its order. -/
inductive FaultCode where
  | linkRetrainLimit
  | linkLowMargin
  | fenceImpulse
  | foreignVoltage
  | foreignVoltageHigh
  | loopLeakage
  | loopOpen
  | portOffhookLock
  | portNoLoad
  | portLowCurrent
  | ringOverload
  | stationLost
  | stationProtocol
  | busAddressConflict
  | busAddressInvalid
  | busBacklog
  | supplyOnBattery
  | supplyBatteryLow
  | configDefaulted
  deriving DecidableEq, Repr

/-- The source of a fault (R175). -/
inductive FaultSource where
  | line
  | port (p : Port)
  | pair
  | bus
  | supply
  | config
  | station (n : Nat)
  deriving DecidableEq, Repr

/-- What names an entry of the fault table: one entry for each (code, source) (R175). -/
structure FaultKey where
  code : FaultCode
  source : FaultSource
  deriving DecidableEq, Repr

/-- The mark a FAULT frame carries inside the part: its entry, and which notice of the table it is (R185). -/
structure FaultTag where
  key : FaultKey
  notice : Nat
  deriving DecidableEq, Repr

/-- A frame handed to the YBI for sending: the class is the queue it stands in. -/
structure TxFrame where
  dest : Nat
  kind : Kind
  body : List Byte
  /-- set on a FAULT frame -/
  fault : Option FaultTag
  /-- the frame belongs to the reply stream (R11) -/
  streamed : Bool
  deriving DecidableEq, Repr

/-- The bus as the part sees it (R2, R3, R5). -/
inductive BusState where
  /-- an idle period runs, and slots are counted -/
  | idle
  /-- a start bit of another station has ended the idle period -/
  | receiving
  /-- the part drives the head frame of the queue of this class -/
  | sending (cls : UrgencyClass)
  /-- the part's own frame was read back whole, and its idle point is still to come -/
  | sent
  /-- the part's own frame was aborted by a collision, and its idle point is still to come -/
  | aborted
  deriving DecidableEq, Repr

/-- The multi-frame answer in progress (R11): the frames not yet handed over, and whether the frame before
them still stands in the ROUTINE queue. -/
structure ReplyStream where
  rest : List TxFrame
  inQueue : Bool
  deriving DecidableEq, Repr

/-- The claim kinds as a station codes them (section 11.3). -/
inductive ClaimKind where
  | outside
  | outsideAny
  | answer
  | intercom
  | join
  deriving DecidableEq, Repr

/-- The subject of a QUERY with what it names (section 11.4); codes are kept as received. -/
inductive QuerySubject where
  | link
  | loopRecord (item part : Nat)
  | faultTable (scope : Nat)
  | presenceTable
  | configuration (part : Nat)
  deriving DecidableEq, Repr

/-- A well-sized body of a frame that an owner takes through the receive buffer (R202, section 11.4). -/
inductive Message where
  | hook (event : Nat)
  | claim (tag : Nat) (kind : ClaimKind) (argument : Nat)
  | grant (tag callId : Nat)
  | take (tag : Nat)
  | hold (callId : Nat)
  | retrieve (tag callId token : Nat)
  | release (callId : Nat)
  | query (subject : QuerySubject)
  | test (items : Nat) (allowDrop : Bool)
  | linkControl (operation : Nat)
  | clearRetry
  | clearFaults
  | counterRead (counter : Nat) (clear : Bool)
  | counterSet (counter : Nat) (selection : Option Nat) (inhibit : Option Bool)
  | counterDelegate (counter address : Nat)
  deriving DecidableEq, Repr

/-- A frame in the receive buffer (R14). -/
structure Delivered where
  dest : Nat
  src : Nat
  message : Message
  deriving DecidableEq, Repr

/-- A grant awaiting TAKE, kept in the station's presence entry (R18, R136). -/
structure GrantExpectation where
  tag : Nat
  callId : Nat
  deadline : Nat
  deriving DecidableEq, Repr

/-- What a second line unit announced of its line (R16): the outside line state is kept as received. -/
structure HeardLineStatus where
  linkUp : Bool
  outsideLine : Nat
  deriving DecidableEq, Repr

/-- One entry of the presence table (section 1.6). -/
structure PresenceEntry where
  address : Nat
  role : Role
  handset : Bool
  ringMode : RingMode
  units : Nat
  present : Bool
  age : Nat
  grant : Option GrantExpectation
  lineStatus : Option HeardLineStatus
  deriving DecidableEq, Repr

/-- The state of the YBI. -/
structure Ybi where
  ownAddress : Nat
  bus : BusState
  /-- the deferral slot last begun in the current slot cycle (R2) -/
  slot : Nat
  yielding : Bool
  collisions : Nat
  listenOnly : Bool
  /-- the levels of the frame being sent, bit time by bit time, true for recessive (R1) -/
  driving : List Bool
  urgent : List TxFrame
  call : List TxFrame
  routine : List TxFrame
  stream : Option ReplyStream
  rxBuffer : List Delivered
  presence : List PresenceEntry
  presenceTimer : Timer
  backlogTimer : Timer
  ageingTimer : Timer
  deriving DecidableEq, Repr

/-! ### The Configuration Loader (chapter 2) -/

inductive ConfigState where
  | loading
  | listen
  | ready
  deriving DecidableEq, Repr

/-- The guard detector selection of the record (R92). -/
inductive GuardSelection where
  | ringIn
  | parallel
  | both
  deriving DecidableEq, Repr

inductive Cadence where
  | long
  | double
  deriving DecidableEq, Repr

/-- The configuration record in force (section 2.1.2). The management list is kept in its four places,
0 for an empty one (R27). -/
structure ConfigRecord where
  targetMargin : Nat
  minMargin : Nat
  rateCap : Nat
  rateFloor : Nat
  bmax : Nat
  dInit : Nat
  dMax : Nat
  guardAllowance : Nat
  guardSelection : GuardSelection
  startHeld : Bool
  unitsA : Nat
  unitsB : Nat
  directA : Bool
  directB : Bool
  ringA : Bool
  ringB : Bool
  joinAllowed : Bool
  cadence : Cadence
  management : List Nat
  counterEvents : List Nat
  deriving DecidableEq, Repr

structure Cfl where
  state : ConfigState
  record : ConfigRecord
  rank : Nat
  defaulted : Bool
  listenTimer : Timer
  deriving DecidableEq, Repr

/-! ### The Supply Controller (chapter 2) -/

inductive SupplyState where
  | mains
  | battery
  | batteryLow
  deriving DecidableEq, Repr

inductive RailLevel where
  | low
  | mid
  | high
  deriving DecidableEq, Repr

/-- A step of the rail in progress: the level it reaches and the end of its settle (R36). -/
structure RailStep where
  goal : RailLevel
  ends : Nat
  deriving DecidableEq, Repr

/-- What can be rung: a house port or a station. -/
inductive Endpoint where
  | port (p : Port)
  | station (n : Nat)
  deriving DecidableEq, Repr

/-- A load of a ring demand (section 2.4). -/
structure Load where
  who : Endpoint
  units : Nat
  deriving DecidableEq, Repr

inductive ConverterState where
  | off
  | settling
  | on
  deriving DecidableEq, Repr

/-- The ring converter (R38): the demand held in SETTLING, and the loads of the burst in progress. -/
structure Converter where
  state : ConverterState
  held : Option (List Load)
  burst : Option (List Load)
  settleTimer : Timer
  idleTimer : Timer
  deriving DecidableEq, Repr

structure Sup where
  /-- debounced level of MAINS_OK -/
  mainsOk : Bool
  /-- debounced assertion of BATT_LOW -/
  battLow : Bool
  mainsTimer : Timer
  battTimer : Timer
  supply : SupplyState
  railLevel : RailLevel
  railTarget : RailLevel
  railStep : Option RailStep
  converter : Converter
  deriving DecidableEq, Repr

/-! ### The Line Link Engine (chapters 3 to 5) -/

inductive LinkState where
  | down
  | handshake
  | probe
  | load
  | showtime
  | retrainWait
  | lockout
  | quiet
  deriving DecidableEq, Repr

inductive Holder where
  | management
  | supply
  | voltage
  | survey
  deriving DecidableEq, Repr

/-- The quiet-holder set (section 3.4): at most one of each holder. -/
structure HolderSet where
  management : Bool
  supply : Bool
  voltage : Bool
  survey : Bool
  deriving DecidableEq, Repr

inductive Power where
  | full
  | cutback
  deriving DecidableEq, Repr

inductive PowerRequest where
  | cutback
  | restore
  deriving DecidableEq, Repr

inductive FailureReason where
  | none
  | noFarEnd
  | lowRate
  | loadTimeout
  | badFarTable
  deriving DecidableEq, Repr

inductive DropReason where
  | none
  | lossOfSignal
  | severeErrors
  | swapFailures
  | power
  | forced
  deriving DecidableEq, Repr

/-- The part's overhead requests (section 3.5). -/
inductive OverheadRequest where
  | switch (table : TableName)
  | power (p : PowerRequest)
  | shield (d : Nat)
  | swap (group : Nat) (bits : List Nat)
  deriving DecidableEq, Repr

/-- The outstanding request of the slot (R57): attempt 1 or 2. -/
structure Outstanding where
  request : OverheadRequest
  number : Nat
  attempt : Nat
  deadline : Nat
  deriving DecidableEq, Repr

inductive FarAnswer where
  | agree
  | decline
  deriving DecidableEq, Repr

/-- What the part sends to the far end over the line. -/
inductive FarMessage where
  /-- the wake tones of HANDSHAKE begin (R43) -/
  | wakeTones
  /-- LOAD: the NORMAL downstream table, D and the rate cap (R45) -/
  | loadTables (normal : List Nat) (d cap : Nat)
  /-- an overhead request; a SWITCH to GUARD carries the whole GUARD table (R94) -/
  | request (number : Nat) (r : OverheadRequest) (guardTable : List Nat)
  /-- the answer to a far-end request, echoing its number (R59) -/
  | answer (number : Nat) (a : FarAnswer)
  deriving DecidableEq, Repr

inductive SwapReason where
  | urgent
  | upshift
  deriving DecidableEq, Repr

/-- An entry of the swap queue (R88). -/
structure SwapEntry where
  group : Nat
  bits : List Nat
  reason : SwapReason
  deriving DecidableEq, Repr

inductive GuardState where
  | clear
  | active
  | exiting
  deriving DecidableEq, Repr

/-- An impulse event (R96). -/
structure Impulse where
  start : Nat
  length : Nat
  deriving DecidableEq, Repr

/-- The fence lock (R97, R98): period P, predicted start, last symbol of the window, consecutive misses.
The window begins at the predicted start − 2. -/
structure FenceLock where
  period : Nat
  predicted : Nat
  windowEnd : Nat
  misses : Nat
  deriving DecidableEq, Repr

inductive MarginWatch where
  | ok
  | falling
  | low
  | rising
  deriving DecidableEq, Repr

/-- The state of chapter 5, in the order of the table of R80. -/
structure Showtime where
  pointer : Nat
  refreshTimer : Timer
  debt : Nat
  catchUpTimer : Timer
  queueBlocked : Bool
  settled : Bool
  /-- refreshes since entry of groups 3..23, in order, each held at 2 -/
  refreshes : List Nat
  swapQueue : List SwapEntry
  swapAbandons : Nat
  guard : GuardState
  guardTimer : Timer
  switchRetryTimer : Timer
  switchRefused : Bool
  impulses : List Impulse
  lock : Option FenceLock
  neededDepth : Nat
  shieldRefused : Bool
  /-- whether the condition of FENCE_IMPULSE held at the last recomputation (R100) -/
  fenceHeld : Bool
  symbolCount : Nat
  /-- the instant SHOWTIME was entered, from which the symbols are counted -/
  began : Nat
  secondTimer : Timer
  corrected : Nat
  uncorrected : Nat
  /-- the far end's signal is absent now -/
  signalAbsent : Bool
  /-- the far end's signal was absent at some moment of the current second (R101) -/
  absentThisSecond : Bool
  severeRun : Nat
  signalTimer : Timer
  marginWatch : MarginWatch
  marginTimer : Timer
  deriving DecidableEq, Repr

/-- The last-showtime values (R79, R161). -/
structure LastShowtime where
  averages : List Nat
  bandTop : Option Nat
  margin : Option Int
  table : TableName
  e : Nat
  d : Nat
  /-- period P when the fence was locked -/
  lock : Option Nat
  deriving DecidableEq, Repr

structure Lle where
  link : LinkState
  holders : HolderSet
  retry : Nat
  backoffTimer : Timer
  lockoutTimer : Timer
  /-- the lockout timer has expired while an intrusive item ran (R49) -/
  attemptHeld : Bool
  handshakeTimer : Timer
  probeTimer : Timer
  loadTimer : Timer
  /-- when the training in progress began (R55) -/
  trainingBegan : Nat
  power : Power
  restoreRefused : Bool
  slot : Option Outstanding
  nextNumber : Nat
  switchWaiting : Option TableName
  powerWaiting : Option PowerRequest
  shieldWaiting : Option Nat
  lastFar : Option (Nat × FarAnswer)
  /-- upstream tables of the far end, tones 0..47 -/
  upNormal : List Nat
  upGuard : List Nat
  upInForce : Option TableName
  /-- downstream tables, tones 48..383 -/
  normal : List Nat
  guard : List Nat
  downInForce : TableName
  /-- recorded SNR of tones 48..383 (R65) -/
  snr : List Nat
  /-- margin lift and shield depth in force -/
  e : Nat
  d : Nat
  /-- the margin lift that LOAD has chosen, in force from SHOWTIME (R46) -/
  loadE : Nat
  lastFailure : FailureReason
  lastDrop : DropReason
  lastShow : Option LastShowtime
  sync : Showtime
  /-- everything sent to the far end, oldest first -/
  farOut : List FarMessage
  deriving DecidableEq, Repr

/-- The payload port (section 3.7). -/
structure Plp where
  ready : Bool
  queue : List (List Byte)
  /-- at the last departure from SHOWTIME a downstream frame in delivery was cut short and marked aborted (R63) -/
  downstreamAborted : Bool
  /-- departures from SHOWTIME so far: the model's own count, for the free value of log entry 30 -/
  departures : Nat
  deriving DecidableEq, Repr

/-! ### The Voice Switch (chapter 6) -/

inductive PortState where
  | onHook
  | ringing
  | dialtone
  | collecting
  | connected
  | howler
  | lockedOff
  | outOfService
  deriving DecidableEq, Repr

inductive Tone where
  | none
  | dial
  | error
  | busy
  | ringback
  | howl
  deriving DecidableEq, Repr

/-- Which digit window of the port is open (R111, R114). -/
inductive DigitWindow where
  | closed
  | first
  | postFlash
  deriving DecidableEq, Repr

/-- The record of one house port (R105). -/
structure PortRec where
  state : PortState
  tone : Tone
  offHook : Bool
  /-- start of the break in progress -/
  breakStart : Option Nat
  pulses : Nat
  digits : List Nat
  window : DigitWindow
  postFlash : Bool
  awaiting : Bool
  pauseTimer : Timer
  firstDigitTimer : Timer
  interDigitTimer : Timer
  postFlashTimer : Timer
  offHookTimer : Timer
  howlerTimer : Timer
  noLoadTimer : Timer
  lowCurrentTimer : Timer
  /-- a no-load check runs, until this instant -/
  noLoadCheck : Timer
  deriving DecidableEq, Repr

inductive LineState where
  | idle
  | ringIn
  | seized
  | releasing
  | parallel
  | test
  | out
  deriving DecidableEq, Repr

/-- A digit of the repeat queue, tagged with its port (R123). -/
structure RepeatDigit where
  port : Port
  digit : Nat
  deriving DecidableEq, Repr

inductive PulsePhase where
  | opened
  | make
  | pause
  deriving DecidableEq, Repr

/-- The digit being outpulsed (R123): pulses still to begin after the current one, phase and its end. -/
structure Outpulse where
  pulsesLeft : Nat
  phase : PulsePhase
  ends : Nat
  deriving DecidableEq, Repr

inductive EpisodeKind where
  | outside
  | intercom
  | recall
  deriving DecidableEq, Repr

/-- A ringing episode (section 6.4): its call, its kind, and where its cadence stands. -/
structure Episode where
  callId : Nat
  kind : EpisodeKind
  /-- phase of the intercom cadence; even phases are bursts -/
  phase : Nat
  timer : Timer
  deriving DecidableEq, Repr

/-- A load of the ring plan with the episode it is rung for. -/
structure PlannedLoad where
  load : Load
  callId : Nat
  deriving DecidableEq, Repr

/-- The ring plan (section 6.4), with the candidates it skipped (R129). -/
structure RingPlan where
  loads : List PlannedLoad
  /-- LOCAL-mode stations named, with the episode -/
  named : List (Nat × Nat)
  skipped : List (Endpoint × Nat)
  deriving DecidableEq, Repr

/-- The port whose off-hook would have been an answer too at the instant at which the other port answered: its off-hook
at that same instant is the second of two answers taken one after the other (R141; log entry 59). -/
structure CoAnswer where
  port : Port
  callId : Nat
  instant : Nat
  deriving DecidableEq, Repr

structure Vsw where
  portA : PortRec
  portB : PortRec
  line : LineState
  offHookBandTimer : Timer
  onHookBandTimer : Timer
  noFeedTimer : Timer
  feedTimer : Timer
  /-- ringing voltage present since 150 ms before this instant -/
  burstOnTimer : Timer
  burstOffTimer : Timer
  inBurst : Bool
  ringEndTimer : Timer
  releaseTimer : Timer
  repeatQueue : List RepeatDigit
  outpulse : Option Outpulse
  pairSpeech : Option Nat
  pairRinging : Bool
  episodes : List Episode
  plan : RingPlan
  /-- the model's own: the port that answers together with the other one (log entry 59) -/
  coAnswer : Option CoAnswer
  deriving DecidableEq, Repr

/-! ### The Call Controller (chapter 7) -/

inductive CallKind where
  | outside
  | intercom
  deriving DecidableEq, Repr

inductive CallOrigin where
  | incoming
  | outgoing
  deriving DecidableEq, Repr

inductive CallState where
  | setup
  | active
  | held
  | clearing
  deriving DecidableEq, Repr

inductive PartyMark where
  | connected
  | awaitingTake
  | holder
  deriving DecidableEq, Repr

structure Party where
  who : Endpoint
  mark : PartyMark
  deriving DecidableEq, Repr

inductive RecallState where
  | none
  | ringing
  | waiting
  deriving DecidableEq, Repr

/-- What a call holds in HELD (R130): token, designated retriever, hold age (its value at the instant
`ageAt`), recall state and the timers of R151. -/
structure Hold where
  token : Nat
  retriever : Option Endpoint
  age : Nat
  ageAt : Nat
  recallState : RecallState
  recallTimer : Timer
  retryTimer : Timer
  releaseTimer : Timer
  deriving DecidableEq, Repr

/-- What the undoing of a RETRIEVE grant gives back (R138). -/
structure SavedHold where
  hold : Hold
  holder : Endpoint
  deriving DecidableEq, Repr

/-- A call record (R130). `originator` and `target` of an intercom are kept for the transfer on departure of
R150, `saved` for R138. -/
structure CallRec where
  id : Nat
  kind : CallKind
  origin : CallOrigin
  state : CallState
  parties : List Party
  rung : Option Endpoint
  offer : Option Nat
  hold : Option Hold
  saved : Option SavedHold
  everConnected : Bool
  ringTimer : Timer
  guardTimer : Timer
  originator : Option Endpoint
  target : Option Endpoint
  deriving DecidableEq, Repr

/-- Who makes a claim: a station with its tag and the claim kind it sent, or a port (R135). -/
inductive Claimant where
  | station (n tag : Nat) (sent : ClaimKind)
  | port (p : Port)
  deriving DecidableEq, Repr

/-- An entry of the pending ANY-line list (R145). -/
structure PendingAny where
  station : Nat
  tag : Nat
  deadline : Nat
  deriving DecidableEq, Repr

structure Cct where
  calls : List CallRec
  nextCallId : Nat
  nextToken : Nat
  deferred : List Claimant
  pendingAny : List PendingAny
  deriving DecidableEq, Repr

/-! ### The Loop Test Head (chapter 8) -/

inductive Item where
  | linkProfile
  | foreignVoltage
  | lineVoltage
  | resistance
  | insulation
  | capacitance
  deriving DecidableEq, Repr

inductive ItemStatus where
  | notRun
  | valid
  | aborted
  | outOfRange
  deriving DecidableEq, Repr

/-- The reading of a RESISTANCE item (R160). -/
inductive Ohms where
  | value (ohm : Nat)
  | above4000
  | openLoop
  deriving DecidableEq, Repr

/-- The values LINK_PROFILE copies (R161); without a source every value is none. -/
inductive ProfileSource where
  | none
  | current
  | last
  deriving DecidableEq, Repr

/-- Results of an item (R157). -/
inductive ItemResult where
  | profile (source : ProfileSource) (values : Option LastShowtime)
  | foreignVoltage (acTip dcTip acRing dcRing : Nat)
  | lineVoltage (volts : Nat)
  | resistance (reading : Ohms)
  | insulation (tipGround ringGround tipRing : Nat)
  | capacitance (nanofarad metres : Nat)
  deriving DecidableEq, Repr

/-- An entry of the loop record (R158). -/
structure RecordEntry where
  status : ItemStatus
  results : Option ItemResult
  stamp : Nat
  deriving DecidableEq, Repr

/-- A merged requester and the items it named (R163). -/
structure Merged where
  station : Nat
  items : List Item
  deriving DecidableEq, Repr

/-- A request, or an automatic check when it has no originator (R158). -/
structure Survey where
  originator : Option Nat
  items : List Item
  allowDrop : Bool
  merged : List Merged
  ended : List (Item × ItemStatus)
  deriving DecidableEq, Repr

/-- Where the running survey stands (R164 to R168). -/
inductive Stage where
  /-- nothing runs -/
  | none
  | waitVoltage
  | waitMetallic
  | item (i : Item)
  /-- the 200 ms in which the line is still in TEST -/
  | restoring
  deriving DecidableEq, Repr

inductive Relay where
  | rest
  | monitor
  | separate
  deriving DecidableEq, Repr

structure Lth where
  linkProfile : RecordEntry
  foreignVoltage : RecordEntry
  lineVoltage : RecordEntry
  resistance : RecordEntry
  insulation : RecordEntry
  capacitance : RecordEntry
  running : Option Survey
  pending : Option Survey
  stage : Stage
  voltageDue : Bool
  lineVoltageDue : Bool
  relay : Relay
  /-- the LTH has added holder SURVEY for the phase (R165) -/
  holderAdded : Bool
  itemTimer : Timer
  restoreTimer : Timer
  waitTimer : Timer
  holdOff : Bool
  holdOffTimer : Timer
  periodicTimer : Timer
  recheckTimer : Timer
  deriving DecidableEq, Repr

/-! ### The Fault Table (chapter 9) -/

inductive Severity where
  | good
  | notice
  | degraded
  | out
  deriving DecidableEq, Repr

/-- An entry of the fault table (R175); its severity follows from its code. `notice` is the number of the
last event of the table that called for a notice of the entry (R185). -/
structure FaultEntry where
  key : FaultKey
  active : Bool
  firstSeen : Nat
  lastChange : Nat
  occurrences : Nat
  reported : Bool
  notice : Nat
  deriving DecidableEq, Repr

inductive Lamp where
  | off
  | steady
  | flashing
  deriving DecidableEq, Repr

structure Flt where
  entries : List FaultEntry
  overflow : Bool
  owed : List FaultKey
  summary : Severity
  lamp : Lamp
  /-- the lamp is lit now -/
  lit : Bool
  flashTimer : Timer
  /-- events that called for a notice, counted for R185 -/
  notices : Nat
  deriving DecidableEq, Repr

/-! ### The Counter Bank (chapter 10) -/

/-- One counter (R192). -/
structure Counter where
  selection : Nat
  inhibit : Bool
  delegate : Option Nat
  value : Nat
  wrapped : Bool
  deriving DecidableEq, Repr

structure Ctb where
  counters : List Counter
  deriving DecidableEq, Repr

/-! ### The connections -/

/-- The inputs of the part as it last saw them. They are the outside world's, and a device reset leaves them. -/
structure Pins where
  straps : Nat
  mainsOk : Bool
  battLow : Bool
  lineMillivolt : Nat
  ringing : Bool
  currentA : Nat
  currentB : Nat
  deriving DecidableEq, Repr

/-- The whole part, and the commands that wait, first in first out. -/
structure State where
  /-- milliseconds since the release of device reset -/
  now : Nat
  pins : Pins
  ybi : Ybi
  cfl : Cfl
  sup : Sup
  lle : Lle
  plp : Plp
  vsw : Vsw
  cct : Cct
  lth : Lth
  flt : Flt
  ctb : Ctb
  pending : List Instr
  deriving DecidableEq, Repr

/-- Why a command stops the part. No command of the table does: the manual gives every one an effect, so the
type has no constructor. -/
inductive Fault : Type where
  deriving DecidableEq, Repr

/-- Why a command is refused by the model. -/
inductive Refusal where
  /-- raised by an arm of `exec` that has no meaning yet (none is left). Safe: the run stops. -/
  | notModelled (mnemonic : String)
  deriving DecidableEq, Repr

/-! ### One modifier for each block -/

def State.onPins (f : Pins → Pins) (s : State) : State := { s with pins := f s.pins }
def State.onYbi (f : Ybi → Ybi) (s : State) : State := { s with ybi := f s.ybi }
def State.onCfl (f : Cfl → Cfl) (s : State) : State := { s with cfl := f s.cfl }
def State.onSup (f : Sup → Sup) (s : State) : State := { s with sup := f s.sup }
def State.onLle (f : Lle → Lle) (s : State) : State := { s with lle := f s.lle }
def State.onPlp (f : Plp → Plp) (s : State) : State := { s with plp := f s.plp }
def State.onVsw (f : Vsw → Vsw) (s : State) : State := { s with vsw := f s.vsw }
def State.onCct (f : Cct → Cct) (s : State) : State := { s with cct := f s.cct }
def State.onLth (f : Lth → Lth) (s : State) : State := { s with lth := f s.lth }
def State.onFlt (f : Flt → Flt) (s : State) : State := { s with flt := f s.flt }
def State.onCtb (f : Ctb → Ctb) (s : State) : State := { s with ctb := f s.ctb }
def State.onSync (f : Showtime → Showtime) (s : State) : State :=
  { s with lle := { s.lle with sync := f s.lle.sync } }

/-! ### After device reset -/

/-- The defaults of section 2.1.2. -/
def ConfigRecord.default : ConfigRecord where
  targetMargin := 24
  minMargin := 8
  rateCap := 15000
  rateFloor := 256
  bmax := 12
  dInit := 1
  dMax := 2
  guardAllowance := 16
  guardSelection := .both
  startHeld := false
  unitsA := 1
  unitsB := 1
  directA := false
  directB := false
  ringA := true
  ringB := true
  joinAllowed := true
  cadence := .double
  management := [0, 0, 0, 0]
  counterEvents := [4, 5, 6, 10, 14, 17]

/-- The values of section 1.8. -/
def Ybi.reset : Ybi where
  ownAddress := 1
  bus := .idle
  slot := 0
  yielding := false
  collisions := 0
  listenOnly := false
  driving := []
  urgent := []
  call := []
  routine := []
  stream := none
  rxBuffer := []
  presence := []
  presenceTimer := none
  backlogTimer := none
  ageingTimer := some Config.secondMs

/-- R24: LOADING. The record is not yet read; the defaults stand in its place (log entry 25), and it is not marked
defaulted (log entry 89). -/
def Cfl.reset : Cfl where
  state := .loading
  record := ConfigRecord.default
  rank := 1
  defaulted := false
  listenTimer := none

/-- R38: the converter after device reset. -/
def Converter.reset : Converter where
  state := .off
  held := none
  burst := none
  settleTimer := none
  idleTimer := none

/-- R31, R35, R36: on mains, with the rail at LOW. -/
def Sup.reset : Sup where
  mainsOk := true
  battLow := false
  mainsTimer := none
  battTimer := none
  supply := .mains
  railLevel := .low
  railTarget := .low
  railStep := none
  converter := Converter.reset

/-- The start values of R80. -/
def Showtime.start : Showtime where
  pointer := 3
  refreshTimer := none
  debt := 0
  catchUpTimer := none
  queueBlocked := false
  settled := false
  refreshes := List.replicate 21 0
  swapQueue := []
  swapAbandons := 0
  guard := .clear
  guardTimer := none
  switchRetryTimer := none
  switchRefused := false
  impulses := []
  lock := none
  neededDepth := 0
  shieldRefused := false
  fenceHeld := false
  symbolCount := 0
  began := 0
  secondTimer := none
  corrected := 0
  uncorrected := 0
  signalAbsent := false
  absentThisSecond := false
  severeRun := 0
  signalTimer := none
  marginWatch := .ok
  marginTimer := none

/-- A downstream table with no bits. -/
def emptyDown : List Nat := List.replicate Config.downTones 0
/-- An upstream table with no bits. -/
def emptyUp : List Nat := List.replicate Config.upTones 0

/-- R41, R65, R79, R80: the LLE after device reset; the NORMAL downstream table is in force (log entry 74), and the
margin lift is 0 (log entry 91). -/
def Lle.reset : Lle where
  link := .down
  holders := { management := false, supply := false, voltage := false, survey := false }
  retry := 0
  backoffTimer := none
  lockoutTimer := none
  attemptHeld := false
  handshakeTimer := none
  probeTimer := none
  loadTimer := none
  trainingBegan := 0
  power := .full
  restoreRefused := false
  slot := none
  nextNumber := 1
  switchWaiting := none
  powerWaiting := none
  shieldWaiting := none
  lastFar := none
  upNormal := emptyUp
  upGuard := emptyUp
  upInForce := none
  normal := emptyDown
  guard := emptyDown
  downInForce := .normal
  snr := List.replicate Config.downTones 0
  e := 0
  d := ConfigRecord.default.dInit
  loadE := 0
  lastFailure := .none
  lastDrop := .none
  lastShow := none
  sync := Showtime.start
  farOut := []

/-- R63: the payload port after device reset. -/
def Plp.reset : Plp where
  ready := false
  queue := []
  downstreamAborted := false
  departures := 0

/-- R105: a port after device reset. -/
def PortRec.reset : PortRec where
  state := .onHook
  tone := .none
  offHook := false
  breakStart := none
  pulses := 0
  digits := []
  window := .closed
  postFlash := false
  awaiting := false
  pauseTimer := none
  firstDigitTimer := none
  interDigitTimer := none
  postFlashTimer := none
  offHookTimer := none
  howlerTimer := none
  noLoadTimer := none
  lowCurrentTimer := none
  noLoadCheck := none

def RingPlan.empty : RingPlan where
  loads := []
  named := []
  skipped := []

/-- R105, R119, R123, R125, R129: the VSW after device reset. -/
def Vsw.reset : Vsw where
  portA := PortRec.reset
  portB := PortRec.reset
  line := .idle
  offHookBandTimer := none
  onHookBandTimer := none
  noFeedTimer := none
  feedTimer := none
  burstOnTimer := none
  burstOffTimer := none
  inBurst := false
  ringEndTimer := none
  releaseTimer := none
  repeatQueue := []
  outpulse := none
  pairSpeech := none
  pairRinging := false
  episodes := []
  plan := RingPlan.empty
  coAnswer := none

/-- R130, R131, R133, R140, R145. -/
def Cct.reset : Cct where
  calls := []
  nextCallId := 1
  nextToken := 1
  deferred := []
  pendingAny := []

def RecordEntry.unwritten : RecordEntry where
  status := .notRun
  results := none
  stamp := 0

/-- R158: the LTH after device reset; the periodic check timer starts at the release of reset. -/
def Lth.reset : Lth where
  linkProfile := RecordEntry.unwritten
  foreignVoltage := RecordEntry.unwritten
  lineVoltage := RecordEntry.unwritten
  resistance := RecordEntry.unwritten
  insulation := RecordEntry.unwritten
  capacitance := RecordEntry.unwritten
  running := none
  pending := none
  stage := .none
  voltageDue := false
  lineVoltageDue := false
  relay := .rest
  holderAdded := false
  itemTimer := none
  restoreTimer := none
  waitTimer := none
  holdOff := false
  holdOffTimer := none
  periodicTimer := some Config.periodicMs
  recheckTimer := none

/-- R175, R181, R182. -/
def Flt.reset : Flt where
  entries := []
  overflow := false
  owed := []
  summary := .good
  lamp := .off
  lit := false
  flashTimer := none
  notices := 0

/-- R192: a counter after device reset. -/
def Counter.reset (selection : Nat) : Counter where
  selection := selection
  inhibit := false
  delegate := none
  value := 0
  wrapped := false

/-- R192: counters 0 and 1 select their fixed events, counters 2..7 select 0 during LOADING. -/
def Ctb.reset : Ctb where
  counters := Counter.reset 1 :: Counter.reset 2 :: List.replicate 6 (Counter.reset 0)

/-- The connections the model starts from: strap address 1, mains on, battery good, 48 V on the line, no
ringing, no current in either port. The manual gives none of these (DESIGN CHOICE, log entry 2). -/
def Pins.start : Pins where
  straps := 1
  mainsOk := true
  battLow := false
  lineMillivolt := 48000
  ringing := false
  currentA := 0
  currentB := 0

/-- The part right after device reset (R24), with the connections of `Pins.start`. -/
def State.reset : State where
  now := 0
  pins := Pins.start
  ybi := Ybi.reset
  cfl := Cfl.reset
  sup := Sup.reset
  lle := Lle.reset
  plp := Plp.reset
  vsw := Vsw.reset
  cct := Cct.reset
  lth := Lth.reset
  flt := Flt.reset
  ctb := Ctb.reset
  pending := []

end Sys2Proof.Machine
end

