-- ==== Sys2Proof/Machine/Frames.lean ====
section
/-! DEFINITION. The byte layouts of chapter 11: multi-byte fields, CHECK, kind codes, value codes, the frames the
part sends, the judgement and the reading of a frame it receives, and the configuration record. -/

namespace Sys2Proof.Machine

open Sys2Proof

/-! ### Fields (R201) -/

def byte (n : Nat) : Byte := BitVec.ofNat 8 n

/-- Big-endian fields (R201). -/
def be16 (n : Nat) : List Byte := [byte (n / 256), byte n]
def be24 (n : Nat) : List Byte := [byte (n / 65536), byte (n / 256), byte n]
def be32 (n : Nat) : List Byte := [byte (n / 16777216), byte (n / 65536), byte (n / 256), byte n]

/-- The value of a big-endian field. -/
def fromBe (l : List Byte) : Nat := l.foldl (fun acc b => acc * 256 + b.toNat) 0

/-- A flag in a byte of its own: bit 0 (R201). -/
def flagByte (b : Bool) : Byte := if b then 1 else 0
def flagOf (b : Byte) : Bool := b.toNat % 2 == 1

/-- A margin: signed 16-bit quarter-dB, 8000h for none (section 11.3). -/
def marginField : Option Int → List Byte
  | none => be16 0x8000
  | some m => be16 (BitVec.ofInt 16 m).toNat

/-- One bit of CHECK (R201). -/
def crcBit (c : BitVec 16) : BitVec 16 := if c.msb then (c <<< 1) ^^^ 0x1021#16 else c <<< 1

/-- CHECK over one more byte, most significant bit first. -/
def crcByte (c : BitVec 16) (b : Byte) : BitVec 16 :=
  Nat.repeat crcBit 8 (c ^^^ BitVec.ofNat 16 (b.toNat * 256))

/-- CHECK of a sequence of bytes (R201): it starts from FFFFh. -/
def crc (l : List Byte) : BitVec 16 := l.foldl crcByte 0xFFFF#16

/-- The 3-byte map of a station list: station n is bit n − 1 of the last byte onward (R201). -/
def stationMap (l : List Nat) : List Byte :=
  be24 ((List.range 24).foldl (fun acc i => if l.contains (i + 1) then acc + 2 ^ i else acc) 0)

/-! ### Codes (sections 11.2 and 11.3) -/

def Kind.code : Kind → Nat
  | .presence => 0x01
  | .lineStatus => 0x02
  | .fault => 0x03
  | .counterWrap => 0x04
  | .hook => 0x10
  | .claim => 0x11
  | .grant => 0x12
  | .take => 0x13
  | .refuse => 0x14
  | .hold => 0x15
  | .held => 0x16
  | .retrieve => 0x17
  | .release => 0x18
  | .ring => 0x19
  | .ringEnd => 0x1A
  | .query => 0x20
  | .report => 0x21
  | .done => 0x22
  | .test => 0x23
  | .testDone => 0x24
  | .linkControl => 0x25
  | .clearRetry => 0x26
  | .clearFaults => 0x27
  | .counterRead => 0x28
  | .counterSet => 0x29
  | .counterDelegate => 0x2A

/-- The kinds in the order of their codes. -/
def allKinds : List Kind :=
  [.presence, .lineStatus, .fault, .counterWrap, .hook, .claim, .grant, .take, .refuse, .hold, .held, .retrieve,
   .release, .ring, .ringEnd, .query, .report, .done, .test, .testDone, .linkControl, .clearRetry, .clearFaults,
   .counterRead, .counterSet, .counterDelegate]

/-- The kind of a kind code; none for a code that is unknown (R13). -/
def kindOf (code : Nat) : Option Kind := allKinds.find? (fun k => k.code == code)

def Role.code : Role → Nat
  | .lineUnit => 1
  | .extension => 2
  | .packet => 3
  | .tester => 4

def roleOf : Nat → Option Role
  | 1 => some .lineUnit
  | 2 => some .extension
  | 3 => some .packet
  | 4 => some .tester
  | _ => none

def LinkState.code : LinkState → Nat
  | .down => 0
  | .handshake => 1
  | .probe => 2
  | .load => 3
  | .showtime => 4
  | .retrainWait => 5
  | .lockout => 6
  | .quiet => 7

def LineState.code : LineState → Nat
  | .idle => 0
  | .ringIn => 1
  | .seized => 2
  | .releasing => 3
  | .parallel => 4
  | .test => 5
  | .out => 6

def FailureReason.code : FailureReason → Nat
  | .none => 0
  | .noFarEnd => 1
  | .lowRate => 2
  | .loadTimeout => 3
  | .badFarTable => 4

def DropReason.code : DropReason → Nat
  | .none => 0
  | .lossOfSignal => 1
  | .severeErrors => 2
  | .swapFailures => 3
  | .power => 4
  | .forced => 5

def ClaimKind.code : ClaimKind → Nat
  | .outside => 1
  | .outsideAny => 2
  | .answer => 3
  | .intercom => 4
  | .join => 5

def boolBit (b : Bool) (bit : Nat) : Nat := if b then 2 ^ bit else 0

/-- Quiet holders as bits (section 11.3). -/
def HolderSet.code (h : HolderSet) : Nat :=
  boolBit h.management 0 + boolBit h.supply 1 + boolBit h.voltage 2 + boolBit h.survey 3

/-- The reasons of REFUSE (section 1.7). -/
inductive RefuseReason where
  | notPermitted
  | badRequest
  | notReady
  | lineBusy
  | lineOut
  | pairBusy
  | partyLimit
  | noSuchCall
  | tokenMismatch
  | tableFull
  | testBusy
  | targetAbsent
  deriving DecidableEq, Repr

def RefuseReason.code : RefuseReason → Nat
  | .notPermitted => 1
  | .badRequest => 2
  | .notReady => 3
  | .lineBusy => 4
  | .lineOut => 5
  | .pairBusy => 6
  | .partyLimit => 7
  | .noSuchCall => 8
  | .tokenMismatch => 9
  | .tableFull => 10
  | .testBusy => 11
  | .targetAbsent => 12

def Item.code : Item → Nat
  | .linkProfile => 1
  | .foreignVoltage => 2
  | .lineVoltage => 3
  | .resistance => 4
  | .insulation => 5
  | .capacitance => 6

def itemOf : Nat → Option Item
  | 1 => some .linkProfile
  | 2 => some .foreignVoltage
  | 3 => some .lineVoltage
  | 4 => some .resistance
  | 5 => some .insulation
  | 6 => some .capacitance
  | _ => none

/-- The six items in the order of section 8.1. -/
def allItems : List Item :=
  [.linkProfile, .foreignVoltage, .lineVoltage, .resistance, .insulation, .capacitance]

/-- Item status codes; 0 stands for an item not named. -/
def ItemStatus.code : ItemStatus → Nat
  | .notRun => 1
  | .valid => 2
  | .aborted => 3
  | .outOfRange => 4

def FaultCode.code : FaultCode → Nat
  | .linkRetrainLimit => 1
  | .linkLowMargin => 2
  | .fenceImpulse => 3
  | .foreignVoltage => 4
  | .foreignVoltageHigh => 5
  | .loopLeakage => 6
  | .loopOpen => 7
  | .portOffhookLock => 8
  | .portNoLoad => 9
  | .portLowCurrent => 10
  | .ringOverload => 11
  | .stationLost => 12
  | .stationProtocol => 13
  | .busAddressConflict => 14
  | .busAddressInvalid => 15
  | .busBacklog => 16
  | .supplyOnBattery => 17
  | .supplyBatteryLow => 18
  | .configDefaulted => 19

def FaultSource.code : FaultSource → Nat
  | .line => 1
  | .port .a => 2
  | .port .b => 3
  | .pair => 4
  | .bus => 5
  | .supply => 6
  | .config => 7
  | .station n => 32 + n

def Severity.code : Severity → Nat
  | .good => 0
  | .notice => 1
  | .degraded => 2
  | .out => 3

/-- The severity the catalogue of section 9.1 gives each code. -/
def FaultCode.severity : FaultCode → Severity
  | .linkRetrainLimit => .out
  | .linkLowMargin => .degraded
  | .fenceImpulse => .degraded
  | .foreignVoltage => .degraded
  | .foreignVoltageHigh => .out
  | .loopLeakage => .degraded
  | .loopOpen => .out
  | .portOffhookLock => .notice
  | .portNoLoad => .notice
  | .portLowCurrent => .degraded
  | .ringOverload => .notice
  | .stationLost => .notice
  | .stationProtocol => .notice
  | .busAddressConflict => .degraded
  | .busAddressInvalid => .degraded
  | .busBacklog => .notice
  | .supplyOnBattery => .notice
  | .supplyBatteryLow => .degraded
  | .configDefaulted => .notice

/-- The events the counters can select (R192), by their codes. -/
inductive Event where
  | secondInShowtime
  | erroredSecond
  | severeSecond
  | correctedCodeword
  | uncorrectedCodeword
  | retrain
  | trainingFailure
  | swapDone
  | swapAbandoned
  | impulseEvent
  | predictedImpulseHit
  | guardEntry
  | refreshDeferred
  | busBadFrame
  | busFrameDropped
  | callCompleted
  | missedRing
  | ringShortfall
  deriving DecidableEq, Repr

def Event.code : Event → Nat
  | .secondInShowtime => 1
  | .erroredSecond => 2
  | .severeSecond => 3
  | .correctedCodeword => 4
  | .uncorrectedCodeword => 5
  | .retrain => 6
  | .trainingFailure => 7
  | .swapDone => 8
  | .swapAbandoned => 9
  | .impulseEvent => 10
  | .predictedImpulseHit => 11
  | .guardEntry => 12
  | .refreshDeferred => 13
  | .busBadFrame => 14
  | .busFrameDropped => 15
  | .callCompleted => 16
  | .missedRing => 17
  | .ringShortfall => 18

/-! ### Frames the part sends (section 11.4) -/

def plainFrame (dest : Nat) (kind : Kind) (body : List Byte) : TxFrame where
  dest := dest
  kind := kind
  body := body
  fault := none
  streamed := false

/-- The bytes of a frame on the wire, from DEST to CHECK (section 11.1). -/
def wireBytes (own : Nat) (f : TxFrame) : List Byte :=
  let head := [byte f.dest, byte own, byte f.kind.code, byte f.body.length] ++ f.body
  head ++ be16 (crc head).toNat

/-- R19: the part's own PRESENCE: LINE_UNIT, no handset, LOCAL, 0 units. -/
def presenceFrame : TxFrame := plainFrame 0 .presence [1, 0, 0, 0]

def lineStatusFrame (linkUp : Bool) (line : LineState) : TxFrame :=
  plainFrame 0 .lineStatus [flagByte linkUp, byte line.code]

def refuseFrame (dest : Nat) (refused : Kind) (reason : RefuseReason) (tag : Nat) : TxFrame :=
  plainFrame dest .refuse [byte refused.code, byte reason.code, byte tag]

def doneFrame (dest : Nat) (answered : Kind) : TxFrame := plainFrame dest .done [byte answered.code]

/-- R136: a GRANT; `sent` is the claim kind code the station sent, 0 for a RETRIEVE. -/
def grantFrame (dest tag callId sent : Nat) : TxFrame :=
  plainFrame dest .grant [byte tag, byte callId, byte sent]

def releaseFrame (dest callId : Nat) : TxFrame := plainFrame dest .release [byte callId]

/-- R147, R148: HELD with reason 1 HOLD or 2 OFFER. -/
def heldFrame (dest callId token reason : Nat) : TxFrame :=
  plainFrame dest .held ([byte callId] ++ be16 token ++ [byte reason])

def EpisodeKind.code : EpisodeKind → Nat
  | .outside => 1
  | .intercom => 2
  | .recall => 3

def Cadence.code : Cadence → Nat
  | .long => 1
  | .double => 2

/-- R128: RING; the cadence of an incoming call is the exchange's, code 0. -/
def ringFrame (callId : Nat) (kind : EpisodeKind) (cadence : Cadence) (stations : List Nat) : TxFrame :=
  plainFrame 0 .ring
    ([byte callId, byte kind.code, byte (match kind with | .outside => 0 | _ => cadence.code)] ++ stationMap stations)

/-- R128: RING_END with outcome 1 ANSWERED or 2 ENDED. -/
def ringEndFrame (callId : Nat) (answered : Bool) : TxFrame :=
  plainFrame 0 .ringEnd [byte callId, if answered then 1 else 2]

/-- R194: COUNTER_WRAP; the value after a wrap is 0. -/
def counterWrapFrame (dest counter selection : Nat) : TxFrame :=
  plainFrame dest .counterWrap [byte counter, byte selection, 0, 0, 0]

/-- The fault status byte (section 11.3); `reported` is false in a FAULT frame. -/
def faultStatus (e : FaultEntry) (summary : Severity) (overflow reported : Bool) : Byte :=
  byte (e.key.code.severity.code + boolBit e.active 2 + summary.code * 8 + boolBit overflow 5 + boolBit reported 6)

/-- R183: the FAULT notice of an entry as it stands. -/
def faultFrame (e : FaultEntry) (summary : Severity) (overflow : Bool) : TxFrame where
  dest := 0
  kind := .fault
  body := [byte e.key.code.code, byte e.key.source.code, faultStatus e summary overflow false, byte e.occurrences] ++
    be32 e.lastChange ++ be16 (min 65535 (e.lastChange - e.firstSeen))
  fault := some { key := e.key, notice := e.notice }
  streamed := false

/-! ### Bytes on the pair (R1) -/

/-- R1: the levels of a byte over its 10 bit times, true for recessive: the start bit, the data bits with the least
significant one first, the stop bit. -/
def byteLevels (b : Byte) : List Bool := false :: (List.range 8).map (fun i => b.getLsbD i) ++ [true]

/-- The levels of a frame of the part, its bytes back to back. -/
def wireLevels (own : Nat) (f : TxFrame) : List Bool := (wireBytes own f).flatMap byteLevels

/-- The runs of a sequence of bit times on the pair. -/
def runsOf (levels : List Bool) : List WireRun := levels.map fun x => { dominant := !x, micros := Config.bitMicros }

/-- What stands on the pair from a falling edge on: the dominant level that begins there, and the runs that follow. -/
def afterEdge (low : Nat) (wire : List WireRun) : List WireRun := { dominant := true, micros := low } :: wire

/-- What is left of the runs after some microseconds; at the end of a run it is the next one (log entry 72). -/
def dropMicros : Nat → List WireRun → List WireRun
  | _, [] => []
  | t, r :: w => if t < r.micros then { r with micros := r.micros - t } :: w else dropMicros (t - r.micros) w

/-- The pair is dominant some microseconds into the runs; beyond their end it is recessive. -/
def dominantAt (t : Nat) (w : List WireRun) : Bool := (dropMicros t w).head?.any (·.dominant)

/-- The pair stands dominant from the head of the runs on, without a gap, some microseconds into them. -/
def staysDominant : Nat → List WireRun → Bool
  | _, [] => false
  | t, r :: w => r.dominant && (decide (t < r.micros) || staysDominant (t - r.micros) w)

/-- The runs from the first one of a level on. -/
def fromLevel (dominant : Bool) (w : List WireRun) : List WireRun := w.dropWhile (fun r => r.dominant != dominant)

/-- R1: the byte whose start bit begins the runs: each data bit is taken at the middle of its bit time. -/
def sampleByte (w : List WireRun) : Byte :=
  byte ((List.range 8).foldl
    (fun n i => if dominantAt (Config.bitMicros * (i + 1) + Config.halfBitMicros) w then n else n + 2 ^ i) 0)

/-- The microseconds that runs stand. -/
def runsMicros (w : List WireRun) : Nat := (w.map (·.micros)).sum

/-- A byte the receiver has taken: its value, whether its stop bit was sampled dominant, and how many microseconds of
the runs were left at the falling edge of its start bit. -/
structure HeardByte where
  value : Byte
  broken : Bool
  left : Nat
  deriving DecidableEq, Repr

/-- R1: the bytes the receiver takes from the runs. A falling edge begins a byte when the pair is still dominant half a
bit time later; a dominant pulse that ends before then is passed over, and the next falling edge is judged for itself.
After a stop bit sampled dominant the receiver waits for a recessive level (log entry 85). A run is used up at every
turn, so that as many turns as runs are enough. -/
def readRuns : Nat → List WireRun → List HeardByte
  | 0, _ => []
  | n + 1, w =>
    let w := fromLevel true w
    if w.isEmpty then []
    else if staysDominant Config.halfBitMicros w then
      let rest := dropMicros (Config.bitMicros * 9 + Config.halfBitMicros) w
      { value := sampleByte w, broken := rest.head?.any (·.dominant), left := runsMicros w } ::
        readRuns n (fromLevel false rest)
    else readRuns n (fromLevel false w)

/-- R2: no idle point stands between a byte and the next: less than 20 bit times pass from the end of the one, 10 bit
times after its falling edge, to the falling edge of the other (log entry 86). -/
def HeardByte.meets (a b : HeardByte) : Bool := decide (a.left < b.left + (Config.byteMicros + Config.idleMicros))

/-- R2: the bytes between two idle points are one frame. -/
def framesOf : List HeardByte → List (List HeardByte)
  | [] => []
  | b :: l =>
    match framesOf l with
    | (c :: f) :: fs => if b.meets c then (b :: c :: f) :: fs else [b] :: (c :: f) :: fs
    | _ => [[b]]

/-- What R12 judges of a frame: its bytes, and whether one of them has a framing error. -/
def frameBytes (f : List HeardByte) : List Byte × Bool := (f.map (·.value), f.any (·.broken))

/-- R1, R2: the frames of what stood on the pair, each with its bytes and whether one has a framing error. -/
def readWire (w : List WireRun) : List (List Byte × Bool) := (framesOf (readRuns w.length w)).map frameBytes

/-- R5: the frames of what stood on the pair after the part aborted a frame: what comes before the first idle point is
the rest of that frame, be it no byte at all (log entries 72, 86). -/
def readAfterAbort (w : List WireRun) : List (List Byte × Bool) :=
  match readRuns w.length w with
  | [] => [([], false)]
  | b :: _ => if runsMicros w < b.left + Config.idleMicros then readWire w else ([], false) :: readWire w

/-! ### Frames the part receives -/

/-- The fields of a frame that has passed the judgement of R12. -/
structure RxFrame where
  dest : Nat
  src : Nat
  code : Nat
  body : List Byte
  deriving DecidableEq, Repr

/-- R12: the judgement of a received frame; none when it is invalid. -/
def judgeFrame (own : Nat) (bytes : List Byte) (framingError : Bool) : Option RxFrame :=
  let dest := (bytes.getD 0 0).toNat
  let src := (bytes.getD 1 0).toNat
  let len := (bytes.getD 3 0).toNat
  if framingError || decide (bytes.length < 6) || decide (30 < bytes.length) || decide (24 < len)
      || decide (bytes.length ≠ len + 6)
      || decide (fromBe (bytes.drop (len + 4)) ≠ (crc (bytes.take (len + 4))).toNat)
      || decide (24 < dest) || decide (src = 0) || decide (24 < src) || decide (src = own) then none
  else some { dest := dest, src := src, code := (bytes.getD 2 0).toNat, body := (bytes.drop 4).take len }

/-- R202: the body of a CLAIM, whose length follows from the claim kind. -/
def readClaim : List Byte → Option Message
  | [tag, kind] =>
    match kind.toNat with
    | 1 => some (.claim tag.toNat .outside 0)
    | 2 => some (.claim tag.toNat .outsideAny 0)
    | _ => none
  | [tag, kind, argument] =>
    match kind.toNat with
    | 3 => some (.claim tag.toNat .answer argument.toNat)
    | 4 => some (.claim tag.toNat .intercom argument.toNat)
    | 5 => some (.claim tag.toNat .join argument.toNat)
    | _ => none
  | _ => none

/-- R202: the body of a QUERY, whose length follows from the subject. -/
def readQuery : List Byte → Option Message
  | [subject] =>
    match subject.toNat with
    | 1 => some (.query .link)
    | 4 => some (.query .presenceTable)
    | _ => none
  | [subject, x] =>
    match subject.toNat with
    | 3 => some (.query (.faultTable x.toNat))
    | 5 => some (.query (.configuration x.toNat))
    | _ => none
  | [subject, x, y] =>
    match subject.toNat with
    | 2 => some (.query (.loopRecord x.toNat y.toNat))
    | _ => none
  | _ => none

/-- R202, section 11.4: the body of a frame that goes through the receive buffer; none when its length is not
the length of its kind. -/
def readMessage (kind : Kind) (body : List Byte) : Option Message :=
  match kind with
  | .hook => match body with | [e] => some (.hook e.toNat) | _ => none
  | .claim => readClaim body
  | .grant => match body with | [t, c, _] => some (.grant t.toNat c.toNat) | _ => none
  | .take => match body with | [t] => some (.take t.toNat) | _ => none
  | .hold => match body with | [c] => some (.hold c.toNat) | _ => none
  | .retrieve =>
    match body with
    | [t, c, hi, lo] => some (.retrieve t.toNat c.toNat (fromBe [hi, lo]))
    | _ => none
  | .release => match body with | [c] => some (.release c.toNat) | _ => none
  | .query => readQuery body
  | .test => match body with | [i, d] => some (.test i.toNat (flagOf d)) | _ => none
  | .linkControl => match body with | [o] => some (.linkControl o.toNat) | _ => none
  | .clearRetry => match body with | [] => some .clearRetry | _ => none
  | .clearFaults => match body with | [] => some .clearFaults | _ => none
  | .counterRead => match body with | [c, f] => some (.counterRead c.toNat (flagOf f)) | _ => none
  | .counterSet =>
    match body with
    | [c, parts, sel, inh] =>
      some (.counterSet c.toNat (if parts.toNat % 2 = 1 then some sel.toNat else none)
        (if parts.toNat / 2 % 2 = 1 then some (flagOf inh) else none))
    | _ => none
  | .counterDelegate => match body with | [c, a] => some (.counterDelegate c.toNat a.toNat) | _ => none
  | _ => none

/-- R202: the tag a REFUSE of a malformed request carries. -/
def malformedTag (kind : Kind) (body : List Byte) : Nat :=
  match kind with
  | .claim | .take | .retrieve => (body.headD 0).toNat
  | _ => 0

/-- The requests of R21, by kind. -/
def Kind.isRequest : Kind → Bool
  | .hook | .claim | .retrieve | .take | .hold | .release | .query | .test | .linkControl | .clearRetry | .clearFaults
  | .counterRead | .counterSet | .counterDelegate => true
  | _ => false

/-- The kind a message came as. -/
def Message.kind : Message → Kind
  | .hook _ => .hook
  | .claim .. => .claim
  | .grant .. => .grant
  | .take _ => .take
  | .hold _ => .hold
  | .retrieve .. => .retrieve
  | .release _ => .release
  | .query _ => .query
  | .test .. => .test
  | .linkControl _ => .linkControl
  | .clearRetry => .clearRetry
  | .clearFaults => .clearFaults
  | .counterRead .. => .counterRead
  | .counterSet .. => .counterSet
  | .counterDelegate .. => .counterDelegate

/-- The descriptive fields of a PRESENCE (R15, R16): none when the length is wrong, the role is none of the
four, or the units exceed 3. A ring mode code other than 0 and 1 has a free value (log entry 20). -/
def readPresence : List Byte → Option (Role × Bool × RingMode × Nat)
  | [role, handset, mode, units] =>
    match roleOf role.toNat with
    | none => none
    | some r =>
      if 3 < units.toNat then none
      else
        let pair := if mode = 0 then false else if mode = 1 then true else Config.unnamedRingMode mode
        some (r, flagOf handset, if pair then .pair else .ownSupply, units.toNat)
  | _ => none

/-! ### The configuration record (R26, R27, section 11.5) -/

/-- A value held between two bounds. -/
def clampNat (lo hi x : Nat) : Nat := max lo (min hi x)

/-- R27: one address place of the management list, given the places before it. -/
def managementPlace (before : List Nat) (x : Nat) : Nat :=
  if x = 0 ∨ 24 < x ∨ before.contains x then 0 else x

/-- R27: the four places in order; an empty or repeated place holds 0. -/
def managementPlaces (l : List Nat) : List Nat :=
  l.foldl (fun acc x => acc ++ [managementPlace acc x]) []

/-- R26: the memory is usable: 64 bytes, format 5Ch, and a sum of 0 modulo 256. -/
def memoryUsable (m : List Byte) : Bool :=
  decide (m.length = 64) && decide (m.getD 0 0 = 0x5C) && decide ((m.foldl (fun acc b => acc + b.toNat) 0) % 256 = 0)

/-- R27: the record in force from a usable memory. -/
def clampRecord (m : List Byte) : ConfigRecord :=
  let at1 := fun i => (m.getD i 0).toNat
  let at2 := fun i => at1 i * 256 + at1 (i + 1)
  let flag := fun i => flagOf (m.getD i 0)
  let margin := clampNat 12 64 (at1 1)
  let cap := clampNat 256 15000 (at2 3)
  let dMax := clampNat 0 4 (at1 9)
  { targetMargin := margin
    minMargin := clampNat 0 margin (at1 2)
    rateCap := cap
    rateFloor := min cap (clampNat 64 4096 (at2 5))
    bmax := clampNat 2 12 (at1 7)
    dInit := clampNat 0 dMax (at1 8)
    dMax := dMax
    guardAllowance := clampNat 0 32 (at1 10)
    guardSelection := match at1 11 with | 1 => .ringIn | 2 => .parallel | _ => .both
    startHeld := flag 12
    unitsA := clampNat 1 3 (at1 13)
    unitsB := clampNat 1 3 (at1 14)
    directA := flag 15
    directB := flag 16
    ringA := flag 17
    ringB := flag 18
    joinAllowed := flag 19
    cadence := match at1 20 with | 1 => .long | _ => .double
    management := managementPlaces [at1 21, at1 22, at1 23, at1 24]
    counterEvents := [at1 25, at1 26, at1 27, at1 28, at1 29, at1 30] }

def GuardSelection.code : GuardSelection → Nat
  | .ringIn => 1
  | .parallel => 2
  | .both => 3

/-- R30, section 11.5: the 64-byte image of the record in force, its check byte recomputed. -/
def recordImage (r : ConfigRecord) : List Byte :=
  let head : List Byte :=
    [0x5C, byte r.targetMargin, byte r.minMargin] ++ be16 r.rateCap ++ be16 r.rateFloor ++
    [byte r.bmax, byte r.dInit, byte r.dMax, byte r.guardAllowance, byte r.guardSelection.code, flagByte r.startHeld,
     byte r.unitsA, byte r.unitsB, flagByte r.directA, flagByte r.directB, flagByte r.ringA, flagByte r.ringB,
     flagByte r.joinAllowed, byte r.cadence.code] ++
    r.management.map byte ++ r.counterEvents.map byte ++ List.replicate 32 0
  head ++ [byte (256 - (head.foldl (fun acc b => acc + b.toNat) 0) % 256)]

end Sys2Proof.Machine
end

