-- ==== Sys2Proof/Machine/Flags.lean ====
section
/-! DEFINITION. The fault flags: what a raise, a making-inactive and an eviction do to the fault table, the
summary severity and the lamp that follow from it (chapter 9), and the count a counter takes (R193, R194). The
frames these call for are handed over in Machine/Ops.lean. -/

namespace Sys2Proof.Machine

open Sys2Proof

/-! ### The entries -/

/-- The entry of a (code, source), when the table holds one (R175). -/
def Flt.find (k : FaultKey) (f : Flt) : Option FaultEntry := f.entries.find? (fun e => decide (e.key = k))

/-- The table holds the entry ACTIVE: what the consulting blocks look at (section 9.7). -/
def Flt.isActive (k : FaultKey) (f : Flt) : Bool := f.entries.any (fun e => decide (e.key = k) && e.active)

/-- One entry changed in its place. -/
def Flt.update (k : FaultKey) (g : FaultEntry → FaultEntry) (f : Flt) : Flt :=
  { f with entries := f.entries.map (fun e => if e.key = k then g e else e) }

/-- An entry leaves the table; its owed notice leaves the list with it (R179, R188). -/
def Flt.remove (k : FaultKey) (f : Flt) : Flt :=
  { f with entries := f.entries.filter (fun e => !decide (e.key = k)), owed := f.owed.filter (fun o => !decide (o = k)) }

/-! ### Summary severity and lamp (R181, R182) -/

/-- The highest severity among the ACTIVE entries, GOOD without one (R181). -/
def summaryOf (l : List FaultEntry) : Severity :=
  let has := fun sev => l.any (fun e => e.active && decide (e.key.code.severity = sev))
  if has .out then .out else if has .degraded then .degraded else if has .notice then .notice else .good

/-- The lamp state of a summary severity (R182). -/
def lampOf : Severity → Lamp
  | .good => .off
  | .notice => .off
  | .degraded => .steady
  | .out => .flashing

def Lamp.code : Lamp → Nat
  | .off => 0
  | .steady => 1
  | .flashing => 2

/-- The lamp takes up a lamp state; FLASHING begins with its lit half at each entry (R182). -/
def Flt.setLamp (now : Nat) (l : Lamp) (f : Flt) : Flt :=
  if f.lamp = l then f
  else match l with
    | .off => { f with lamp := .off, lit := false, flashTimer := none }
    | .steady => { f with lamp := .steady, lit := true, flashTimer := none }
    | .flashing => { f with lamp := .flashing, lit := true, flashTimer := some (now + Config.flashMs) }

/-- The summary severity is recomputed, and the lamp follows it (R181, R182). -/
def Flt.resummarise (now : Nat) (f : Flt) : Flt :=
  Flt.setLamp now (lampOf (summaryOf f.entries)) { f with summary := summaryOf f.entries }

/-! ### A full table (R178) -/

/-- The oldest entry of those chosen: the earliest last-change, the earlier place between equals (R178). -/
def oldestOf (p : FaultEntry → Bool) (l : List FaultEntry) : Option FaultEntry :=
  (l.filter p).foldl (fun best e =>
    match best with
    | none => some e
    | some b => if e.lastChange < b.lastChange then some e else some b) none

/-- The entries eviction never removes (R178). -/
def FaultEntry.isProtected (e : FaultEntry) : Bool :=
  decide (e.key.code.severity = .out) || decide (e.key.code = .configDefaulted) ||
    decide (e.key.code = .busAddressInvalid) || decide (e.key.code = .busAddressConflict)

/-- A candidate of test 2 of R178 at one severity. -/
def lowerActive (sev : Severity) (e : FaultEntry) : Bool :=
  e.active && !e.isProtected && decide (e.key.code.severity = sev)

/-- Test 2 of R178: the oldest unprotected ACTIVE entry of the lowest severity below that of the new fault. -/
def lowestActive (l : List FaultEntry) : Severity → Option FaultEntry
  | .out => (oldestOf (lowerActive .notice) l).or (oldestOf (lowerActive .degraded) l)
  | .degraded => oldestOf (lowerActive .notice) l
  | _ => none

/-- R178: the table with a place for a new fault of the severity, or the table as R178 leaves it when there is
none. Test 1 passes over a protected entry too: eviction never removes one. -/
def Flt.makeRoom (sev : Severity) (f : Flt) : Flt :=
  if f.entries.length < Config.faultCapacity then f
  else match oldestOf (fun e => !e.active && !e.isProtected) f.entries with
    | some e => f.remove e.key
    | none =>
      match lowestActive f.entries sev with
      | some e => { f.remove e.key with overflow := true }
      | none => { f with overflow := true }

/-! ### Raising and making inactive (R176, R177) -/

/-- An event that calls for a notice of the entry: it is numbered, and the reported mark becomes no (R183, R185). -/
def Flt.callForNotice (k : FaultKey) (f : Flt) : Flt :=
  Flt.update k (fun e => { e with reported := false, notice := f.notices + 1 }) { f with notices := f.notices + 1 }

/-- A new entry, at the end of the table order (R176). -/
def FaultEntry.created (k : FaultKey) (up : Nat) : FaultEntry where
  key := k
  active := true
  firstSeen := up
  lastChange := up
  occurrences := 1
  reported := false
  notice := 0

/-- R176: the table after a raise at uptime `up`, and whether the raise calls for a notice (R183). -/
def Flt.raised (k : FaultKey) (now up : Nat) (f : Flt) : Flt × Bool :=
  match f.find k with
  | some e =>
    let g := f.update k (fun e =>
      { e with active := true, occurrences := min Config.occurrencesMax (e.occurrences + 1), lastChange := up })
    if !e.active then ((g.callForNotice k).resummarise now, true)
    else if e.occurrences < Config.occurrencesMax then (g.callForNotice k, true)
    else (g, false)
  | none =>
    let g := f.makeRoom k.code.severity
    if g.entries.length < Config.faultCapacity then
      ((Flt.callForNotice k { g with entries := g.entries ++ [FaultEntry.created k up] }).resummarise now, true)
    else (g, false)

/-- R177: the table after a making-inactive, and whether it calls for a notice. -/
def Flt.madeInactive (k : FaultKey) (now up : Nat) (f : Flt) : Flt × Bool :=
  if f.isActive k then
    (((f.update k (fun e => { e with active := false, lastChange := up })).callForNotice k).resummarise now, true)
  else (f, false)

/-- R177: a raise and the making-inactive at the same event, with one notice and no passage of the summary
through a change; whether an entry stands to be noticed. -/
def Flt.pulsed (k : FaultKey) (now up : Nat) (f : Flt) : Flt × Bool :=
  match f.find k with
  | some _ =>
    (((f.update k (fun e =>
      { e with active := false, occurrences := min Config.occurrencesMax (e.occurrences + 1), lastChange := up })).callForNotice
        k).resummarise now, true)
  | none =>
    let g := f.makeRoom k.code.severity
    if g.entries.length < Config.faultCapacity then
      ((Flt.callForNotice k { g with entries := g.entries ++ [{ FaultEntry.created k up with active := false }] }).resummarise now,
        true)
    else (g, false)

/-- R188: every INACTIVE entry leaves, and the overflow flag is cleared. -/
def Flt.cleared (f : Flt) : Flt :=
  let kept := f.entries.filter (fun e => e.active)
  { f with
    entries := kept
    overflow := false
    owed := f.owed.filter (fun k => kept.any (fun e => decide (e.key = k))) }

/-- R185: a FAULT frame has been read back whole; the mark becomes yes when it was the latest notice called for. -/
def Flt.reportedBy (t : FaultTag) (f : Flt) : Flt :=
  f.update t.key (fun e => if e.notice = t.notice then { e with reported := true } else e)

/-! ### The counters (R193, R194) -/

/-- The counter counts events of the code (R193): codes that name no event are never signalled. -/
def Counter.takes (code : Nat) (c : Counter) : Bool := decide (c.selection = code) && !c.inhibit

/-- One more on the counter, with the wrap of R194. -/
def Counter.add (c : Counter) : Counter :=
  if c.value = Config.counterTop then { c with value := 0, wrapped := true } else { c with value := c.value + 1 }

/-- The counter after an event of the code. -/
def Counter.count (code : Nat) (c : Counter) : Counter := if c.takes code then c.add else c

/-- The counters an event of the code wraps, each with its number, in ascending order (R194; the order is log
entry 71). -/
def Ctb.wrapping (code : Nat) (b : Ctb) : List (Nat × Counter) :=
  (b.counters.zipIdx.filter (fun p => p.1.takes code && decide (p.1.value = Config.counterTop))).map (fun p => (p.2, p.1))

end Sys2Proof.Machine
end

