-- ==== Sys2Proof/Machine/Ops.lean ====
section
/-! DEFINITION. The shared operations of every block: the clock, the events the Counter Bank counts, the faults
with their notices, the three transmit queues and the reply stream, the replies, and the look-ups in the
presence table. -/

namespace Sys2Proof.Machine

open Sys2Proof

/-! ### The clock -/

/-- Uptime in whole seconds from the release of device reset (R175); beyond its range it is a free value. -/
def State.uptime (s : State) : Nat :=
  if s.now / 1000 ≤ 4294967295 then s.now / 1000 else Config.uptimeBeyond (s.now / 1000)

/-- Time reaches an instant: in SHOWTIME the symbol count goes on with it (R96). A past instant changes nothing. -/
def State.reach (t : Nat) (s : State) : State :=
  if t ≤ s.now then s
  else
    { s with
      now := t
      lle :=
        if s.lle.link = .showtime then
          { s.lle with sync :=
            { s.lle.sync with
              symbolCount := max s.lle.sync.symbolCount (Config.symbolsPerMs * (t - s.lle.sync.began)) } }
        else s.lle }

/-- A timer expires: time reaches its deadline, and the event follows. A timer that does not run expires never,
and such a command changes nothing (log entry 4). -/
def State.onExpiry (t : Timer) (f : State → State) (s : State) : State :=
  match t with
  | none => s
  | some d => f (s.reach d)

/-- The instant `ms` from now. -/
def State.after (ms : Nat) (s : State) : Timer := some (s.now + ms)

/-- The start of a periodic timer again from the deadline it had. -/
def restart (t : Timer) (ms : Nat) : Timer := t.map (· + ms)

/-! ### The parts of a queue -/

/-- The head frame of the queue of a class is being sent (R3). -/
def State.isSending (cls : UrgencyClass) (s : State) : Bool := decide (s.ybi.bus = .sending cls)

/-- Changes the first frame of a queue that is not being sent and that the test picks; none when there is none. -/
def replaceUnsent (sending : Bool) (p : TxFrame → Bool) (f : TxFrame) (q : List TxFrame) : Option (List TxFrame) :=
  let head := if sending then q.take 1 else []
  let rest := if sending then q.drop 1 else q
  if rest.any p then
    some (head ++ rest.takeWhile (fun x => !p x) ++ f :: (rest.dropWhile (fun x => !p x)).drop 1)
  else none

/-- The queue without its oldest frame that is not being sent (R7). -/
def dropOldestUnsent (sending : Bool) (q : List TxFrame) : List TxFrame :=
  if sending then q.take 1 ++ q.drop 2 else q.drop 1

/-! ### Notices that go in the ROUTINE class (R183) -/

/-- The notice of a NOTICE or DEGRADED entry: into the place of its unsent frame, to the tail, or owed. -/
def State.noticeRoutine (e : FaultEntry) (s : State) : State :=
  if s.ybi.listenOnly then s
  else
    let frame := faultFrame e s.flt.summary s.flt.overflow
    match replaceUnsent (s.isSending .routine)
        (fun x => match x.fault with | some t => decide (t.key = e.key) | none => false) frame s.ybi.routine with
    | some q => s.onYbi fun y => { y with routine := q }
    | none =>
      if s.ybi.routine.length < Config.queueCapacity then s.onYbi fun y => { y with routine := y.routine ++ [frame] }
      else if s.flt.owed.contains e.key then s
      else s.onFlt fun f => { f with owed := f.owed ++ [e.key] }

/-- BUS_BACKLOG, source BUS. -/
def backlogKey : FaultKey where
  code := .busBacklog
  source := .bus

/-- One discard (R10): BUS_BACKLOG is raised and the backlog timer restarts. -/
def State.backlog (s : State) : State :=
  let r := s.flt.raised backlogKey s.now s.uptime
  let s := (s.onFlt fun _ => r.1).onYbi fun y => { y with backlogTimer := some (s.now + Config.backlogMs) }
  match r.2, s.flt.find backlogKey with
  | true, some e => s.noticeRoutine e
  | _, _ => s

/-! ### Events counted (R193, R194) -/

/-- A COUNTER_WRAP joins the ROUTINE queue, or is discarded when the queue is full (R8, R194). -/
def State.handWrap (dropped : State → State) (f : TxFrame) (s : State) : State :=
  if s.ybi.listenOnly then s
  else if s.ybi.routine.length < Config.queueCapacity then s.onYbi fun y => { y with routine := y.routine ++ [f] }
  else dropped s

/-- An event is signalled. A COUNTER_WRAP that finds the queue full is itself an event; `fuel` bounds how deep that
goes, and each level wraps one more of the eight counters. The notices of one event are handed in ascending counter
number, and a discard is counted before the next is handed (log entry 71). A discard is counted, with the COUNTER_WRAP
of that count, before it raises BUS_BACKLOG (log entry 110). -/
def State.signalFuel : Nat → Event → State → State
  | 0, e, s => s.onCtb fun b => { b with counters := b.counters.map (Counter.count e.code) }
  | fuel + 1, e, s =>
    (s.ctb.wrapping e.code).foldl
      (fun s p =>
        s.handWrap (fun s => (State.signalFuel fuel .busFrameDropped s).backlog)
          (counterWrapFrame (p.2.delegate.getD 0) p.1 p.2.selection))
      (s.onCtb fun b => { b with counters := b.counters.map (Counter.count e.code) })

/-- R193: an event adds 1 to every counter that selects it and is not inhibited. -/
def State.signal (e : Event) (s : State) : State := State.signalFuel 9 e s

/-- The same event, several times. -/
def State.signalTimes : Nat → Event → State → State
  | 0, _, s => s
  | n + 1, e, s => State.signalTimes n e (s.signal e)

/-- A discard that counts (R7, R8, R14, R64, R194). The rules name the count of BUS_FRAME_DROPPED and the raise of
BUS_BACKLOG without an order: the model counts first, so that a COUNTER_WRAP of that count joins the ROUTINE queue before
the FAULT notice of BUS_BACKLOG (DESIGN CHOICE, log entry 110). -/
def State.frameDropped (s : State) : State := (s.signal .busFrameDropped).backlog

/-! ### Handing a frame to the YBI (R6, R7, R8) -/

/-- R7: the URGENT queue. In listen-only the frame is discarded at once (R6). -/
def State.handUrgent (f : TxFrame) (s : State) : State :=
  if s.ybi.listenOnly then s
  else
    let s := if s.ybi.urgent.length < Config.urgentCapacity then s
      else (s.onYbi fun y => { y with urgent := dropOldestUnsent (s.isSending .urgent) y.urgent }).frameDropped
    s.onYbi fun y => { y with urgent := y.urgent ++ [f] }

/-- R7: the CALL queue. -/
def State.handCall (f : TxFrame) (s : State) : State :=
  if s.ybi.listenOnly then s
  else if s.ybi.call.length < Config.queueCapacity then s.onYbi fun y => { y with call := y.call ++ [f] }
  else s.frameDropped

/-- R8: the ROUTINE queue, for a frame other than FAULT; a PRESENCE takes the place of an unsent PRESENCE. -/
def State.handRoutine (f : TxFrame) (s : State) : State :=
  if s.ybi.listenOnly then s
  else
    match (if f.kind = .presence then
        replaceUnsent (s.isSending .routine) (fun x => decide (x.kind = .presence)) f s.ybi.routine
      else none) with
    | some q => s.onYbi fun y => { y with routine := q }
    | none =>
      if s.ybi.routine.length < Config.queueCapacity then s.onYbi fun y => { y with routine := y.routine ++ [f] }
      else s.frameDropped

/-! ### Faults (chapter 9) -/

/-- The notice an event calls for (R183): URGENT for an OUT entry, ROUTINE for the others. -/
def State.notice (k : FaultKey) (s : State) : State :=
  match s.flt.find k with
  | none => s
  | some e =>
    if k.code.severity = .out then s.handUrgent (faultFrame e s.flt.summary s.flt.overflow) else s.noticeRoutine e

/-- What a change of the table leaves to be told. -/
def State.applyFault (k : FaultKey) (r : Flt × Bool) (s : State) : State :=
  let s := s.onFlt fun _ => r.1
  if r.2 then s.notice k else s

/-- R176: a raise. -/
def State.raise (code : FaultCode) (src : FaultSource) (s : State) : State :=
  s.applyFault { code := code, source := src } (s.flt.raised { code := code, source := src } s.now s.uptime)

/-- R177: a making-inactive. -/
def State.makeInactive (code : FaultCode) (src : FaultSource) (s : State) : State :=
  s.applyFault { code := code, source := src } (s.flt.madeInactive { code := code, source := src } s.now s.uptime)

/-- R177: STATION_PROTOCOL, raised and made inactive at one event. -/
def State.protocolFault (n : Nat) (s : State) : State :=
  let k : FaultKey := { code := .stationProtocol, source := .station n }
  s.applyFault k (s.flt.pulsed k s.now s.uptime)

/-- The table holds the fault ACTIVE. -/
def State.faultActive (code : FaultCode) (src : FaultSource) (s : State) : Bool :=
  s.flt.isActive { code := code, source := src }

/-- A raise by a block that raises only when the entry is not ACTIVE. -/
def State.raiseUnlessActive (code : FaultCode) (src : FaultSource) (s : State) : State :=
  if s.faultActive code src then s else s.raise code src

/-! ### Reply streams (R11) -/

/-- The next frame of the stream goes to the ROUTINE queue when none of the stream stands in it and there is room. -/
def State.pumpStream (s : State) : State :=
  match s.ybi.stream with
  | none => s
  | some st =>
    match st.inQueue, st.rest with
    | true, _ => s
    | false, [] => s.onYbi fun y => { y with stream := none }
    | false, f :: more =>
      if s.ybi.routine.length < Config.queueCapacity then
        s.onYbi fun y => { y with routine := y.routine ++ [f], stream := some { rest := more, inQueue := true } }
      else s

/-- A multi-frame answer begins (R11); in listen-only every frame of it is discarded (R6). -/
def State.startStream (l : List TxFrame) (s : State) : State :=
  if s.ybi.listenOnly then s
  else State.pumpStream
    (s.onYbi fun y => { y with stream := some { rest := l.map (fun f => { f with streamed := true }), inQueue := false } })

/-- R183: a frame has left the ROUTINE queue and it has room: the notice of the entry owed longest is handed. -/
def State.handOwed (s : State) : State :=
  match s.flt.owed with
  | [] => s
  | k :: more =>
    if s.ybi.routine.length < Config.queueCapacity then
      let s := s.onFlt fun f => { f with owed := more }
      match s.flt.find k with
      | none => s
      | some e => s.noticeRoutine e
    else s

/-! ### Replies (R23) -/

def State.refuse (dest : Nat) (kind : Kind) (reason : RefuseReason) (tag : Nat) (s : State) : State :=
  s.handCall (refuseFrame dest kind reason tag)

def State.done (dest : Nat) (kind : Kind) (s : State) : State := s.handRoutine (doneFrame dest kind)

/-- A single REPORT. -/
def State.report (dest : Nat) (body : List Byte) (s : State) : State := s.handRoutine (plainFrame dest .report body)

/-- R19: the part's LINE_STATUS. -/
def State.lineStatus (s : State) : State :=
  s.handRoutine (lineStatusFrame (decide (s.lle.link = .showtime)) s.vsw.line)

/-! ### The presence table -/

/-- The entry of a station. -/
def State.entryOf (n : Nat) (s : State) : Option PresenceEntry := s.ybi.presence.find? (fun e => e.address == n)

/-- The station has an entry, and it is PRESENT. -/
def State.isPresent (n : Nat) (s : State) : Bool := s.ybi.presence.any (fun e => e.address == n && e.present)

/-- One entry changed in its place. -/
def State.onEntry (n : Nat) (g : PresenceEntry → PresenceEntry) (s : State) : State :=
  s.onYbi fun y => { y with presence := y.presence.map (fun e => if e.address = n then g e else e) }

/-- The station is on the management list (section 1.7). An empty place of the list holds 0. -/
def State.isManager (n : Nat) (s : State) : Bool := decide (n ≠ 0) && s.cfl.record.management.contains n

/-- The grant the station is expected to TAKE (R18). -/
def State.expectation (n : Nat) (s : State) : Option GrantExpectation := (s.entryOf n).bind (·.grant)

def State.clearExpectation (n : Nat) (s : State) : State := s.onEntry n fun e => { e with grant := none }

/-! ### The ports -/

def State.port (p : Port) (s : State) : PortRec :=
  match p with
  | .a => s.vsw.portA
  | .b => s.vsw.portB

def State.onPort (p : Port) (f : PortRec → PortRec) (s : State) : State :=
  match p with
  | .a => s.onVsw fun v => { v with portA := f v.portA }
  | .b => s.onVsw fun v => { v with portB := f v.portB }

/-- A request handed to its owner leaves the receive buffer (R14). -/
def State.popRequest (s : State) : State := s.onYbi fun y => { y with rxBuffer := y.rxBuffer.drop 1 }

end Sys2Proof.Machine
end

