-- ==== Sys2Proof/Machine/Loading.lean ====
section
/-! DEFINITION. The loading arithmetic (chapter 4): smoothing, bits per tone, margins, rates, the choice made at
LOAD and the depth a SHIELD request asks for. Tables of the downstream direction list tones 48..383. -/

namespace Sys2Proof.Machine

open Sys2Proof

/-! ### Groups -/

/-- The 16 values of downstream group g (3..23) of a list over tones 48..383. -/
def groupOf (l : List Nat) (g : Nat) : List Nat := (l.drop (16 * (g - 3))).take 16

/-- The 16 values of a group replaced. -/
def setGroup (l : List Nat) (g : Nat) (v : List Nat) : List Nat :=
  l.take (16 * (g - 3)) ++ v ++ l.drop (16 * (g - 3) + 16)

/-- R40, R68: the bits a downstream table gives a tone of the plan 0..383; tones 0..47 carry none. -/
def downBits (l : List Nat) (tone : Nat) : Nat := if tone < 48 then 0 else l.getD (tone - 48) 0

/-! ### Recorded SNR (R65, R66) -/

/-- A measurement saturated to 0..255 (R65, R66). -/
def saturate (m : Int) : Nat := (max 0 (min 255 m)).toNat

/-- R66: the smoothing of one tone. -/
def smooth (old : Nat) (m : Int) : Nat := min 255 ((3 * old + saturate m + 2) / 4)

/-! ### Bits per tone (R67, R68) -/

/-- R67: the effective margin of a table. -/
def effectiveMargin (t : TableName) (r : ConfigRecord) (e leak : Nat) : Nat :=
  match t with
  | .normal => r.targetMargin + e + leak
  | .guard => r.targetMargin + e + leak + r.guardAllowance

/-- R68: the headroom of a tone. -/
def headroom (snr margin : Nat) : Int := (snr : Int) - Config.gap - margin

/-- R68: the bits of a tone. -/
def toneBits (bmax margin snr : Nat) : Nat :=
  if headroom snr margin < Config.loadThreshold then 0
  else min bmax (headroom snr margin / Config.stepPerBit).toNat

/-- R69: the bits of a list of tones of one table. -/
def tableBits (t : TableName) (r : ConfigRecord) (e leak : Nat) (snr : List Nat) : List Nat :=
  snr.map (toneBits r.bmax (effectiveMargin t r e leak))

/-- R67: L_adj at this moment. -/
def State.leakage (s : State) : Nat := if s.faultActive .loopLeakage .line then Config.leakageMargin else 0

/-! ### Margins (R70, R71) -/

/-- R70: the tone margin, none of a tone that carries no bits. -/
def toneMargin (snr bits : Nat) : Option Int :=
  if bits = 0 then none else some ((snr : Int) - Config.gap - Config.stepPerBit * bits)

/-- The smaller of two margins, either of which may be none. -/
def lesser : Option Int → Option Int → Option Int
  | none, y => y
  | x, none => x
  | some x, some y => some (min x y)

/-- R70, R71: the smallest tone margin of a set of tones, none when no tone of it is loaded. -/
def smallestMargin (snr bits : List Nat) : Option Int :=
  (List.zipWith toneMargin snr bits).foldl lesser none

/-- The downstream table of a name. -/
def Lle.table (l : Lle) : TableName → List Nat
  | .normal => l.normal
  | .guard => l.guard

/-- The downstream table in force. -/
def Lle.inForce (l : Lle) : List Nat := l.table l.downInForce

/-- R71: the reported margin. -/
def Lle.margin (l : Lle) : Option Int := smallestMargin l.snr l.inForce

/-! ### Rates (R72, R63) -/

/-- R72: the bit total of a table. -/
def bitTotal (l : List Nat) : Nat := l.foldl (· + ·) 0

/-- R72: the net rate in kbit/s of a bit total at a depth: C = 2 + 4 D check bytes of 64. -/
def netRate (b d : Nat) : Nat := b * (64 - (2 + 4 * d)) / 16

/-- The net rate of the link. -/
def Lle.rate (l : Lle) : Nat := netRate (bitTotal l.inForce) l.d

/-- R63: the delivered rate. -/
def State.deliveredRate (s : State) : Nat := min s.cfl.record.rateCap s.lle.rate

/-! ### The choice at LOAD (R74, R75, R76) -/

/-- The margin lifts tried, in order (R75). -/
def lifts : List Nat := (List.range 17).map (4 * ·)

/-- R75: the smallest lift whose net rate does not exceed the cap, 64 when none. -/
def chooseLift (r : ConfigRecord) (leak d : Nat) (snr : List Nat) : Nat :=
  (lifts.find? (fun e => decide (netRate (bitTotal (tableBits .normal r e leak snr)) d ≤ r.rateCap))).getD 64

/-- R74: the rate floor test at lift 0. -/
def floorMet (r : ConfigRecord) (leak d : Nat) (snr : List Nat) : Bool :=
  decide (r.rateFloor ≤ netRate (bitTotal (tableBits .normal r 0 leak snr)) d)

/-! ### The depth of a SHIELD request (R77) -/

/-- R77, the raise: the largest depth from `d` up to `d + n` whose rate is at the floor, `d` when none is. -/
def raiseDepth (floor bits d : Nat) : Nat → Nat
  | 0 => d
  | n + 1 => if floor ≤ netRate bits (d + (n + 1)) then d + (n + 1) else raiseDepth floor bits d n

/-- R77: the requested depth, from the needed depth. -/
def requestedDepth (r : ConfigRecord) (l : Lle) (need : Nat) : Nat :=
  let want := min need r.dMax
  if want ≤ l.d then want
  else if l.rate < r.rateFloor then l.d
  else raiseDepth r.rateFloor (bitTotal l.inForce) l.d (want - l.d)

/-! ### Values kept for reporting (R79) -/

/-- R79: the average SNR of the 21 downstream groups. -/
def groupAverages (snr : List Nat) : List Nat :=
  (List.range 21).map (fun i => bitTotal (groupOf snr (i + 3)) / 16)

/-- R79: the usable band top. -/
def bandTop (r : ConfigRecord) (snr : List Nat) : Option Nat :=
  let need := Config.gap + r.targetMargin + Config.loadThreshold
  ((groupAverages snr).zipIdx.filter (fun p => decide (need ≤ p.1))).getLast?.map (fun p => p.2 + 3)

/-- R79, R161: the values of the link as they stand, in the form that is kept at a departure. -/
def State.showValues (s : State) : LastShowtime where
  averages := groupAverages s.lle.snr
  bandTop := bandTop s.cfl.record s.lle.snr
  margin := s.lle.margin
  table := s.lle.downInForce
  e := s.lle.e
  d := s.lle.d
  lock := s.lle.sync.lock.map (·.period)

end Sys2Proof.Machine
end

