-- ==== Sys2Proof/Machine/Link.lean ====
section
/-! DEFINITION. The line link (chapter 3): the states, failures and drops, the quiet-holder set, the overhead
request slot and the numbers it gives. -/

namespace Sys2Proof.Machine

open Sys2Proof

/-! ### What the supply and the survey tell the LLE -/

/-- The rail ceiling of a supply state (section 2.2). -/
def SupplyState.ceiling : SupplyState → RailLevel
  | .mains => .high
  | .battery => .mid
  | .batteryLow => .low

def State.ceiling (s : State) : RailLevel := s.sup.supply.ceiling

/-- R37: the rail is ready. -/
def Sup.railReady (p : Sup) : Bool := decide (p.railLevel = p.railTarget) && p.railStep.isNone

/-- The items that disturb the loop (section 8.1). -/
def Item.intrusive : Item → Bool
  | .resistance => true
  | .insulation => true
  | .capacitance => true
  | _ => false

/-- The LTH reports an intrusive item running (R165). -/
def State.intrusiveRunning (s : State) : Bool :=
  match s.lth.stage with
  | .item i => i.intrusive
  | _ => false

/-- HANDSHAKE, PROBE and LOAD make up training. -/
def LinkState.isTraining : LinkState → Bool
  | .handshake => true
  | .probe => true
  | .load => true
  | _ => false

/-- A frame of the part's own to the far end. -/
def State.sayFar (m : FarMessage) (s : State) : State := s.onLle fun l => { l with farOut := l.farOut ++ [m] }

/-! ### Leaving a state -/

/-- Every loading table empty, the NORMAL downstream table in force (R40, R42, R51; log entry 74). -/
def Lle.emptied (l : Lle) : Lle :=
  { l with normal := emptyDown, guard := emptyDown, upNormal := emptyUp, upGuard := emptyUp, upInForce := none,
           downInForce := .normal }

/-- R63: the port at a departure from SHOWTIME: not ready, its queue empty, and a downstream frame in delivery, if there
is one, marked aborted (a free value: no command tells what is in delivery, log entry 30). -/
def Plp.cutShort (p : Plp) : Plp where
  ready := false
  queue := []
  downstreamAborted := Config.inDelivery p.departures
  departures := p.departures + 1

/-- R50: what every drop does, in the order in which R50 lists it (log entry 99); the link is left in `next`, whose own
entry follows. FENCE_IMPULSE is made inactive before LINK_LOW_MARGIN (log entry 75). -/
def State.departShowtime (reason : DropReason) (next : LinkState) (s : State) : State :=
  let values := s.showValues
  let queued := s.plp.queue.length
  let s := s.onLle fun l => { l with lastShow := some values, lastDrop := reason }
  let s := s.signal .retrain
  let s := s.onLle fun l => { l with slot := none, switchWaiting := none, powerWaiting := none, shieldWaiting := none }
  let s := s.onPlp Plp.cutShort
  let s := Nat.repeat State.frameDropped queued s
  let s := s.onLle fun l => { l with link := next, sync := Showtime.start }
  let s := (s.makeInactive .fenceImpulse .line).makeInactive .linkLowMargin .line
  s.lineStatus

/-- The link leaves its state for DOWN, QUIET or a wait: the timers of that state stop, LOCKOUT ends its fault
(R47, R51), SHOWTIME drops. -/
def State.leaveLink (reason : DropReason) (next : LinkState) (s : State) : State :=
  match s.lle.link with
  | .showtime => s.departShowtime reason next
  | .lockout =>
    (s.onLle fun l => { l with link := next, lockoutTimer := none, attemptHeld := false }).makeInactive
      .linkRetrainLimit .line
  | _ =>
    s.onLle fun l =>
      { l with link := next, backoffTimer := none, handshakeTimer := none, probeTimer := none, loadTimer := none }

/-! ### Entries -/

/-- R42: entry to DOWN, from any state. -/
def State.enterDown (reason : DropReason) (s : State) : State :=
  (s.leaveLink reason .down).onLle fun l => { l.emptied with e := 0, d := s.cfl.record.dInit }

/-- R51: entry to QUIET, from any state. -/
def State.enterQuiet (s : State) : State := (s.leaveLink .forced .quiet).onLle Lle.emptied

/-- Entry to RETRAIN_WAIT with a backoff (R47, R50). -/
def State.enterRetrainWait (reason : DropReason) (ms : Nat) (s : State) : State :=
  (s.leaveLink reason .retrainWait).onLle fun l => { l with backoffTimer := some (s.now + ms) }

/-- R47: entry to LOCKOUT. -/
def State.enterLockout (s : State) : State :=
  ((s.leaveLink .none .lockout).onLle fun l => { l with lockoutTimer := some (s.now + Config.lockoutMs) }).raise
    .linkRetrainLimit .line

/-- A drop that goes to RETRAIN_WAIT (R50). -/
def State.drop (reason : DropReason) (s : State) : State := s.enterRetrainWait reason Config.dropBackoffMs

/-- R47: the backoff that a retry count sets, 0 where it sets LOCKOUT. -/
def backoffMs : Nat → Nat
  | 1 => 2000
  | 2 => 4000
  | 3 => 8000
  | 4 => 16000
  | _ => 30000

/-- R47: a training failure. -/
def State.trainingFailure (reason : FailureReason) (s : State) : State :=
  let count := min Config.retryMax (s.lle.retry + 1)
  let s := (s.onLle fun l => { l with lastFailure := reason, retry := count }).signal .trainingFailure
  if count = Config.retryMax then s.enterLockout else s.enterRetrainWait .none (backoffMs count)

/-! ### The quiet-holder set (R51, R52) -/

def HolderSet.has (h : HolderSet) : Holder → Bool
  | .management => h.management
  | .supply => h.supply
  | .voltage => h.voltage
  | .survey => h.survey

def HolderSet.put (h : HolderSet) (x : Holder) (b : Bool) : HolderSet :=
  match x with
  | .management => { h with management := b }
  | .supply => { h with supply := b }
  | .voltage => { h with voltage := b }
  | .survey => { h with survey := b }

def HolderSet.isEmpty (h : HolderSet) : Bool := !(h.management || h.supply || h.voltage || h.survey)

/-- R51: a holder is added. -/
def State.addHolder (x : Holder) (s : State) : State :=
  if s.lle.holders.has x then s
  else
    let s := s.onLle fun l => { l with holders := l.holders.put x true }
    if s.lle.link = .quiet then s else s.enterQuiet

/-- R52: a holder is removed. -/
def State.removeHolder (x : Holder) (s : State) : State :=
  if s.lle.holders.has x then
    let s := s.onLle fun l => { l with holders := l.holders.put x false }
    if s.lle.holders.isEmpty && decide (s.lle.link = .quiet) then s.enterDown .none else s
  else s

/-! ### Training -/

/-- R42: what must hold for HANDSHAKE to begin. -/
def State.mayTrain (s : State) : Bool :=
  decide (s.lle.link = .down) && decide (s.cfl.state = .ready) && s.sup.railReady && !s.intrusiveRunning

/-- R45: the values of a far-end table break the rule: bits above bmax, exactly 1 bit, or bits outside 8..47. -/
def badFarTable (bmax : Nat) (t : List Nat) : Bool :=
  t.zipIdx.any (fun p =>
    decide (bmax < p.1) || decide (p.1 = 1) || (decide (p.1 ≠ 0) && (decide (p.2 < 8) || decide (47 < p.2))))

/-- An upstream table kept over tones 0..47. -/
def keepUp (t : List Nat) : List Nat := (t ++ emptyUp).take Config.upTones

/-- R46, R80: entry to SHOWTIME. The guard comparator judges the detectors, and the requests of the entry are
made, when the event settles. -/
def State.enterShowtime (s : State) : State :=
  let depth := min s.cfl.record.dInit s.cfl.record.dMax
  let s := s.onLle fun l =>
    { l with
      link := .showtime
      retry := 0
      loadTimer := none
      e := l.loadE
      d := depth
      downInForce := .normal
      upInForce := some .normal
      restoreRefused := false
      lastFar := none
      sync :=
        { Showtime.start with
          began := s.now
          refreshTimer := some (s.now + Config.refreshMs)
          secondTimer := some (s.now + Config.secondMs) } }
  let s := s.makeInactive .linkRetrainLimit .line
  let s := s.onPlp fun p => { p with ready := decide (p.queue.length < Config.payloadCapacity), downstreamAborted := false }
  s.lineStatus

/-! ### The overhead request slot (R56, R57) -/

/-- R57: the number after a request number. -/
def nextRequestNumber (n : Nat) : Nat := if n < 15 then n + 1 else 1

/-- The whole GUARD table, which a SWITCH to GUARD carries (R94). -/
def OverheadRequest.carried (l : Lle) : OverheadRequest → List Nat
  | .switch .guard => l.guard
  | _ => []

/-- R57: a request is sent into the free slot. -/
def State.sendRequest (r : OverheadRequest) (s : State) : State :=
  s.onLle fun l =>
    { l with
      slot := some { request := r, number := l.nextNumber, attempt := 1, deadline := s.now + Config.overheadMs }
      nextNumber := nextRequestNumber l.nextNumber
      farOut := l.farOut ++ [.request l.nextNumber r (r.carried l)] }

/-- R56: the free slot takes the waiting request of the highest priority. -/
def State.pumpOverhead (s : State) : State :=
  if s.lle.link = .showtime ∧ s.lle.slot.isNone then
    match s.lle.switchWaiting with
    | some t => (s.onLle fun l => { l with switchWaiting := none }).sendRequest (.switch t)
    | none =>
      match s.lle.powerWaiting with
      | some p => (s.onLle fun l => { l with powerWaiting := none }).sendRequest (.power p)
      | none =>
        match s.lle.shieldWaiting with
        | some d => (s.onLle fun l => { l with shieldWaiting := none }).sendRequest (.shield d)
        | none =>
          match s.lle.sync.swapQueue with
          | e :: _ => s.sendRequest (.swap e.group e.bits)
          | [] => s
  else s

/-- The request outstanding in the slot. -/
def Lle.outstanding (l : Lle) : Option OverheadRequest := l.slot.map (·.request)

def Lle.switchOutstanding (l : Lle) : Bool := match l.outstanding with | some (.switch _) => true | _ => false
def Lle.shieldOutstanding (l : Lle) : Bool := match l.outstanding with | some (.shield _) => true | _ => false
def Lle.swapOutstanding (l : Lle) : Bool := match l.outstanding with | some (.swap _ _) => true | _ => false
def Lle.restoreOutstanding (l : Lle) : Bool := decide (l.outstanding = some (.power .restore))

/-! ### The far end's requests (R59) -/

/-- R59: the 16 values of a far-end SWAP are acceptable for the group. -/
def farSwapOk (bmax group : Nat) (bits : List Nat) : Bool :=
  decide (group ≤ 2) && decide (bits.length = 16) && bits.all (fun b => decide (b ≤ bmax) && decide (b ≠ 1)) &&
    (decide (group ≠ 0) || (bits.take 8).all (fun b => decide (b = 0)))

/-- The 16 values of an upstream group replaced. -/
def setUpGroup (l : List Nat) (g : Nat) (v : List Nat) : List Nat := l.take (16 * g) ++ v ++ l.drop (16 * g + 16)

/-- An answer to the far end, remembered against a resend. -/
def State.answerFar (number : Nat) (a : FarAnswer) (s : State) : State :=
  (s.sayFar (.answer number a)).onLle fun l => { l with lastFar := some (number, a) }

/-- R59: a far-end request in SHOWTIME: a resend gets the same answer, another one is taken. -/
def State.takeFar (number : Nat) (f : State → State) (s : State) : State :=
  if s.lle.link = .showtime then
    match s.lle.lastFar with
    | some (n, a) => if n = number then s.sayFar (.answer n a) else f s
    | none => f s
  else s

end Sys2Proof.Machine
end

