-- ==== Sys2Proof/Machine/Sync.lean ====
section
/-! DEFINITION. Keeping sync (chapter 5): the refresh walker, the swap queue, the guard comparator, the impulse
monitor, the error seconds, the margin watch, and the outcomes of the overhead requests. -/

namespace Sys2Proof.Machine

open Sys2Proof

/-! ### The margin watch (R104) -/

/-- R104: a reported margin below M_min; "none" is not below it. -/
def State.marginLow (s : State) : Bool :=
  match s.lle.margin with
  | some m => decide (m < s.cfl.record.minMargin)
  | none => false

/-- R104: the watch takes a new value of the reported margin. -/
def State.watchMargin (s : State) : State :=
  s.onSync fun y =>
    match y.marginWatch, s.marginLow with
    | .ok, true => { y with marginWatch := .falling, marginTimer := some (s.now + Config.marginWatchMs) }
    | .falling, false => { y with marginWatch := .ok, marginTimer := none }
    | .low, false => { y with marginWatch := .rising, marginTimer := some (s.now + Config.marginWatchMs) }
    | .rising, true => { y with marginWatch := .low, marginTimer := none }
    | _, _ => y

/-! ### The swap queue (R88, R89) -/

/-- An URGENT entry goes after the last URGENT entry (R88); `rest` is the queue behind an outstanding head. -/
def placeUrgent (e : SwapEntry) (rest : List SwapEntry) : List SwapEntry :=
  rest.takeWhile (fun x => decide (x.reason = .urgent)) ++ e :: rest.dropWhile (fun x => decide (x.reason = .urgent))

/-- R88, R89: a decision that carries a reason acts on the queue behind an outstanding head. -/
def decideSwap (e : SwapEntry) (rest : List SwapEntry) : List SwapEntry :=
  match rest.find? (fun x => x.group == e.group) with
  | none => match e.reason with | .urgent => placeUrgent e rest | .upshift => rest ++ [e]
  | some old =>
    let others := rest.filter (fun x => x.group != e.group)
    if old.reason = e.reason then rest.map (fun x => if x.group = e.group then e else x)
    else match e.reason with | .urgent => placeUrgent e others | .upshift => others ++ [e]

/-- R84: an entry has left the queue, and refreshes are held off no more. -/
def Showtime.unblock (y : Showtime) : Showtime := { y with queueBlocked := false }

/-- The outstanding entry leaves the head of the queue (R91). -/
def Showtime.dropHead (y : Showtime) : Showtime := { y with swapQueue := y.swapQueue.drop 1, queueBlocked := false }

/-! ### The refresh walker (R81 to R87) -/

/-- R81: a refresh is allowed. -/
def Lle.refreshAllowed (l : Lle) : Bool :=
  (match l.outstanding with | some (.swap g _) => decide (g ≠ l.sync.pointer) | _ => true) &&
    decide (l.sync.guard = .clear) && !l.switchOutstanding && !l.sync.queueBlocked

/-- R86: the proposed bits of one tone. -/
def proposeBits (settled : Bool) (computed inForce : Nat) : Nat :=
  if settled then computed
  else if computed ≤ inForce then computed
  else if 2 ≤ inForce then inForce + 1
  else 2

/-- R87: the decision, none for NO SWAP. -/
def swapReason (minMargin : Nat) (snr inForce proposed : List Nat) : Option SwapReason :=
  if (List.zipWith toneMargin snr inForce).any (fun m => match m with | some x => decide (x < minMargin) | none => false)
    then some .urgent
  else if bitTotal inForce + 2 ≤ bitTotal proposed then some .upshift
  else none

/-- R81, R84: a visit that was not made raises the debt, or is counted at debt 8. -/
def State.defer (s : State) : State :=
  if s.lle.sync.debt < Config.debtMax then s.onSync fun y => { y with debt := y.debt + 1 }
  else s.signal .refreshDeferred

/-- R83, step 5. -/
def nextGroup (g : Nat) : Nat := if g < 23 then g + 1 else 3

/-- R83, steps 1 and 2: the group's values smoothed and its GUARD bits stored. -/
def State.measureGroup (g : Nat) (m : List Int) (s : State) : State :=
  let snr := List.zipWith smooth (groupOf s.lle.snr g) m
  s.onLle fun l =>
    { l with
      snr := setGroup l.snr g snr
      guard := setGroup l.guard g (tableBits .guard s.cfl.record l.e s.leakage snr) }

/-- R83, step 3: the proposed bits of the group, after `measureGroup`. -/
def State.proposed (g : Nat) (s : State) : List Nat :=
  List.zipWith (proposeBits s.lle.sync.settled)
    (tableBits .normal s.cfl.record s.lle.e s.leakage (groupOf s.lle.snr g)) (groupOf s.lle.normal g)

/-- R83, step 4: the decision is applied; false when the queue was full (R84). -/
def State.applySwap (g : Nat) (s : State) : State × Bool :=
  let bits := s.proposed g
  let head := if s.lle.swapOutstanding then s.lle.sync.swapQueue.take 1 else []
  let rest := if s.lle.swapOutstanding then s.lle.sync.swapQueue.drop 1 else s.lle.sync.swapQueue
  let held := rest.any (fun x => x.group == g)
  match swapReason s.cfl.record.minMargin (groupOf s.lle.snr g) (groupOf s.lle.normal g) bits with
  | none =>
    if held then
      (s.onSync fun y => { y with swapQueue := head ++ rest.filter (fun x => x.group != g), queueBlocked := false }, true)
    else (s, true)
  | some r =>
    if !held && decide (Config.swapCapacity ≤ s.lle.sync.swapQueue.length) then (s, false)
    else
      (s.onSync fun y =>
        { y with swapQueue := head ++ decideSwap { group := g, bits := bits, reason := r } rest }, true)

/-- R83, steps 5 and 6, with the phase of R85. -/
def Showtime.advance (g : Nat) (y : Showtime) : Showtime :=
  let counts := y.refreshes.zipIdx.map (fun p => if p.2 + 3 = g then min 2 (p.1 + 1) else p.1)
  { y with pointer := nextGroup g, refreshes := counts, settled := y.settled || counts.all (fun n => decide (2 ≤ n)) }

/-- R83, R84: the refresh of the group at the pointer. A full queue ends it at step 4; the margin watch takes the
margin the smoothed values give in either case. `regular` tells the refresh of R81 from one of R82. -/
def State.refresh (regular : Bool) (m : List Int) (s : State) : State :=
  let g := s.lle.sync.pointer
  let r := (s.measureGroup g m).applySwap g
  let s :=
    if r.2 then
      let s := r.1.onSync (Showtime.advance g)
      if regular then s else s.onSync fun y => { y with debt := y.debt - 1 }
    else
      let s := r.1.onSync fun y => { y with queueBlocked := true }
      if regular then s.defer else s
  s.watchMargin

/-- R82: the catch-up timer runs exactly while the debt is above 0 and a refresh is allowed. -/
def State.catchUp (s : State) : State :=
  if s.lle.link = .showtime ∧ 0 < s.lle.sync.debt ∧ s.lle.refreshAllowed then
    if s.lle.sync.catchUpTimer.isSome then s
    else s.onSync fun y => { y with catchUpTimer := some (s.now + Config.catchUpMs) }
  else if s.lle.sync.catchUpTimer.isSome then s.onSync fun y => { y with catchUpTimer := none }
  else s

/-! ### The guard (R92 to R95) -/

/-- R92: a selected detector is set. RING_IN and PARALLEL are set exactly in the line states of those names. -/
def State.disturbed (s : State) : Bool :=
  let ring := decide (s.vsw.line = .ringIn)
  let parallel := decide (s.vsw.line = .parallel)
  match s.cfl.record.guardSelection with
  | .ringIn => ring
  | .parallel => parallel
  | .both => ring || parallel

/-- R94: the table in force is kept in line with the table the guard wants. -/
def State.alignTable (s : State) : State :=
  let wanted : TableName := if s.lle.sync.guard = .clear then .normal else .guard
  if s.lle.downInForce = wanted then s.onLle fun l => { l with switchWaiting := none }
  else
    let held := match wanted with
      | .guard => s.lle.sync.switchRefused
      | .normal => s.lle.sync.switchRetryTimer.isSome
    if s.lle.switchOutstanding || held then s else s.onLle fun l => { l with switchWaiting := some wanted }

/-- R92, R93: the comparator judges the detectors as they stand. -/
def State.judgeGuard (s : State) : State :=
  match s.lle.sync.guard, s.disturbed with
  | .clear, true =>
    (((s.onSync fun y => { y with guard := .active, switchRefused := false }).signal .guardEntry)).alignTable
  | .active, false =>
    (s.onSync fun y => { y with guard := .exiting, guardTimer := some (s.now + Config.guardMs) }).alignTable
  | .exiting, true => (s.onSync fun y => { y with guard := .active, guardTimer := none }).alignTable
  | _, _ => s

/-! ### The impulse monitor (R96 to R100) -/

/-- R96: Lmax, over the last four events. -/
def largestImpulse (l : List Impulse) : Nat := (l.drop (l.length - 4)).foldl (fun m i => max m i.length) 0

/-- R96: an event joins the list of the last 8. -/
def listImpulse (i : Impulse) (l : List Impulse) : List Impulse :=
  (l ++ [i]).drop (l.length + 1 - Config.impulseCapacity)

/-- The intervals between the starts of successive events. -/
def intervals : List Impulse → List Nat
  | a :: b :: more => (b.start - a.start) :: intervals (b :: more)
  | _ => []

/-- R97: the period, when the last 5 events pass the lock test. -/
def lockPeriod (l : List Impulse) : Option Nat :=
  if l.length < 5 then none
  else
    let gaps := intervals (l.drop (l.length - 5))
    if gaps.all (fun g => decide (1000 ≤ g) && decide (g ≤ 12000)) &&
        decide (gaps.foldl max 0 ≤ gaps.foldl min 12000 + 16) then some (bitTotal gaps / 4)
    else none

/-- R98: a prediction with its window. -/
def predictAt (period start misses : Nat) (l : List Impulse) : FenceLock where
  period := period
  predicted := start
  windowEnd := start + largestImpulse l + 2
  misses := misses

/-- R99: the needed depth. -/
def depthNeeded (y : Showtime) : Nat :=
  if y.lock.isSome then (largestImpulse y.impulses + 1) / 2 else largestImpulse y.impulses

/-- R99, R100: the needed depth is recomputed, turned into a SHIELD request, and judged against D_max. -/
def State.recomputeDepth (s : State) : State :=
  let need := depthNeeded s.lle.sync
  let s := s.onSync fun y => { y with neededDepth := need }
  let want := requestedDepth s.cfl.record s.lle need
  let s :=
    if s.lle.shieldOutstanding then s
    else if want = s.lle.d then s.onLle fun l => { l with shieldWaiting := none }
    else if s.lle.sync.shieldRefused then s
    else s.onLle fun l => { l with shieldWaiting := some want }
  let holds := s.lle.sync.lock.isSome && decide (s.cfl.record.dMax < need)
  if holds = s.lle.sync.fenceHeld then s
  else
    let s := s.onSync fun y => { y with fenceHeld := holds }
    if holds then s.raise .fenceImpulse .line else s.makeInactive .fenceImpulse .line

/-- R97, R98: an event under the lock rules. -/
def State.lockRules (i : Impulse) (s : State) : State :=
  let y := s.lle.sync
  match y.lock with
  | none =>
    match lockPeriod y.impulses with
    | none => s
    | some p => s.onSync fun y => { y with lock := some (predictAt p (i.start + p) 0 y.impulses) }
  | some k =>
    if k.predicted - 2 ≤ i.start ∧ i.start ≤ k.windowEnd then
      (s.signal .predictedImpulseHit).onSync fun y =>
        { y with lock := some (predictAt k.period (i.start + k.period) 0 y.impulses) }
    else s

/-- R98: a prediction passes with no event in its window. -/
def State.missPrediction (k : FenceLock) (s : State) : State :=
  if k.misses + 1 < 3 then
    s.onSync fun y => { y with lock := some (predictAt k.period (k.predicted + k.period) (k.misses + 1) y.impulses) }
  else (s.onSync fun y => { y with lock := none, shieldRefused := false }).recomputeDepth

/-! ### The outcomes of an overhead request -/

/-- R57, R91: AGREE to a SWAP. -/
def State.swapAgreed (g : Nat) (bits : List Nat) (s : State) : State :=
  let s := s.onLle fun l => { l with normal := setGroup l.normal g bits }
  let s := s.signal .swapDone
  (s.onSync fun y => { y.dropHead with swapAbandons := 0 }).watchMargin

/-- R91: a SWAP abandoned. -/
def State.swapAbandoned (s : State) : State :=
  let s := s.signal .swapAbandoned
  let s := s.onSync fun y => { y.dropHead with swapAbandons := y.swapAbandons + 1 }
  if s.lle.sync.swapAbandons ≥ 3 then s.drop .swapFailures else s

/-- R57: an AGREE puts the change in force and is handed to its requester (R61, R62, R78, R91, R95, R99). -/
def State.agreed (r : OverheadRequest) (s : State) : State :=
  match r with
  | .switch t => ((s.onLle fun l => { l with downInForce := t }).alignTable).watchMargin
  | .power p => s.onLle fun l => { l with power := match p with | .cutback => .cutback | .restore => .full }
  | .shield d => (s.onLle fun l => { l with d := d }).recomputeDepth
  | .swap g bits => s.swapAgreed g bits

/-- A DECLINE or an abandon of a request other than SWAP (R61, R62, R95, R99). -/
def State.turnedDown (r : OverheadRequest) (s : State) : State :=
  match r with
  | .switch .guard => (s.onSync fun y => { y with switchRefused := true }).alignTable
  | .switch .normal =>
    (s.onSync fun y => { y with switchRetryTimer := some (s.now + Config.guardMs) }).alignTable
  | .power .cutback => if s.ceiling = .high then s else s.drop .power
  | .power .restore => s.onLle fun l => { l with restoreRefused := true }
  | .shield _ => s.onSync fun y => { y with shieldRefused := true }
  | .swap _ _ => s

/-- R57, R91: a DECLINE. -/
def State.declined (r : OverheadRequest) (s : State) : State :=
  match r with
  | .swap _ _ => s.onSync fun y => { y.dropHead with swapAbandons := 0 }
  | _ => s.turnedDown r

/-- R57, R91: an abandon after the second expiry. -/
def State.abandoned (r : OverheadRequest) (s : State) : State :=
  match r with
  | .swap _ _ => s.swapAbandoned
  | _ => s.turnedDown r

/-- R57: the slot becomes free, and the outcome is handed over. -/
def State.endRequest (outcome : OverheadRequest → State → State) (o : Outstanding) (s : State) : State :=
  outcome o.request (s.onLle fun l => { l with slot := none })

/-- R57: an answer of the far end is taken when its number is that of the outstanding request. -/
def State.takeAnswer (number : Nat) (outcome : OverheadRequest → State → State) (s : State) : State :=
  match s.lle.slot with
  | none => s
  | some o => if o.number = number then s.endRequest outcome o else s

/-! ### Power requests (R61, R62) -/

/-- R61, R62: power control keeps its waiting request in line with the ceiling and the power in force. While a
power request is outstanding it makes no second one, whatever the ceiling does (log entry 62). -/
def State.controlPower (s : State) : State :=
  if s.lle.link = .showtime then
    let s :=
      match s.lle.powerWaiting, s.ceiling with
      | some .cutback, .high => s.onLle fun l => { l with powerWaiting := none }
      | some .restore, .mid => s.onLle fun l => { l with powerWaiting := none }
      | _, _ => s
    let busy := s.lle.powerWaiting.isSome ||
      (match s.lle.outstanding with | some (.power _) => true | _ => false)
    if busy then s
    else if s.lle.power = .full ∧ s.ceiling = .mid then s.onLle fun l => { l with powerWaiting := some .cutback }
    else if s.lle.power = .cutback ∧ s.ceiling = .high ∧ s.sup.railLevel = .high ∧ s.sup.railReady ∧
        !s.lle.restoreRefused then
      s.onLle fun l => { l with powerWaiting := some .restore }
    else s
  else s

/-! ### Seconds of showtime (R101, R102) -/

/-- R101: a codeword event of the decoder, in SHOWTIME. -/
def State.codeword (e : Event) (f : Showtime → Showtime) (s : State) : State :=
  if s.lle.link = .showtime then (s.signal e).onSync f else s

/-- R101, R102: a second ends and is judged; the next one begins with the signal as it stands. SECOND_IN_SHOWTIME is
signalled before ERRORED_SECOND, and that before SEVERE_SECOND (log entry 109), and all of them before the link drops
(log entry 105). -/
def State.endSecond (s : State) : State :=
  let y := s.lle.sync
  let errored := decide (1 ≤ y.uncorrected) || y.absentThisSecond
  let severe := decide (50 ≤ y.uncorrected) || y.absentThisSecond
  let s := s.signal .secondInShowtime
  let s := if errored then s.signal .erroredSecond else s
  let s := if severe then s.signal .severeSecond else s
  let s := s.onSync fun y =>
    { y with
      corrected := 0, uncorrected := 0, absentThisSecond := y.signalAbsent
      severeRun := if severe then y.severeRun + 1 else 0 }
  if s.lle.sync.severeRun ≥ 10 then s.drop .severeErrors else s

end Sys2Proof.Machine
end

