-- ==== Sys2Proof/Machine/Voice.lean ====
section
/-! DEFINITION. The Voice Switch (chapter 6): what a change of the outside line, of a port and of the repeat queue
does at the switch itself, the ring converter (R38, R39), and the ring plan (R126). -/

namespace Sys2Proof.Machine

open Sys2Proof

/-! ### The outside line (R119, R120, R122) -/

/-- The bands of R120. -/
inductive Band where
  | onHook
  | between
  | offHook
  | noFeed
  deriving DecidableEq, Repr

/-- R120: the band of a voltage in mV. -/
def bandOf (mv : Nat) : Band :=
  if 40000 ≤ mv then .onHook else if 15000 < mv then .between else if 3000 ≤ mv then .offHook else .noFeed

/-- The sensing of the line runs from READY (R119). -/
def State.sensing (s : State) : Bool := decide (s.cfl.state = .ready)

/-- A timer that runs while a condition holds: it keeps its deadline while the condition goes on. -/
def holdTimer (holds : Bool) (now ms : Nat) (t : Timer) : Timer :=
  if holds then (if t.isSome then t else some (now + ms)) else none

/-- R120, R121: the band timers and the feed timer as the state of the line and its voltage have them. -/
def State.senseVoltage (s : State) : State :=
  let on := s.sensing
  let line := s.vsw.line
  let band := bandOf s.pins.lineMillivolt
  let judged := decide (line = .idle) || decide (line = .ringIn) || decide (line = .parallel)
  s.onVsw fun v =>
    { v with
      offHookBandTimer :=
        holdTimer (on && (decide (line = .idle) || decide (line = .ringIn)) && decide (band = .offHook)) s.now Config.bandMs
          v.offHookBandTimer
      onHookBandTimer :=
        holdTimer (on && decide (line = .parallel) && decide (band = .onHook)) s.now Config.bandMs v.onHookBandTimer
      noFeedTimer := holdTimer (on && judged && decide (band = .noFeed)) s.now Config.noFeedMs v.noFeedTimer
      feedTimer := holdTimer (on && decide (line = .out) && decide (band ≠ .noFeed)) s.now Config.feedMs v.feedTimer }

/-- R122, R124: the timers of ringing voltage: 150 ms toward a burst in IDLE, RING_IN and TEST, 100 ms toward its
end. -/
def State.senseRinging (s : State) : State :=
  let line := s.vsw.line
  let judged := decide (line = .idle) || decide (line = .ringIn) || decide (line = .test)
  let ringing := s.pins.ringing
  s.onVsw fun v =>
    { v with
      burstOnTimer := holdTimer (s.sensing && judged && ringing && !v.inBurst) s.now Config.burstOnMs v.burstOnTimer
      burstOffTimer := holdTimer (v.inBurst && !ringing) s.now Config.burstOffMs v.burstOffTimer }

/-- Every sensing timer at zero. -/
def Vsw.unsensed (v : Vsw) : Vsw :=
  { v with offHookBandTimer := none, onHookBandTimer := none, noFeedTimer := none, feedTimer := none,
           burstOnTimer := none, burstOffTimer := none }

/-- R169: the hold-off timer runs while the line is IDLE or OUT, afresh from each entry. -/
def State.timeHoldOff (s : State) : State :=
  s.onLth fun l =>
    { l with holdOffTimer :=
        if l.holdOff && (decide (s.vsw.line = .idle) || decide (s.vsw.line = .out)) then some (s.now + Config.holdOffMs)
        else none }

/-- R119: the line enters another state: sensing follows it, the repeat queue empties when it leaves SEIZED, the
ring-end timer and the burst end with RING_IN, and LINE_STATUS is sent (R19). Sensing goes on without a break from
IDLE to RING_IN and from these to PARALLEL, and begins afresh in every other entry. -/
def State.setLine (x : LineState) (s : State) : State :=
  if s.vsw.line = x then s
  else
    let kept := decide (x = .ringIn) || decide (x = .parallel)
    let s := s.onVsw fun v =>
      let v := if kept then { v with burstOnTimer := none } else v.unsensed
      { v with
        line := x
        repeatQueue := []
        outpulse := none
        inBurst := false
        burstOffTimer := none
        ringEndTimer := none
        releaseTimer := if x = .releasing then some (s.now + Config.releaseGuardMs) else none }
    (((s.senseVoltage).senseRinging).timeHoldOff).lineStatus

/-- R121, R124: where the line goes when it may go on the hook again. -/
def State.restingLine (s : State) : LineState :=
  if s.faultActive .foreignVoltageHigh .line || s.faultActive .loopOpen .line then .out else .idle

/-! ### The ports (R105, R113 to R116) -/

def Port.endpoint (p : Port) : Endpoint := .port p

/-- The ports are powered from READY, and an OUT_OF_SERVICE port is not (R105, R106). -/
def State.fed (p : Port) (s : State) : Bool :=
  decide (s.cfl.state = .ready) && decide ((s.port p).state ≠ .outOfService)

/-- R32, R106: the loop current of a fed port in a supply state, in mA. -/
def SupplyState.feedMilliamp : SupplyState → Nat
  | .mains => 25
  | .battery => 20
  | .batteryLow => 20

/-- R106: the constant loop current a port is given, in mA: that of the supply state in force, 0 for a port that is not
fed. -/
def State.feedMilliamp (p : Port) (s : State) : Nat := if s.fed p then s.sup.supply.feedMilliamp else 0

/-- The collector of a port emptied and its window closed. -/
def PortRec.closed (r : PortRec) : PortRec :=
  { r with pulses := 0, digits := [], window := .closed, pauseTimer := none, firstDigitTimer := none,
           interDigitTimer := none, postFlashTimer := none }

/-- Into DIALTONE with the window closed and a tone; the off-hook timer runs on. -/
def PortRec.toDialtone (tone : Tone) (r : PortRec) : PortRec :=
  { r.closed with state := .dialtone, tone := tone, awaiting := false }

/-- R113: a refusal. -/
def State.portRefused (p : Port) (reason : RefuseReason) (s : State) : State :=
  s.onPort p fun r => r.toDialtone (if reason = .lineOut then .error else .busy)

/-- R113: the port is a party; the off-hook timer stops. A pulse digit in progress is lost (log entry 92). -/
def State.portConnected (p : Port) (tone : Tone) (s : State) : State :=
  s.onPort p fun r => { r.closed with state := .connected, tone := tone, awaiting := false, offHookTimer := none }

/-- The other port. -/
def otherPort : Port → Port
  | .a => .b
  | .b => .a

/-- R110: an off-hook of the port would be an answer of the incoming call: it rings, or it is ON_HOOK with the line in
RING_IN, be it in the ring plan or not. -/
def State.mayAnswer (p : Port) (s : State) : Bool :=
  decide ((s.port p).state = .ringing) || (decide ((s.port p).state = .onHook) && decide (s.vsw.line = .ringIn))

/-- R141: a port has answered a call: the other port, if its off-hook would be an answer too, may still answer at this
instant (log entry 59). -/
def State.markCoAnswer (p : Port) (id : Nat) (s : State) : State :=
  s.onVsw fun v =>
    { v with coAnswer :=
        if s.mayAnswer (otherPort p) then some { port := otherPort p, callId := id, instant := s.now } else none }

/-- R123: the digits of a port that stops being a party leave the queue; a digit being outpulsed is completed. -/
def Vsw.dropDigits (p : Port) (v : Vsw) : Vsw :=
  let busy : Bool := match v.outpulse with
    | some o => !(decide (o.phase = .pause) || (decide (o.phase = .make) && o.pulsesLeft == 0))
    | none => false
  let keep := fun (d : RepeatDigit) => decide (d.port ≠ p)
  { v with repeatQueue :=
      if busy = true then v.repeatQueue.take 1 ++ (v.repeatQueue.drop 1).filter keep else v.repeatQueue.filter keep }

/-- R113: the port stops being a party while it is off-hook. -/
def State.portReleased (p : Port) (s : State) : State :=
  let s := s.onVsw (Vsw.dropDigits p)
  if (s.port p).state = .connected then
    s.onPort p fun r => { r.toDialtone .busy with offHookTimer := some (s.now + Config.offHookMs) }
  else s

/-- R114: the outside call of the port has been placed HELD. -/
def State.portHeld (p : Port) (s : State) : State :=
  s.onPort p fun r =>
    { r.toDialtone .dial with
      postFlash := true
      window := .postFlash
      postFlashTimer := some (s.now + Config.digitWindowMs)
      offHookTimer := some (s.now + Config.offHookMs) }

/-- Entry to ON_HOOK: every timer stops, and the no-load timer starts (R115, R117). -/
def PortRec.onHookAt (now : Nat) : PortRec :=
  { PortRec.reset with state := .onHook, noLoadTimer := some (now + Config.noLoadMs) }

/-- R118: the low-current timer runs while the port is off-hook with its current below 18 mA and the entry not
ACTIVE, be it that the table has lost it (log entry 93). -/
def State.watchCurrent (p : Port) (s : State) : State :=
  let current := match p with | .a => s.pins.currentA | .b => s.pins.currentB
  let low := (s.port p).offHook && s.fed p && decide (current < 18) && !s.faultActive .portLowCurrent (.port p)
  s.onPort p fun r => { r with lowCurrentTimer := holdTimer low s.now Config.lowCurrentMs r.lowCurrentTimer }

/-! ### The repeat queue (R123) -/

/-- R123: the pulses of a digit. -/
def pulsesOf (digit : Nat) : Nat := if digit = 0 then 10 else digit

/-- R123: the head digit begins when nothing is being outpulsed. -/
def Vsw.beginOutpulse (now : Nat) (v : Vsw) : Vsw :=
  match v.outpulse, v.repeatQueue with
  | none, d :: _ =>
    { v with outpulse := some { pulsesLeft := pulsesOf d.digit - 1, phase := .opened, ends := now + Config.pulseBreakMs } }
  | _, _ => v

/-- R123: a digit completed by a port joins the queue; one that finds it full is discarded. -/
def State.repeatDigit (p : Port) (d : Nat) (s : State) : State :=
  if s.vsw.repeatQueue.length < Config.repeatCapacity then
    s.onVsw fun v => Vsw.beginOutpulse s.now { v with repeatQueue := v.repeatQueue ++ [{ port := p, digit := d }] }
  else s

/-- R123: the phase of the outpulsing ends. A digit leaves the queue when its last make begins. -/
def Vsw.advanceOutpulse (o : Outpulse) (v : Vsw) : Vsw :=
  match o.phase with
  | .opened =>
    { v with
      outpulse := some { o with phase := .make, ends := o.ends + Config.pulseMakeMs }
      repeatQueue := if o.pulsesLeft = 0 then v.repeatQueue.drop 1 else v.repeatQueue }
  | .make =>
    if o.pulsesLeft = 0 then { v with outpulse := some { o with phase := .pause, ends := o.ends + Config.interDigitMakeMs } }
    else
      let next : Outpulse := { pulsesLeft := o.pulsesLeft - 1, phase := .opened, ends := o.ends + Config.pulseBreakMs }
      { v with outpulse := some next }
  | .pause => Vsw.beginOutpulse o.ends { v with outpulse := none }

/-- R123: a hold cuts the outpulsing short with the loop closed; the make before the next digit is kept
(log entry 38). -/
def Outpulse.cut (now : Nat) (o : Outpulse) : Outpulse :=
  match o.phase with
  | .opened => { pulsesLeft := 0, phase := .pause, ends := now + Config.pulseMakeMs + Config.interDigitMakeMs }
  | .make => { pulsesLeft := 0, phase := .pause, ends := o.ends + Config.interDigitMakeMs }
  | .pause => o

/-! ### The ring converter (R38, R39) -/

/-- The ring capacity of a supply state (section 2.2). -/
def SupplyState.ringCapacity : SupplyState → Nat
  | .mains => 5
  | .battery => 3
  | .batteryLow => 2

def unitsOf (l : List Load) : Nat := l.foldl (fun n x => n + x.units) 0

/-- R38: the loads a supply state lets the converter drive. -/
def drivable (x : SupplyState) (l : List Load) : List Load :=
  match x with
  | .batteryLow => l.filter (fun d => decide (d.who = .port .a))
  | _ => l

/-- R39: loads are shed from the end of the list until the rest fits: the longest first part that fits stays. -/
def shedTo : Nat → List Load → List Load
  | _, [] => []
  | capacity, d :: l => if d.units ≤ capacity then d :: shedTo (capacity - d.units) l else []

end Sys2Proof.Machine
end

