-- ==== Sys2Proof/Machine/Survey.lean ====
section
/-! DEFINITION. The Loop Test Head (chapter 8): the loop record, the running request with its phases, aborts, the
end of a request with its answers, and the faults that measurements find. -/

namespace Sys2Proof.Machine

open Sys2Proof

/-! ### Items and the loop record (R157, R158, R162) -/

/-- R157: the duration of an item; LINK_PROFILE takes no time. -/
def Item.durationMs : Item → Nat
  | .linkProfile => 0
  | .foreignVoltage => 1000
  | .lineVoltage => 1000
  | .resistance => 2000
  | .insulation => 4000
  | .capacitance => 2000

/-- An item of the voltage phase. -/
def Item.isVoltage : Item → Bool
  | .foreignVoltage => true
  | .lineVoltage => true
  | _ => false

def Lth.entry (l : Lth) : Item → RecordEntry
  | .linkProfile => l.linkProfile
  | .foreignVoltage => l.foreignVoltage
  | .lineVoltage => l.lineVoltage
  | .resistance => l.resistance
  | .insulation => l.insulation
  | .capacitance => l.capacitance

def Lth.setEntry (l : Lth) (i : Item) (e : RecordEntry) : Lth :=
  match i with
  | .linkProfile => { l with linkProfile := e }
  | .foreignVoltage => { l with foreignVoltage := e }
  | .lineVoltage => { l with lineVoltage := e }
  | .resistance => { l with resistance := e }
  | .insulation => { l with insulation := e }
  | .capacitance => { l with capacitance := e }

/-- R162: an item writes its entry at the event that ends it. -/
def State.writeEntry (i : Item) (status : ItemStatus) (results : Option ItemResult) (s : State) : State :=
  s.onLth fun l => l.setEntry i { status := status, results := results, stamp := s.uptime }

/-- R159, R160: what an item reads at its completion, and its status. -/
def measure (i : Item) (r : LoopReadings) : ItemStatus × Option ItemResult :=
  match i with
  | .linkProfile => (.valid, none)
  | .foreignVoltage =>
    (.valid, some (.foreignVoltage (min 250 r.acTip) (min 250 r.dcTip) (min 250 r.acRing) (min 250 r.dcRing)))
  | .lineVoltage => (.valid, some (.lineVoltage (min 100 r.feed)))
  | .resistance =>
    if r.loopOhm ≤ 4000 then (.valid, some (.resistance (.value r.loopOhm)))
    else if r.loopOhm ≤ 20000 then (.outOfRange, some (.resistance .above4000))
    else (.outOfRange, some (.resistance .openLoop))
  | .insulation =>
    (.valid, some (.insulation (min 10000 r.tipGround) (min 10000 r.ringGround) (min 10000 r.tipRing)))
  | .capacitance =>
    if r.nanofarad ≤ 1000 then (.valid, some (.capacitance r.nanofarad (r.nanofarad * 20)))
    else (.outOfRange, some (.capacitance 1000 20000))

/-! ### Requests -/

/-- The items of a survey that have not ended, in the order of section 8.1. -/
def Survey.remaining (r : Survey) : List Item :=
  allItems.filter (fun i => r.items.contains i && !r.ended.any (fun e => decide (e.1 = i)))

/-- An item of the survey ends with a status. -/
def Survey.endItem (i : Item) (status : ItemStatus) (r : Survey) : Survey := { r with ended := r.ended ++ [(i, status)] }

/-- Items that end without having run. -/
def Survey.endAll (l : List Item) (r : Survey) : Survey := { r with ended := r.ended ++ l.map (fun i => (i, .notRun)) }

/-- The status of an item of the survey, NOT_RUN when it did not run. -/
def Survey.statusOf (r : Survey) (i : Item) : ItemStatus :=
  match r.ended.find? (fun e => decide (e.1 = i)) with
  | some e => e.2
  | none => .notRun

def State.onRunning (f : Survey → Survey) (s : State) : State := s.onLth fun l => { l with running := l.running.map f }

/-- R168: the six status bytes of an answer, for the items a requester named. -/
def Survey.statusBytes (r : Survey) (named : List Item) : List Byte :=
  allItems.map (fun i => if named.contains i then byte (r.statusOf i).code else 0)

/-- R168: the originator's answer: TEST_DONE when every item it named was measured, DONE otherwise. -/
def Survey.originatorFrame (r : Survey) (n : Nat) : TxFrame :=
  if r.items.all (fun i => decide (r.statusOf i = .valid) || decide (r.statusOf i = .outOfRange)) then
    plainFrame n .testDone (r.statusBytes r.items)
  else plainFrame n .done (byte Kind.test.code :: r.statusBytes r.items)

/-- R168: the answers of a survey that has ended: the originator's first, then those of the merged requesters in the
order in which they came (log entry 104). -/
def State.answerSurvey (r : Survey) (s : State) : State :=
  let s := match r.originator with
    | some n => s.handRoutine (r.originatorFrame n)
    | none => s
  r.merged.foldl
    (fun s m => s.handRoutine (plainFrame m.station .done (byte Kind.test.code :: r.statusBytes m.items))) s

/-- R161: what LINK_PROFILE copies. -/
def State.profile (s : State) : ItemResult :=
  if s.lle.link = .showtime then .profile .current (some s.showValues)
  else match s.lle.lastShow with
    | some v => .profile .last (some v)
    | none => .profile .none none

/-- R161: LINK_PROFILE runs; its status is always VALID. -/
def State.runProfile (s : State) : State := s.writeEntry .linkProfile .valid (some s.profile)

/-! ### Where the running survey goes next (R164, R165, R168) -/

/-- R164: a survey becomes running; LINK_PROFILE comes first when it names it. -/
def State.startSurvey (r : Survey) (s : State) : State :=
  let s := s.onLth fun l => { l with running := some r, waitTimer := none }
  if r.items.contains .linkProfile then (s.runProfile).onRunning (Survey.endItem .linkProfile .valid) else s

/-- R168: the running survey has ended: the slot empties and the answers go. -/
def State.finishSurvey (r : Survey) (s : State) : State :=
  (s.onLth fun l => { l with running := none, stage := .none, waitTimer := none }).answerSurvey r

/-- The survey goes on to its next phase, or ends, when no phase of it holds the line (R164, R165, R168); the pending
request follows one that has ended (R163), and `fuel` bounds that one succession. -/
def State.continueSurvey : Nat → State → State
  | 0, s => s
  | fuel + 1, s =>
    match s.lth.running with
    | none => s.onLth fun l => { l with stage := .none }
    | some r =>
      if r.remaining.any Item.isVoltage then s.onLth fun l => { l with stage := .waitVoltage, waitTimer := none }
      else if r.remaining.any Item.intrusive && !s.faultActive .foreignVoltageHigh .line then
        s.onLth fun l => { l with stage := .waitMetallic, waitTimer := none }
      else
        let s := s.finishSurvey (r.endAll r.remaining)
        match s.lth.pending with
        | none => s
        | some p => State.continueSurvey fuel ((s.onLth fun l => { l with pending := none }).startSurvey p)

/-! ### The phases (R164 to R167) -/

/-- R164: the conditions of the voltage phase. -/
def State.voltageReady (s : State) : Bool :=
  decide (s.cfl.state = .ready) && (decide (s.vsw.line = .idle) || decide (s.vsw.line = .out)) &&
    s.cct.deferred.isEmpty && !s.lth.holdOff

/-- R165: the conditions of the metallic phase of a survey. -/
def State.metallicReady (r : Survey) (s : State) : Bool :=
  s.voltageReady &&
    !s.cct.calls.any (fun c => decide (c.kind = .outside) && (decide (c.state = .setup) || decide (c.state = .active))) &&
    !s.faultActive .foreignVoltageHigh .line &&
    (decide (s.lle.link = .down) || decide (s.lle.link = .quiet) || decide (s.lle.link = .lockout) || r.allowDrop)

/-- The conditions the running survey waits for hold. -/
def State.phaseReady (s : State) : Bool :=
  match s.lth.stage, s.lth.running with
  | .waitVoltage, some _ => s.voltageReady
  | .waitMetallic, some r => s.metallicReady r
  | _, _ => false

/-- An item begins, with its timer (R164, R165). -/
def State.beginItem (i : Item) (s : State) : State :=
  s.onLth fun l => { l with stage := .item i, itemTimer := some (s.now + i.durationMs), waitTimer := none }

/-- R164: the voltage phase begins with the first of these items. -/
def State.beginVoltage (i : Item) (s : State) : State :=
  ((s.onLth fun l => { l with relay := .monitor }).setLine .test).beginItem i

/-- R165: the metallic phase begins; SURVEY is added when "allow drop" is set. -/
def State.beginMetallic (allowDrop : Bool) (i : Item) (s : State) : State :=
  let s := if allowDrop then (s.addHolder .survey).onLth fun l => { l with holderAdded := true } else s
  ((s.onLth fun l => { l with relay := .separate }).setLine .test).beginItem i

/-- R49: a lockout attempt held back by an intrusive item is made. -/
def State.heldAttempt (s : State) : State :=
  if s.lle.attemptHeld && decide (s.lle.link = .lockout) then s.enterDown .none else s

/-- R166: a phase ends: relay to REST, restore timer, and at the end of a metallic phase the report to the LLE and
the removal of SURVEY. -/
def State.endPhase (s : State) : State :=
  let metallic := s.intrusiveRunning
  let s := s.onLth fun l =>
    { l with stage := .restoring, relay := .rest, itemTimer := none, restoreTimer := some (s.now + Config.restoreMs) }
  if metallic then
    let s := s.heldAttempt
    if s.lth.holderAdded then (s.removeHolder .survey).onLth fun l => { l with holderAdded := false } else s
  else s

/-- The item after one that has ended, in the same phase. -/
def Survey.nextItem (i : Item) (r : Survey) : Option Item :=
  r.remaining.find? (fun j => (i.isVoltage && j.isVoltage) || (i.intrusive && j.intrusive))

/-- R164, R166: the next item of the phase follows, or the phase ends. -/
def State.nextInPhase (i : Item) (s : State) : State :=
  match s.lth.running.bind (Survey.nextItem i) with
  | some j => s.beginItem j
  | none => s.endPhase

/-- R169: a running item is aborted; nothing happens when no item runs. -/
def State.abortSurvey (s : State) : State :=
  match s.lth.stage with
  | .item i =>
    let s := s.writeEntry i .aborted none
    let s := s.onRunning fun r => let r := r.endItem i .aborted; r.endAll r.remaining
    (s.endPhase).onLth fun l => { l with holdOff := true }
  | _ => s

/-! ### Faults found by measurement (R171 to R173) -/

/-- A measured condition keeps its fault: raised when it holds and the entry is not ACTIVE, made inactive when it
does not hold. -/
def State.keepFault (code : FaultCode) (holds : Bool) (s : State) : State :=
  if holds then s.raiseUnlessActive code .line else s.makeInactive code .line

/-- R171: the largest of the four readings. -/
def largestVoltage (r : LoopReadings) : Nat :=
  min 250 (max (max r.acTip r.dcTip) (max r.acRing r.dcRing))

/-- R171, R189: FOREIGN_VOLTAGE_HIGH follows a measurement, and holder VOLTAGE and the re-check timer with it. -/
def State.judgeHigh (high : Bool) (s : State) : State :=
  let before := s.faultActive .foreignVoltageHigh .line
  let s := s.keepFault .foreignVoltageHigh high
  match before, s.faultActive .foreignVoltageHigh .line with
  | false, true =>
    (s.onLth fun l => { l with recheckTimer := some (s.now + Config.recheckMs) }).addHolder .voltage
  | true, false => (s.onLth fun l => { l with recheckTimer := none }).removeHolder .voltage
  | _, _ => s

/-- R171 to R173: a completed item is judged; of the two faults of a FOREIGN_VOLTAGE item, FOREIGN_VOLTAGE changes first
(log entry 81). -/
def State.judgeItem (i : Item) (r : LoopReadings) (s : State) : State :=
  match i with
  | .foreignVoltage =>
    (s.keepFault .foreignVoltage (decide (10 < largestVoltage r))).judgeHigh (decide (50 < largestVoltage r))
  | .insulation => s.keepFault .loopLeakage (decide (min r.tipGround (min r.ringGround r.tipRing) < 150))
  | .resistance => s.keepFault .loopOpen (decide (20000 < r.loopOhm))
  | _ => s

/-- R170: a completed item clears its due mark. -/
def Lth.clearDue (i : Item) (l : Lth) : Lth :=
  match i with
  | .foreignVoltage => { l with voltageDue := false }
  | .lineVoltage => { l with lineVoltageDue := false }
  | _ => l

/-- R162: the running item completes. -/
def State.completeItem (i : Item) (r : LoopReadings) (s : State) : State :=
  let m := measure i r
  let s := s.writeEntry i m.1 m.2
  let s := s.onRunning (Survey.endItem i m.1)
  let s := s.onLth (Lth.clearDue i)
  (s.judgeItem i r).nextInPhase i

/-! ### Taking a TEST (R163) -/

/-- A station already in a survey, as its originator or merged (R163, step 3); an automatic check in which it is merged
is one of them (log entry 70). -/
def Survey.involves (n : Nat) (r : Survey) : Bool :=
  decide (r.originator = some n) || r.merged.any (fun m => m.station == n)

/-- A TEST can be merged into a survey (R163, step 5). -/
def Survey.admits (items : List Item) (r : Survey) : Bool :=
  items.all (fun i => r.items.contains i) && decide (r.merged.length < Config.mergedCapacity)

def Survey.merge (n : Nat) (items : List Item) (r : Survey) : Survey :=
  { r with merged := r.merged ++ [{ station := n, items := items }] }

/-- The items of an item byte, in the order of section 8.1 (R202, section 11.4). -/
def itemsOf (bits : Nat) : List Item := allItems.filter (fun i => decide (bits / 2 ^ (i.code - 1) % 2 = 1))

/-- R163: the LTH takes a TEST of a station for a set of items. Step 3 covers a station merged into a running check
(log entry 70). -/
def State.takeTest (n : Nat) (items : List Item) (allowDrop : Bool) (s : State) : State :=
  let r : Survey := { originator := some n, items := items, allowDrop := allowDrop, merged := [], ended := [] }
  if items.isEmpty then s.refuse n .test .badRequest 0
  else if items = [.linkProfile] then (s.runProfile).handRoutine (plainFrame n .testDone [2, 0, 0, 0, 0, 0])
  else if (s.lth.running.any (Survey.involves n)) || (s.lth.pending.any (Survey.involves n)) then s
  else match s.lth.running with
    | none => State.continueSurvey 2 (s.startSurvey r)
    | some run =>
      if run.admits items then s.onRunning (Survey.merge n items)
      else match s.lth.pending with
        | none => s.onLth fun l => { l with pending := some r }
        | some p =>
          if p.admits items then s.onLth fun l => { l with pending := some (p.merge n items) }
          else s.refuse n .test .testBusy 0

end Sys2Proof.Machine
end

