-- ==== Sys2Proof/Machine/Calls.lean ====
section
/-! DEFINITION. The Call Controller (chapter 7): the call table, who is busy, how parties enter and leave, grants and
their withdrawal, and the decision of every claim. -/

namespace Sys2Proof.Machine

open Sys2Proof

/-! ### Look-ups -/

def State.callOf (id : Nat) (s : State) : Option CallRec := s.cct.calls.find? (fun c => c.id == id)

/-- In SETUP or ACTIVE. -/
def CallRec.isLive (c : CallRec) : Bool := decide (c.state = .setup) || decide (c.state = .active)

def CallRec.hasParty (e : Endpoint) (c : CallRec) : Bool := c.parties.any (fun p => decide (p.who = e))

/-- The call in SETUP or ACTIVE of which the endpoint is a party; there is at most one (R130). -/
def State.liveCallOf (e : Endpoint) (s : State) : Option CallRec :=
  s.cct.calls.find? (fun c => c.isLive && c.hasParty e)

/-- The owner of a call is the first of its parties (R130). -/
def CallRec.owner (c : CallRec) : Option Endpoint := c.parties.head?.map (·.who)

/-- The HELD call an endpoint holds. -/
def State.heldBy (e : Endpoint) (s : State) : Option CallRec :=
  s.cct.calls.find? (fun c => decide (c.state = .held) && decide (c.owner = some e))

/-- The incoming call that rings (R154). -/
def State.incomingCall (s : State) : Option CallRec :=
  s.cct.calls.find? (fun c => decide (c.kind = .outside) && decide (c.origin = .incoming) && decide (c.state = .setup))

def State.onCall (id : Nat) (f : CallRec → CallRec) (s : State) : State :=
  s.onCct fun c => { c with calls := c.calls.map (fun r => if r.id = id then f r else r) }

def Endpoint.isStation : Endpoint → Bool
  | .station _ => true
  | .port _ => false

/-- The call needs the pair: a STATION party, or a rung station of an intercom in SETUP (R132). -/
def CallRec.usesPair (c : CallRec) : Bool :=
  c.isLive && (c.parties.any (fun p => p.who.isStation) ||
    (decide (c.kind = .intercom) && decide (c.state = .setup) && c.rung.any Endpoint.isStation))

/-- R132: the call the pair is assigned to. -/
def Cct.pairCall (c : Cct) : Option Nat := (c.calls.find? CallRec.usesPair).map (·.id)

/-- R132: the pair is assigned to a call other than the one named. -/
def State.pairElsewhere (besides : Option Nat) (s : State) : Bool :=
  match s.cct.pairCall with
  | none => false
  | some id => decide (some id ≠ besides)

/-! ### Busy (R134) -/

/-- The endpoint is rung by a call other than the one named. -/
def State.rungElsewhere (besides : Option Nat) (e : Endpoint) (s : State) : Bool :=
  s.cct.calls.any (fun c => decide (c.rung = some e) && decide (some c.id ≠ besides))

/-- A PAIR-mode station cannot use the pair while it carries a call the station is not part of. -/
def State.pairBars (n : Nat) (s : State) : Bool :=
  match s.entryOf n, s.cct.pairCall.bind (fun id => s.callOf id) with
  | some e, some c =>
    decide (e.ringMode = .pair) && !(c.hasParty (.station n) || decide (c.rung = some (.station n)))
  | _, _ => false

/-- R134: the endpoint is busy, seen from the call named. A station without a PRESENT entry is absent and not busy. -/
def State.busy (besides : Option Nat) (e : Endpoint) (s : State) : Bool :=
  match e with
  | .station n =>
    s.isPresent n &&
      ((s.liveCallOf e).isSome || (s.expectation n).isSome || s.rungElsewhere besides e || s.pairBars n)
  | .port p =>
    (decide ((s.port p).state ≠ .onHook) && decide ((s.port p).state ≠ .ringing)) || (s.liveCallOf e).isSome ||
      s.rungElsewhere besides e

/-- R134: a station without a PRESENT entry is absent. -/
def State.absent (e : Endpoint) (s : State) : Bool :=
  match e with
  | .station n => !s.isPresent n
  | .port _ => false

/-! ### Records (R131, R153, R154) -/

/-- The id after an id (R131). -/
def nextCallId (n : Nat) : Nat := if n < 255 then n + 1 else 1

/-- The first id from `n` on that no record holds; 4 records leave one within 5 (R131). -/
def freeCallId (used : List Nat) : Nat → Nat → Nat
  | 0, n => n
  | fuel + 1, n => if used.contains n then freeCallId used fuel (nextCallId n) else n

/-- The id the next record takes. -/
def Cct.newId (c : Cct) : Nat := freeCallId (c.calls.map (·.id)) Config.callCapacity c.nextCallId

/-- A record is created (R131). -/
def State.addCall (r : CallRec) (s : State) : State :=
  s.onCct fun c => { c with calls := c.calls ++ [r], nextCallId := nextCallId r.id }

/-- A fresh record. -/
def CallRec.fresh (id : Nat) (kind : CallKind) (origin : CallOrigin) (state : CallState) (parties : List Party) :
    CallRec where
  id := id
  kind := kind
  origin := origin
  state := state
  parties := parties
  rung := none
  offer := none
  hold := none
  saved := none
  everConnected := parties.any (fun p => decide (p.mark = .connected))
  ringTimer := none
  guardTimer := none
  originator := none
  target := none

def State.tableFull (s : State) : Bool := decide (Config.callCapacity ≤ s.cct.calls.length)

/-- An endpoint is put out of a call that goes on without it or ends: RELEASE to a station, whose grant in that call is
no longer awaited (log entry 47), the course of R113 for a port. -/
def State.dismiss (id : Nat) (e : Endpoint) (s : State) : State :=
  match e with
  | .station n =>
    let s := match s.expectation n with
      | some x => if x.callId = id then s.clearExpectation n else s
      | none => s
    s.handCall (releaseFrame n id)
  | .port p => s.portReleased p

/-- A record is removed; the parties still in it are put out in the order in which they joined (R144, R153; log entry
96). -/
def State.removeCall (id : Nat) (s : State) : State :=
  match s.callOf id with
  | none => s
  | some c =>
    c.parties.foldl (fun s p => s.dismiss id p.who)
      (s.onCct fun t => { t with calls := t.calls.filter (fun r => r.id != id) })

/-- R153: an OUTSIDE call goes to CLEARING; the loop opens at the same event. LINE_STATUS goes before CALL_COMPLETED is
counted (log entry 105). -/
def State.toClearing (id : Nat) (s : State) : State :=
  match s.callOf id with
  | none => s
  | some c =>
    let s := s.onCall id fun r =>
      { r with
        state := .clearing, parties := [], rung := none, offer := none, hold := none, saved := none
        guardTimer := some (s.now + Config.clearingGuardMs) }
    let s := s.setLine .releasing
    if c.everConnected then s.signal .callCompleted else s

/-- R153: a party leaves a call in SETUP or ACTIVE, and the call is judged. An originator that has left is one no more,
also when it joins again. -/
def State.leave (id : Nat) (e : Endpoint) (s : State) : State :=
  match s.callOf id with
  | none => s
  | some c =>
    let rest := c.parties.filter (fun p => !decide (p.who = e))
    let s := s.onCall id fun r =>
      { r with parties := rest, originator := if r.originator = some e then none else r.originator }
    let s := match e with | .port p => s.onVsw (Vsw.dropDigits p) | .station _ => s
    match c.kind, c.state with
    | .outside, .active => if rest.isEmpty then s.toClearing id else s
    | .intercom, .setup => s.removeCall id
    | .intercom, .active => if rest.length < 2 then s.removeCall id else s
    | _, _ => s

/-- A party leaves its intercom, and the intercom ends whoever is left in it (R138, R150). -/
def State.leaveAndEnd (id : Nat) (e : Endpoint) (s : State) : State :=
  (s.onCall id fun r => { r with parties := r.parties.filter (fun p => !decide (p.who = e)) }).removeCall id

/-! ### Hold and retrieve (R133, R147, R150, R151) -/

def nextToken (n : Nat) : Nat := if n < 65535 then n + 1 else 1

/-- What a call holds on entry to HELD at an instant (R130, R151). -/
def Hold.fresh (token now : Nat) : Hold where
  token := token
  retriever := none
  age := 0
  ageAt := now
  recallState := .none
  recallTimer := some (now + Config.recallAgeMs)
  retryTimer := none
  releaseTimer := some (now + Config.holdReleaseMs)

/-- R147: the call is made HELD with its owner as the holder; the others are put out in the order in which they joined,
and HELD is sent last (log entry 96). -/
def State.makeHeld (id : Nat) (s : State) : State :=
  match s.callOf id with
  | none => s
  | some c =>
    match c.parties with
    | [] => s
    | o :: others =>
      let token := s.cct.nextToken
      let s := s.onCct fun t => { t with nextToken := nextToken token }
      let s := s.onCall id fun r =>
        { r with
          state := .held, parties := [{ who := o.who, mark := .holder }], rung := none
          hold := some (Hold.fresh token s.now), saved := none }
      let s := others.foldl (fun s p => s.dismiss id p.who) s
      let s := s.onVsw fun v => { v with repeatQueue := [], outpulse := v.outpulse.map (Outpulse.cut s.now) }
      match o.who with
      | .station n => s.handCall (heldFrame n id token 1)
      | .port p => s.portHeld p

/-- R150: a HELD call becomes ACTIVE with the endpoint as its one party, CONNECTED. -/
def State.giveHeld (id : Nat) (e : Endpoint) (s : State) : State :=
  let s := s.onCall id fun r =>
    { r with
      state := .active, parties := [{ who := e, mark := .connected }], rung := none, hold := none, saved := none
      everConnected := true }
  match e with
  | .port p => (s.portConnected p .none).onPort p fun r => { r with postFlash := false }
  | .station _ => s

/-- R150: a retrieve by the port that holds a call; an intercom leg of the port ends first. Without such a call the
post-flash mark is cleared (R114), in the states other than DIALTONE too (log entry 65). -/
def State.retrieveForPort (p : Port) (s : State) : State :=
  match s.heldBy (.port p) with
  | some c =>
    let s := match s.liveCallOf (.port p) with
      | some leg => s.leaveAndEnd leg.id (.port p)
      | none => s
    s.giveHeld c.id (.port p)
  | none =>
    if (s.port p).state = .connected then s.onPort p fun r => { r with postFlash := false }
    else s.onPort p fun r => { r.toDialtone .busy with postFlash := false }

/-- R150: what the departure of an endpoint from an ACTIVE intercom that carries its offer is about, when the endpoint
is the originator and the target is a party: the held call and the target's entry. -/
def State.transferOf (c : CallRec) (e : Endpoint) (s : State) : Option (Nat × Party) :=
  match c.offer, c.target with
  | some held, some t =>
    if c.kind = .intercom ∧ c.state = .active ∧ c.originator = some e ∧ (s.heldBy e).any (fun h => h.id == held) then
      (c.parties.find? (fun p => decide (p.who = t))).map fun p => (held, p)
    else none
  | _, _ => none

/-- R150, R153: an endpoint leaves its call by on-hook, HOOK ON or RELEASE. The held call goes to a target that is
CONNECTED; with a target still AWAITING_TAKE the intercom is removed and the held call stays HELD. -/
def State.depart (id : Nat) (e : Endpoint) (s : State) : State :=
  match s.callOf id with
  | none => s
  | some c =>
    match s.transferOf c e with
    | none => s.leave id e
    | some (held, t) =>
      if t.mark = .connected then
        let s := s.onCall id fun r =>
          { r with parties := r.parties.filter (fun p => !(decide (p.who = e) || decide (p.who = t.who))) }
        (s.removeCall id).giveHeld held t.who
      else s.leaveAndEnd id e

/-- R151: the recall target of a HELD call. -/
def CallRec.recallTarget (c : CallRec) : Option Endpoint := (c.hold.bind (·.retriever)).or c.owner

def CallRec.onHold (f : Hold → Hold) (c : CallRec) : CallRec := { c with hold := c.hold.map f }

/-- R151: the recall waits. -/
def State.recallWaits (id : Nat) (s : State) : State :=
  s.onCall id fun r =>
    { r.onHold (fun h => { h with recallState := .waiting, retryTimer := some (s.now + Config.recallRetryMs) }) with
      rung := none }

/-- R151: the CCT attempts the recall. -/
def State.attemptRecall (c : CallRec) (s : State) : State :=
  match c.recallTarget with
  | none => s
  | some t =>
    if s.busy (some c.id) t || s.absent t then s.recallWaits c.id
    else
      s.onCall c.id fun r =>
        { r.onHold (fun h => { h with recallState := .ringing, retryTimer := none }) with rung := some t }

/-! ### Grants (R136 to R138) -/

/-- The endpoint of a claimant. -/
def Claimant.endpoint : Claimant → Endpoint
  | .station n _ _ => .station n
  | .port p => .port p

/-- The entry of a claimant that is let into a call: a station must still TAKE (R130). -/
def Claimant.party : Claimant → Party
  | .station n _ _ => { who := .station n, mark := .awaitingTake }
  | .port p => { who := .port p, mark := .connected }

/-- R136: a GRANT to a station sets its expectation. -/
def State.grant (n tag id sent : Nat) (s : State) : State :=
  (s.onEntry n fun e => { e with grant := some { tag := tag, callId := id, deadline := s.now + Config.grantMs } }).handCall
    (grantFrame n tag id sent)

/-- The claimant is told that it has its place (R113, R136). -/
def State.letIn (c : Claimant) (id : Nat) (tone : Tone) (s : State) : State :=
  match c with
  | .station n tag sent => s.grant n tag id sent.code
  | .port p => s.portConnected p tone

/-- The claimant is refused. -/
def State.refuseClaim (c : Claimant) (reason : RefuseReason) (s : State) : State :=
  match c with
  | .station n tag _ => s.refuse n .claim reason tag
  | .port p => s.portRefused p reason

/-- R138: what a grant of station n in a call set is undone; what a RETRIEVE kept is its own sender's, who owns the
call. -/
def State.undoGrant (n id : Nat) (s : State) : State :=
  match s.callOf id with
  | none => s
  | some c =>
    match (if c.owner = some (.station n) then c.saved else none) with
    | some k =>
      let others := c.parties.filter (fun p => !decide (p.who = .station n))
      let s := s.onCall id fun r =>
        { r with
          state := .held, parties := [{ who := k.holder, mark := .holder }], rung := none, saved := none
          hold := some
            { k.hold with
              ageAt := s.now
              recallState := .waiting
              recallTimer := if k.hold.age < Config.recallAgeMs then some (s.now + (Config.recallAgeMs - k.hold.age)) else none
              retryTimer := some (s.now + Config.recallRetryMs)
              releaseTimer := some (s.now + (Config.holdReleaseMs - k.hold.age)) } }
      others.foldl (fun s p => s.dismiss id p.who) s
    | none =>
      if c.kind = .intercom ∧ c.originator = some (.station n) then s.leaveAndEnd id (.station n)
      else s.leave id (.station n)

/-- R137: an expectation is withdrawn, with or without the RELEASE and the STATION_PROTOCOL. The RELEASE goes before one
that the undoing sends (log entry 95), and the notices of STATION_PROTOCOL before its LINE_STATUS (log entry 102). -/
def State.withdraw (n : Nat) (withRelease protocolError : Bool) (s : State) : State :=
  match s.expectation n with
  | none => s
  | some x =>
    let s := s.clearExpectation n
    let s := if withRelease then s.handCall (releaseFrame n x.callId) else s
    let s := if protocolError then s.protocolFault n else s
    s.undoGrant n x.callId

/-- R140: the claims of a station leave the deferred list. -/
def State.dropDeferred (n : Nat) (s : State) : State :=
  s.onCct fun c => { c with deferred := c.deferred.filter (fun x => !decide (x.endpoint = .station n)) }

/-- R111, R115: a port withdraws its claim. -/
def State.withdrawPortClaim (p : Port) (s : State) : State :=
  (s.onCct fun c => { c with deferred := c.deferred.filter (fun x => !decide (x.endpoint = .port p)) }).onPort p fun r =>
    { r with awaiting := false }

/-- R137, R140: the part takes in a frame of a station: an expectation of the station is withdrawn, and its deferred
claim leaves the list. -/
def State.takeFrame (n : Nat) (s : State) : State := (s.withdraw n true true).dropDeferred n

/-! ### The tests of claims (R139, R141 to R143) -/

/-- R134: the claimant is busy, seen from the call it claims; a port is never busy as the claimant of its own claim. -/
def State.claimantBusy (c : Claimant) (besides : Option Nat) (s : State) : Bool :=
  match c with
  | .station n _ _ => s.busy besides (.station n)
  | .port _ => false

/-- The pair bars the claimant from the call (R132). -/
def State.pairBusyFor (c : Claimant) (besides : Option Nat) (s : State) : Bool :=
  match c with
  | .station _ _ _ => s.pairElsewhere besides
  | .port _ => false

/-- R18: a grant needs a PRESENT entry: a claimant that is ABSENT is refused as one without an entry is (log entry
67). -/
def State.notReadyFor (c : Claimant) (s : State) : Bool :=
  match c with
  | .station n _ _ => !s.isPresent n
  | .port _ => false

/-- R139: the tests of an OUTSIDE claim on an IDLE line, in order; that of a claimant without a presence entry (R18)
comes last, as it does in every list of tests here (log entry 88). -/
def State.outsideTest (c : Claimant) (s : State) : Option RefuseReason :=
  if s.claimantBusy c none then some .lineBusy
  else if s.pairBusyFor c none then some .pairBusy
  else if s.tableFull then some .tableFull
  else if s.notReadyFor c then some .notReady
  else none

/-- R141: the tests of an ANSWER of the ringing incoming call. -/
def State.answerTest (c : Claimant) (id : Nat) (s : State) : Option RefuseReason :=
  if s.claimantBusy c (some id) then some .lineBusy
  else if s.pairBusyFor c (some id) then some .pairBusy
  else if s.notReadyFor c then some .notReady
  else none

/-- R142: the tests 2 and 4 to 7 of a JOIN of a call. -/
def State.joinTest (c : Claimant) (r : CallRec) (s : State) : Option RefuseReason :=
  if !s.cfl.record.joinAllowed then some .lineBusy
  else if decide (r.state ≠ .active) then some .lineBusy
  else if s.claimantBusy c (some r.id) then some .lineBusy
  else if Config.partyLimit ≤ r.parties.length then some .partyLimit
  else if s.pairBusyFor c (some r.id) then some .pairBusy
  else if s.notReadyFor c then some .notReady
  else none

/-- R143: the tests of an INTERCOM claim for a target, in order. -/
def State.intercomTest (c : Claimant) (t : Endpoint) (s : State) : Option RefuseReason :=
  if c.endpoint = t ∨ t = .station s.ybi.ownAddress then some .badRequest
  else if s.claimantBusy c none then some .lineBusy
  else if s.absent t then some .targetAbsent
  else if s.busy none t then some .lineBusy
  else if (c.endpoint.isStation || t.isStation) && s.pairElsewhere none then some .pairBusy
  else if s.tableFull then some .tableFull
  else if s.notReadyFor c then some .notReady
  else none

/-! ### The decisions -/

/-- R139: the OUTSIDE claim is granted: the call is ACTIVE and the line SEIZED at one event. -/
def State.grantOutside (c : Claimant) (s : State) : State :=
  let id := s.cct.newId
  ((s.addCall (CallRec.fresh id .outside .outgoing .active [c.party])).setLine .seized).letIn c id .none

/-- R141: the claimant owns the incoming call. A station's answer leaves a port that rang a plain off-hook; a port's
answer lets the other one answer with it. -/
def State.grantAnswer (c : Claimant) (id : Nat) (s : State) : State :=
  let s := match c with
    | .port p => s.markCoAnswer p id
    | .station _ _ _ => s
  let s := s.onCall id fun r =>
    { r with state := .active, parties := [c.party], everConnected := r.everConnected || decide (c.party.mark = .connected) }
  (s.setLine .seized).letIn c id .none

/-- R141: the ANSWER of the incoming call that rings. -/
def State.answerIncoming (c : Claimant) (id : Nat) (s : State) : State :=
  match s.answerTest c id with
  | some reason => s.refuseClaim c reason
  | none => s.grantAnswer c id

/-- R142: the claimant is appended to the parties. -/
def State.grantJoin (c : Claimant) (id : Nat) (s : State) : State :=
  (s.onCall id fun r =>
    { r with
      parties := r.parties ++ [c.party]
      everConnected := r.everConnected || decide (c.party.mark = .connected) }).letIn c id .none

/-- R142: the JOIN of a call that is in the table. -/
def State.joinCall (c : Claimant) (r : CallRec) (s : State) : State :=
  if r.state = .clearing then s.refuseClaim c .noSuchCall
  else if s.cfl.record.joinAllowed && decide (r.kind = .outside) && decide (r.state = .setup) then s.answerIncoming c r.id
  else match s.joinTest c r with
    | some reason => s.refuseClaim c reason
    | none => s.grantJoin c r.id

/-- R142: a JOIN; call id 0 names the OUTSIDE call in ACTIVE. -/
def State.decideJoin (c : Claimant) (id : Nat) (s : State) : State :=
  let named := if id = 0 then
      s.cct.calls.find? (fun r => decide (r.kind = .outside) && decide (r.state = .active))
    else s.callOf id
  match named with
  | none => s.refuseClaim c .noSuchCall
  | some r => s.joinCall c r

/-- R141: the intercom that rings the claimant is answered. -/
def State.answerIntercom (c : Claimant) (r : CallRec) (s : State) : State :=
  if s.notReadyFor c then s.refuseClaim c .notReady
  else
    let s := s.onCall r.id fun r =>
      { r with
        state := .active, parties := r.parties ++ [c.party], rung := none, ringTimer := none
        everConnected := r.everConnected || decide (c.party.mark = .connected) }
    let s := s.letIn c r.id .none
    match c.party.mark, r.originator with
    | .connected, some (.port p) => s.onPort p fun q => { q with tone := .none }
    | _, _ => s

/-- R141: the ANSWER of a call of the table. -/
def State.answerCall (c : Claimant) (r : CallRec) (s : State) : State :=
  match r.kind, r.state with
  | _, .clearing => s.refuseClaim c .noSuchCall
  | .outside, .setup => s.answerIncoming c r.id
  | .outside, .active => s.joinCall c r
  | .intercom, .setup => if r.rung = some c.endpoint then s.answerIntercom c r else s.refuseClaim c .lineBusy
  | .outside, .held =>
    match c with
    | .port p => if r.rung = some (.port p) then s.giveHeld r.id (.port p) else s.refuseClaim c .lineBusy
    | .station _ _ _ => s.refuseClaim c .lineBusy
  | _, _ => s.refuseClaim c .lineBusy

/-- R141: call id 0 names the incoming call, ringing or answered; a ringing without a record has none (R154). -/
def State.decideAnswer (c : Claimant) (id : Nat) (s : State) : State :=
  if id = 0 then
    match s.incomingCall with
    | some r => s.answerIncoming c r.id
    | none =>
      if s.vsw.line = .ringIn then s.refuseClaim c .tableFull
      else match s.cct.calls.find? (fun r =>
          decide (r.kind = .outside) && decide (r.origin = .incoming) && decide (r.state = .active)) with
        | some r => s.joinCall c r
        | none => s.refuseClaim c .noSuchCall
  else match s.callOf id with
    | none => s.refuseClaim c .noSuchCall
    | some r => s.answerCall c r

/-- R140: the claim is deferred, and the running survey item is aborted. -/
def State.defer140 (c : Claimant) (s : State) : State :=
  let s := s.abortSurvey
  if s.cct.deferred.length < Config.deferredCapacity then s.onCct fun t => { t with deferred := t.deferred ++ [c] }
  else s.refuseClaim c .lineBusy

/-- R139: an OUTSIDE claim, by the state of the line. -/
def State.decideOutside (c : Claimant) (s : State) : State :=
  match s.vsw.line with
  | .idle =>
    match s.outsideTest c with
    | some reason => s.refuseClaim c reason
    | none => s.grantOutside c
  | .ringIn =>
    match s.incomingCall with
    | some r => s.answerIncoming c r.id
    | none => s.refuseClaim c .tableFull
  | .test => s.defer140 c
  | .out => s.refuseClaim c .lineOut
  | _ => s.refuseClaim c .lineBusy

/-- R145: the unit can serve the claim: the judgement as an OUTSIDE claim would be GRANT. -/
def State.canServe (c : Claimant) (s : State) : Bool :=
  match s.vsw.line with
  | .idle => (s.outsideTest c).isNone
  | .ringIn =>
    match s.incomingCall with
    | some r => (s.answerTest c r.id).isNone
    | none => false
  | _ => false

/-- R143, R148: the HELD call an INTERCOM claim offers to its target: the one the station holds, or the one a port in
the post-flash context holds. -/
def State.heldToOffer (c : Claimant) (s : State) : Option CallRec :=
  match c with
  | .station n _ _ => s.heldBy (.station n)
  | .port p => if (s.port p).postFlash then s.heldBy (.port p) else none

/-- R143, R148: the intercom is placed in SETUP, with the transfer offer it carries. The GRANT to the originator comes
before the HELD (OFFER) to the target (log entry 69). A recall that rings goes on at the endpoint it rings, whoever the
designated retriever becomes (log entry 80). -/
def State.placeIntercom (c : Claimant) (t : Endpoint) (s : State) : State :=
  let id := s.cct.newId
  let held := s.heldToOffer c
  let s := s.addCall
    { CallRec.fresh id .intercom .outgoing .setup [c.party] with
      rung := some t, offer := held.map (·.id), ringTimer := some (s.now + Config.intercomRingMs)
      originator := some c.endpoint, target := some t }
  let s := s.letIn c id .ringback
  match held with
  | none => s
  | some h =>
    let s := s.onCall h.id (CallRec.onHold fun k => { k with retriever := some t })
    match t, h.hold with
    | .station n, some k => s.handCall (heldFrame n h.id k.token 2)
    | _, _ => s

/-- R143: an INTERCOM claim. -/
def State.decideIntercom (c : Claimant) (t : Endpoint) (s : State) : State :=
  match s.intercomTest c t with
  | some reason => s.refuseClaim c reason
  | none => s.placeIntercom c t

/-- The endpoint an INTERCOM argument names: 1..24 a station, 25 and 26 the ports (section 7.2). -/
def targetOf (n : Nat) : Option Endpoint :=
  if 1 ≤ n ∧ n ≤ 24 then some (.station n)
  else if n = 25 then some (.port .a)
  else if n = 26 then some (.port .b)
  else none

/-- R149: a RETRIEVE that passes every test: the call is ACTIVE with the sender awaiting TAKE. -/
def State.grantRetrieve (n tag : Nat) (r : CallRec) (s : State) : State :=
  let s := s.onCall r.id fun q =>
    { q with
      state := .active, parties := [{ who := .station n, mark := .awaitingTake }], rung := none, hold := none
      saved :=
        match r.hold, r.owner with
        | some h, some o => some { hold := { h with age := h.age + (s.now - h.ageAt) }, holder := o }
        | _, _ => none }
  s.grant n tag r.id 0

/-- R149: the tests of a RETRIEVE after the call is found, in order, with that of R18 last (log entry 88). -/
def State.retrieveTest (n token : Nat) (r : CallRec) (s : State) : Option RefuseReason :=
  if r.state ≠ .held ∨ (r.hold.map (·.token)) ≠ some token then some .tokenMismatch
  else if r.owner ≠ some (.station n) ∧ (r.hold.bind (·.retriever)) ≠ some (.station n) then some .notPermitted
  else if s.busy (some r.id) (.station n) then some .lineBusy
  else if s.pairElsewhere (some r.id) then some .pairBusy
  else if !s.isPresent n then some .notReady
  else none

/-- R149: a RETRIEVE. -/
def State.decideRetrieve (n tag id token : Nat) (s : State) : State :=
  match s.callOf id with
  | none => s.refuse n .retrieve .noSuchCall tag
  | some r =>
    if r.state = .clearing then s.refuse n .retrieve .noSuchCall tag
    else match s.retrieveTest n token r with
      | some reason => s.refuse n .retrieve reason tag
      | none => s.grantRetrieve n tag r

/-- R140: the deferred claims are decided in list order against the line as it stands, and the list is emptied. -/
def State.decideDeferred (s : State) : State :=
  s.cct.deferred.foldl (fun s c => s.decideOutside c) (s.onCct fun c => { c with deferred := [] })

/-- R166, R124, R140: the line leaves TEST. -/
def State.leaveTest (s : State) : State := (s.setLine s.restingLine).decideDeferred

/-! ### Ringing on the line (R154) -/

/-- R154: a ring start. -/
def State.ringStart (s : State) : State :=
  if s.tableFull then s.signal .missedRing
  else s.addCall (CallRec.fresh s.cct.newId .outside .incoming .setup [])

/-- R154: a ring end: the incoming record in SETUP is removed and counted, after the LINE_STATUS of the line (log entry
105). -/
def State.ringEnd (s : State) : State :=
  match s.incomingCall with
  | none => s
  | some c => (s.removeCall c.id).signal .missedRing

/-- R122: RING_IN ends without an answer, and the line enters another state. -/
def State.endRinging (x : LineState) (s : State) : State :=
  if s.vsw.line = .ringIn then (s.setLine x).ringEnd else s.setLine x

/-- R121, R190: the line enters or leaves OUT as the entries of FOREIGN_VOLTAGE_HIGH and LOOP_OPEN stand. -/
def State.handOverLine (s : State) : State :=
  match s.vsw.line, s.restingLine with
  | .idle, .out => s.setLine .out
  | .parallel, .out => s.setLine .out
  | .ringIn, .out => s.endRinging .out
  | .out, .idle => s.setLine .idle
  | _, _ => s

/-! ### Absence (R155) -/

/-- R155: the CCT's part when a station goes ABSENT; `x` is the expectation the YBI has just removed. -/
def State.stationGone (n : Nat) (x : Option GrantExpectation) (s : State) : State :=
  let s := match x with | some g => s.undoGrant n g.callId | none => s
  let s := s.dropDeferred n
  let s := s.onCct fun c => { c with pendingAny := c.pendingAny.filter (fun p => p.station != n) }
  let s := match s.liveCallOf (.station n) with | some c => s.leave c.id (.station n) | none => s
  (s.cct.calls.filter (fun c => decide (c.kind = .intercom) && decide (c.state = .setup) &&
      decide (c.rung = some (.station n)))).foldl (fun s c => s.removeCall c.id) s

end Sys2Proof.Machine
end

