-- ==== Sys2Proof/Machine/Ports.lean ====
section
/-! DEFINITION. The house ports (R105 to R118): off-hook, digits, flash, on-hook and the timers of a port, with what
each reports to the Call Controller and to the Loop Test Head. -/

namespace Sys2Proof.Machine

open Sys2Proof

/-- R135, step 1: a claim of port B in BATTERY_LOW gets no decision. -/
def State.portClaim (p : Port) (decide' : State → State) (s : State) : State :=
  if p = .b ∧ s.sup.supply = .batteryLow then s else decide' s

/-- R139: the internal OUTSIDE claim of a port. -/
def State.portOutside (p : Port) (s : State) : State :=
  let s := s.onPort p fun r => { r.closed with tone := .none, awaiting := true }
  s.portClaim p (State.decideOutside (.port p))

/-! ### Off-hook (R110) -/

/-- The call that rings the port as its target: an intercom in SETUP or a recall that rings (R110). -/
def State.targetCall (p : Port) (s : State) : Option CallRec :=
  s.cct.calls.find? (fun c => decide (c.rung = some (.port p)))

/-- DIALTONE while an answer or a direct claim is decided (R110). -/
def State.awaitDecision (p : Port) (s : State) : State :=
  s.onPort p fun r =>
    { r.toDialtone .none with awaiting := true, offHookTimer := some (s.now + Config.offHookMs) }

/-- R110: the port enters DIALTONE with dial tone and its first-digit window open. -/
def State.openWindow (p : Port) (s : State) : State :=
  s.onPort p fun r =>
    { r.toDialtone .dial with
      window := .first
      firstDigitTimer := some (s.now + Config.digitWindowMs)
      offHookTimer := some (s.now + Config.offHookMs) }

/-- R141: the call that the port answers as the second of two ports, at the instant of the first answer (log
entry 59). -/
def State.coAnswered (p : Port) (s : State) : Option Nat :=
  match s.vsw.coAnswer with
  | some x => if x.port = p ∧ x.instant = s.now then some x.callId else none
  | none => none

/-- R110: the four cases of an off-hook, in order; the second of two port answers is a JOIN (R141). -/
def State.offHookCases (p : Port) (ringing : Bool) (s : State) : State :=
  match s.targetCall p with
  | some c =>
    let s := s.awaitDecision p
    if c.state = .held then s.answerCall (.port p) c else s.portClaim p (fun s => s.answerCall (.port p) c)
  | none =>
    if ringing || decide (s.vsw.line = .ringIn) then (s.awaitDecision p).portClaim p (State.decideAnswer (.port p) 0)
    else if (s.coAnswered p).isSome then
      (s.awaitDecision p).portClaim p (State.decideAnswer (.port p) ((s.coAnswered p).getD 0))
    else
      let direct := match p with | .a => s.cfl.record.directA | .b => s.cfl.record.directB
      if direct then (s.awaitDecision p).portClaim p (State.decideOutside (.port p))
      else s.openWindow p

/-- R110, R117: an off-hook. A running survey item is aborted first, and a no-load check is abandoned. -/
def State.takeOffHook (p : Port) (s : State) : State :=
  let ringing := decide ((s.port p).state = .ringing)
  let s := s.abortSurvey
  let s := s.onPort p fun r => { r with offHook := true, noLoadTimer := none, noLoadCheck := none }
  (s.offHookCases p ringing).watchCurrent p

/-! ### Digits (R108, R109, R111, R112) -/

/-- A window that has run out while a digit or a break was in progress closes when no digit comes of it: a post-flash
window then has the held call retrieved (R111, R114). -/
def State.lapseWindow (p : Port) (s : State) : State :=
  match (s.port p).window with
  | .closed => s
  | .first => if (s.port p).firstDigitTimer.isSome then s else s.onPort p fun r => { r with window := .closed }
  | .postFlash =>
    if (s.port p).postFlashTimer.isSome then s
    else (s.onPort p fun r => { r with window := .closed }).retrieveForPort p

/-- R111, R114: the first digit of an open window; `none` stands for star and hash. The pulses of a
digit in progress are lost (log entry 64). -/
def State.firstDigit (p : Port) (d : Option Nat) (s : State) : State :=
  match (s.port p).window with
  | .closed => s
  | w =>
    let s := s.onPort p PortRec.closed
    if d = some 8 then
      s.onPort p fun r => { r with state := .collecting, tone := .none, interDigitTimer := some (s.now + Config.digitWindowMs) }
    else if w = .postFlash then s.retrieveForPort p
    else if d = some 9 then s.portOutside p
    else s.onPort p fun r => { r with tone := .error }

/-- R112: the target of a collected number; none when it names no target, the port itself or the part's own address. -/
def State.collectedTarget (p : Port) (n : Nat) (s : State) : Option Endpoint :=
  match targetOf n with
  | none => none
  | some t => if t = .port p ∨ t = .station s.ybi.ownAddress then none else some t

/-- R112: a digit in COLLECTING; the pulses of a digit in progress go on being counted (log entry 64). -/
def State.collectDigit (p : Port) (d : Option Nat) (s : State) : State :=
  if (s.port p).awaiting then s
  else match d, (s.port p).digits with
    | none, _ => s.onPort p (PortRec.toDialtone .error)
    | some d, [] => s.onPort p fun r => { r with digits := [d], interDigitTimer := some (s.now + Config.digitWindowMs) }
    | some d, first :: _ =>
      match s.collectedTarget p (10 * first + d) with
      | none => s.onPort p (PortRec.toDialtone .error)
      | some t =>
        let s := s.onPort p fun r => { r with digits := [first, d], interDigitTimer := none, awaiting := true }
        s.portClaim p (State.decideIntercom (.port p) t)

/-- R108, R109: a completed digit goes to the state of the port. -/
def State.takeDigit (p : Port) (d : Option Nat) (s : State) : State :=
  match (s.port p).state with
  | .dialtone => s.firstDigit p d
  | .collecting => s.collectDigit p d
  | _ => s

/-- R108: a digit dialled by pulses ends: a count of 11 or more is discarded. -/
def State.endPulses (p : Port) (s : State) : State :=
  let n := (s.port p).pulses
  let s := s.onPort p fun r => { r with pulses := 0, pauseTimer := none }
  if n = 0 then s
  else if 10 < n then s.lapseWindow p
  else
    let d := n % 10
    match (s.port p).state with
    | .connected =>
      match s.liveCallOf (.port p) with
      | some c =>
        if c.kind = .outside ∧ c.state = .active ∧ s.vsw.line = .seized then s.repeatDigit p d else s
      | none => s
    | _ => s.takeDigit p (some d)

/-! ### Flash (R114) -/

/-- R114: a flash in CONNECTED without the post-flash mark: the owner's outside call is placed HELD (R147). -/
def State.flashConnected (p : Port) (s : State) : State :=
  match s.liveCallOf (.port p) with
  | none => s
  | some c =>
    if c.kind = .outside ∧ c.state = .active ∧ c.owner = some (.port p) then s.makeHeld c.id else s

/-- R108, R114: a hook flash; a digit in progress is discarded first. -/
def State.takeFlash (p : Port) (s : State) : State :=
  let r := s.port p
  let s := s.onPort p fun r => { r with pulses := 0, pauseTimer := none }
  match r.state with
  | .connected => if r.postFlash then s.retrieveForPort p else s.flashConnected p
  | .dialtone =>
    match r.window with
    | .closed => if r.postFlash then s.retrieveForPort p else s
    | _ => s.lapseWindow p
  | .collecting => if r.postFlash then (s.withdrawPortClaim p).retrieveForPort p else s
  | _ => s

/-! ### Breaks (R107, R108) -/

/-- R108: the states in which pulses are counted. -/
def PortState.countsPulses : PortState → Bool
  | .dialtone => true
  | .collecting => true
  | .connected => true
  | _ => false

/-- R108: a dial pulse; the pause that ends the digit runs from its close. -/
def State.takePulse (p : Port) (s : State) : State :=
  if (s.port p).state.countsPulses then
    s.onPort p fun r => { r with pulses := min 11 (r.pulses + 1), pauseTimer := some (s.now + Config.digitPauseMs) }
  else s

/-- R107, R108: an ignored break; the pause of a digit in progress runs anew from its close. -/
def State.ignoreBreak (p : Port) (s : State) : State :=
  if 0 < (s.port p).pulses then s.onPort p fun r => { r with pauseTimer := some (s.now + Config.digitPauseMs) }
  else s.lapseWindow p

/-- R107: the class of a break that the closing of the loop ends. -/
def State.closeBreak (p : Port) (began : Nat) (s : State) : State :=
  let length := s.now - began
  let s := s.onPort p fun r => { r with breakStart := none }
  if 30 ≤ length ∧ length < 90 then s.takePulse p
  else if 200 ≤ length ∧ length ≤ Config.onHookBreakMs then s.takeFlash p
  else s.ignoreBreak p

/-! ### On-hook (R115) -/

/-- R115: the port goes on the hook: its call is released, its claim withdrawn, and it is ON_HOOK. PORT_OFFHOOK_LOCK is
made inactive before PORT_LOW_CURRENT (log entry 82), and both after the release of the call (log entry 107). -/
def State.takeOnHook (p : Port) (s : State) : State :=
  let s := s.withdrawPortClaim p
  let s := s.onPort p fun _ => PortRec.onHookAt s.now
  let s := match s.liveCallOf (.port p) with
    | some c => s.depart c.id (.port p)
    | none => s
  (s.makeInactive .portOffhookLock (.port p)).makeInactive .portLowCurrent (.port p)

/-! ### HOWLER and the windows (R111, R112, R116) -/

/-- R111, R116: the off-hook timer expires in DIALTONE or COLLECTING. -/
def State.enterHowler (p : Port) (s : State) : State :=
  let s := s.withdrawPortClaim p
  s.onPort p fun r =>
    { r.closed with
      state := .howler, tone := .howl, offHookTimer := none, howlerTimer := some (s.now + Config.howlerMs) }

/-- R111: the first-digit window expires. -/
def State.firstWindowEnds (p : Port) (s : State) : State :=
  let r := s.port p
  s.onPort p fun q =>
    { q with firstDigitTimer := none
             window := if r.pulses = 0 ∧ r.breakStart.isNone then .closed else q.window }

/-- R114: the post-flash window expires. -/
def State.postFlashEnds (p : Port) (s : State) : State :=
  let r := s.port p
  let s := s.onPort p fun q => { q with postFlashTimer := none }
  if r.pulses = 0 ∧ r.breakStart.isNone then s.lapseWindow p else s

/-! ### OUT_OF_SERVICE (R106) -/

/-- R106: port B is in a call: a party of a call in SETUP or ACTIVE, or the holder of a HELD call. -/
def State.inCall (p : Port) (s : State) : Bool := (s.liveCallOf (.port p)).isSome || (s.heldBy (.port p)).isSome

/-- R106: port B is placed OUT_OF_SERVICE. PORT_OFFHOOK_LOCK is made inactive before PORT_LOW_CURRENT (log entry 82). -/
def State.portOut (s : State) : State :=
  let s := s.withdrawPortClaim .b
  let s := s.onPort .b fun _ => { PortRec.reset with state := .outOfService }
  (s.makeInactive .portOffhookLock (.port .b)).makeInactive .portLowCurrent (.port .b)

/-- R106: port B follows the supply state and its calls: out of service when it is in no call in BATTERY_LOW, and
fed again when the supply leaves it. -/
def State.servePortB (s : State) : State :=
  if s.cfl.state = .ready then
    if s.sup.supply = .batteryLow then
      if s.vsw.portB.state = .outOfService ∨ s.inCall .b then s else s.portOut
    else if s.vsw.portB.state = .outOfService then s.onPort .b fun _ => PortRec.onHookAt s.now
    else s
  else s

/-! ### The no-load check (R117) -/

/-- R117: a no-load check begins. -/
def State.beginCheck (p : Port) (s : State) : State :=
  s.onPort p fun r => { r with noLoadTimer := none, noLoadCheck := some (s.now + Config.noLoadCheckMs) }

/-- R117: a no-load check completes. -/
def State.endCheck (p : Port) (ringerFound : Bool) (s : State) : State :=
  let s := s.onPort p fun r => { r with noLoadCheck := none, noLoadTimer := some (s.now + Config.noLoadMs) }
  if ringerFound then s.makeInactive .portNoLoad (.port p) else s.raiseUnlessActive .portNoLoad (.port p)

/-- R29, R105: READY begins for a port: it is fed from now on (`State.feedMilliamp`), hooks are sensed and the first
no-load check runs. -/
def State.powerPort (p : Port) (s : State) : State := s.beginCheck p

end Sys2Proof.Machine
end

