-- ==== Sys2Proof/Machine/Ringing.lean ====
section
/-! DEFINITION. Ringing (section 6.4): the episodes that the call table calls for, the ring plan, the demands on the
ring converter (R38), and the frames RING and RING_END. -/

namespace Sys2Proof.Machine

open Sys2Proof

/-! ### The converter (R38) -/

/-- The idle timer starts. -/
def Converter.idleFrom (now : Nat) (c : Converter) : Converter :=
  { c with burst := none, idleTimer := some (now + Config.converterIdleMs) }

/-- R38: a demand with its loads, in supply state `x`. -/
def Converter.demand (x : SupplyState) (now : Nat) (l : List Load) (c : Converter) : Converter :=
  match c.state with
  | .off =>
    if l.isEmpty then c
    else { c with state := .settling, held := some l, settleTimer := some (now + Config.converterSettleMs), idleTimer := none }
  | .settling => { c with held := some l, idleTimer := none }
  | .on => if l.isEmpty then c.idleFrom now else { c with burst := some (drivable x l), idleTimer := none }

/-- R38: SETTLING ends: the held demand's burst begins, or the idle timer starts when it names no load. -/
def Converter.settled (x : SupplyState) (now : Nat) (c : Converter) : Converter :=
  let c := { c with state := .on, settleTimer := none }
  match c.held with
  | some (d :: l) => { c with held := none, burst := some (drivable x (d :: l)), idleTimer := none }
  | _ => { c with held := none }.idleFrom now

/-- R39: a change of supply state sheds loads of the burst and of a held demand. -/
def Converter.shed (x : SupplyState) (c : Converter) : Converter :=
  let cut := fun (l : List Load) => shedTo x.ringCapacity (drivable x l)
  { c with burst := c.burst.map cut, held := c.held.map cut }

/-- R125: ringing on the pair is on while the converter drives a station. -/
def Converter.ringsPair (c : Converter) : Bool := (c.burst.getD []).any (fun d => d.who.isStation)

/-! ### The episodes -/

/-- The episode a call calls for, with the endpoint it rings as an intercom or a recall. -/
def CallRec.episode (c : CallRec) : Option (Nat × EpisodeKind) :=
  match c.kind, c.state with
  | .outside, .setup => some (c.id, .outside)
  | .intercom, .setup => if c.rung.isSome then some (c.id, .intercom) else none
  | .outside, .held => if c.rung.isSome then some (c.id, .recall) else none
  | _, _ => none

/-- The episodes the call table calls for. -/
def Cct.episodes (c : Cct) : List (Nat × EpisodeKind) := c.calls.filterMap CallRec.episode

/-- R127: the length of a phase of the intercom cadence; even phases are bursts. -/
def phaseMs (c : Cadence) (phase : Nat) : Nat :=
  match c with
  | .long => if phase % 2 = 0 then 1000 else 3000
  | .double => if phase % 4 = 3 then 2000 else if phase % 4 = 1 then 200 else 400

/-- An episode begins; an intercom or a recall begins with a burst (R127). -/
def Episode.start (cad : Cadence) (now : Nat) (e : Nat × EpisodeKind) : Episode where
  callId := e.1
  kind := e.2
  phase := 0
  timer := if e.2 = .outside then none else some (now + phaseMs cad 0)

/-- R127: the episode is in a burst phase: an incoming one while the line's burst lasts. -/
def Vsw.inPhase (v : Vsw) (e : Episode) : Bool :=
  match e.kind with
  | .outside => v.inBurst
  | _ => e.phase % 2 == 0

/-! ### The ring plan (R126) -/

/-- The episode the plan in force rings an endpoint for. -/
def RingPlan.ringsFor (e : Endpoint) (p : RingPlan) : Option Nat :=
  (p.loads.find? (fun l => decide (l.load.who = e))).map (·.callId)

/-- R126: a port may be rung for an episode: in ON_HOOK or ringing for it, with PORT_NO_LOAD not ACTIVE. -/
def State.portRingable (p : Port) (id : Nat) (s : State) : Bool :=
  (decide ((s.port p).state = .onHook) ||
      (decide ((s.port p).state = .ringing) && decide (s.vsw.plan.ringsFor (.port p) = some id))) &&
    !s.faultActive .portNoLoad (.port p) && (decide (s.sup.supply ≠ .batteryLow) || decide (p = .a)) &&
    decide (s.cfl.state = .ready)

/-- R126: a station may be rung for an episode: PRESENT, not in BATTERY_LOW, and in PAIR mode only over a pair that is
free or, for a target, assigned to its call. -/
def State.stationRingable (e : PresenceEntry) (id : Nat) (target : Bool) (s : State) : Bool :=
  e.present && decide (s.sup.supply ≠ .batteryLow) &&
    (decide (e.ringMode = .ownSupply) ||
      (match s.cct.pairCall with | none => true | some c => target && decide (c = id)))

/-- The episode an endpoint qualifies for as the target of an intercom or a recall. -/
def State.targetEpisode (e : Endpoint) (ok : Nat → Bool) (s : State) : Option Nat :=
  (s.vsw.episodes.find? (fun x =>
    decide (x.kind ≠ .outside) && (s.callOf x.callId).any (fun c => decide (c.rung = some e)) && ok x.callId)).map (·.callId)

/-- The incoming episode, when an endpoint qualifies for it. -/
def State.incomingEpisode (ok : Nat → Bool) (s : State) : Option Nat :=
  (s.vsw.episodes.find? (fun x => decide (x.kind = .outside) && ok x.callId)).map (·.callId)

/-- R126: the episode a port is a candidate of. -/
def State.portCandidate (p : Port) (s : State) : Option Nat :=
  let units := match p with | .a => s.cfl.record.ringA | .b => s.cfl.record.ringB
  (s.targetEpisode (.port p) (fun id => s.portRingable p id)).or
    (s.incomingEpisode (fun id => units && s.portRingable p id &&
      !s.cct.calls.any (fun c => c.hasParty (.port p))))

/-- R126: the episode a station is a candidate of. -/
def State.stationCandidate (e : PresenceEntry) (s : State) : Option Nat :=
  (s.targetEpisode (.station e.address) (fun id => s.stationRingable e id true)).or
    (s.incomingEpisode (fun id => e.handset && s.stationRingable e id false &&
      (s.liveCallOf (.station e.address)).isNone))

/-- R126: the candidates that take units, in their order: port A, port B, the PAIR-mode stations by address. -/
def State.candidates (s : State) : List PlannedLoad :=
  let ofPort := fun p units => (s.portCandidate p).map fun id =>
    ({ load := { who := .port p, units := units }, callId := id } : PlannedLoad)
  let ports := [ofPort .a s.cfl.record.unitsA, ofPort .b s.cfl.record.unitsB].filterMap (fun x => x)
  ports ++ s.ybi.presence.filterMap fun e =>
    if e.ringMode = .pair then
      (s.stationCandidate e).map fun id => { load := { who := .station e.address, units := e.units }, callId := id }
    else none

/-- R126: the LOCAL-mode stations named. -/
def State.namedStations (s : State) : List (Nat × Nat) :=
  s.ybi.presence.filterMap fun e =>
    if e.ringMode = .ownSupply then (s.stationCandidate e).map fun id => (e.address, id) else none

/-- R126: candidates are included while their units fit, and skipped otherwise. -/
def fitLoads : Nat → List PlannedLoad → List PlannedLoad × List (Endpoint × Nat)
  | _, [] => ([], [])
  | room, c :: l =>
    if c.load.units ≤ room then
      let r := fitLoads (room - c.load.units) l
      (c :: r.1, r.2)
    else
      let r := fitLoads room l
      (r.1, (c.load.who, c.callId) :: r.2)

/-- R126: the plan as it is computed from the state. -/
def State.computePlan (s : State) : RingPlan :=
  let r := fitLoads s.sup.supply.ringCapacity s.candidates
  { loads := r.1, named := s.namedStations, skipped := r.2 }

/-- The stations a plan names for an episode (R128). -/
def RingPlan.stationsOf (id : Nat) (p : RingPlan) : List Nat :=
  (p.loads.filterMap fun l =>
    match l.load.who with
    | .station n => if l.callId = id then some n else none
    | .port _ => none) ++ p.named.filterMap fun n => if n.2 = id then some n.1 else none

/-- R128: two plans name the same stations for an episode, in whatever order. -/
def RingPlan.namesSame (id : Nat) (p q : RingPlan) : Bool :=
  (p.stationsOf id).all (q.stationsOf id).contains && (q.stationsOf id).all (p.stationsOf id).contains

/-- R117, R126: a port follows the plan: into RINGING when included, back to ON_HOOK when it has left it. -/
def State.followPlan (p : Port) (s : State) : State :=
  match (s.port p).state, (s.vsw.plan.ringsFor (.port p)).isSome with
  | .onHook, true => s.onPort p fun r => { r with state := .ringing, noLoadTimer := none, noLoadCheck := none }
  | .ringing, false => s.onPort p fun _ => PortRec.onHookAt s.now
  | _, _ => s

/-- R127: the demand: the loads, in plan order, of the episodes in a burst phase. -/
def State.demandRing (s : State) : State :=
  let bursting := (s.vsw.episodes.filter s.vsw.inPhase).map (·.callId)
  let loads := (s.vsw.plan.loads.filter (fun l => bursting.contains l.callId)).map (·.load)
  s.onSup fun p => { p with converter := p.converter.demand s.sup.supply s.now loads }

/-- R129: the shortfalls a new plan counts, and RING_OVERLOAD after them (log entry 105). -/
def State.judgePlan (old : RingPlan) (s : State) : State :=
  let fresh := s.vsw.plan.skipped.filter (fun x => !old.skipped.contains x)
  let s := s.signalTimes fresh.length .ringShortfall
  if s.vsw.plan.skipped.isEmpty then s.makeInactive .ringOverload .pair else s.raiseUnlessActive .ringOverload .pair

/-- R128: RING for an episode as the plan names its stations. -/
def State.sendRing (e : Episode) (s : State) : State :=
  s.handCall (ringFrame e.callId e.kind s.cfl.record.cadence (s.vsw.plan.stationsOf e.callId))

/-- R126 to R129: the plan is computed afresh, and what it changes follows. `began` are the episodes that begin. The
demand of the new plan is made at once, within a burst too (log entry 94). -/
def State.planOnce (began : List Episode) (s : State) : State :=
  let old := s.vsw.plan
  let s := s.onVsw fun v => { v with plan := s.computePlan }
  let s := s.judgePlan old
  let s := (s.followPlan .a).followPlan .b
  let s := s.vsw.episodes.foldl
    (fun s e =>
      if began.any (fun b => b.callId == e.callId) ||
          !old.namesSame e.callId s.vsw.plan then s.sendRing e
      else s) s
  s.demandRing

/-- R126: the plan is computed again while it changes the state of a port, which a port does at most twice. -/
def State.planUntil : Nat → List Episode → State → State
  | 0, began, s => s.planOnce began
  | k + 1, began, s =>
    let t := s.planOnce began
    if t.vsw.portA.state = s.vsw.portA.state ∧ t.vsw.portB.state = s.vsw.portB.state then t else State.planUntil k [] t

/-- R126: the ring plan after an event that calls for one. -/
def State.replan (began : List Episode) (s : State) : State := s.planUntil 2 began

/-- The episodes follow the call table (section 6.4): those that end send RING_END, and the answer is the pair of the
state and the episodes that begin. A recall whose call another endpoint retrieves ends ANSWERED (log entry 66). The
RING_ENDs go before the RINGs of the new plan (log entry 101). -/
def State.syncEpisodes (s : State) : State × List Episode :=
  let wanted := s.cct.episodes
  let same := fun (e : Episode) => wanted.contains (e.callId, e.kind)
  let ended := s.vsw.episodes.filter (fun e => !same e)
  let began := (wanted.filter (fun w => !s.vsw.episodes.any (fun e => decide ((e.callId, e.kind) = w)))).map
    (Episode.start s.cfl.record.cadence s.now)
  let s := s.onVsw fun v => { v with episodes := v.episodes.filter same ++ began }
  (ended.foldl
    (fun s e =>
      s.handCall (ringEndFrame e.callId ((s.callOf e.callId).any (fun c => decide (c.state = .active))))) s, began)

end Sys2Proof.Machine
end

