-- ==== Sys2Proof/Machine/Supply.lean ====
section
/-! DEFINITION. The Supply Controller (chapter 2): debounce, the supply state and what it publishes, and the rail. -/

namespace Sys2Proof.Machine

open Sys2Proof

/-! ### Supply state (R32 to R34) -/

/-- R32: the supply state of two debounced levels. -/
def supplyOf (mainsOk battLow : Bool) : SupplyState :=
  if mainsOk then .mains else if battLow then .batteryLow else .battery

/-- R33: the supply faults follow a change; SUPPLY_BATTERY_LOW comes first, where one goes with the
other too (log entry 61). -/
def State.supplyFaults (old new : SupplyState) (s : State) : State :=
  let s :=
    if new = .batteryLow then (if old = .batteryLow then s else s.raise .supplyBatteryLow .supply)
    else s.makeInactive .supplyBatteryLow .supply
  if new = .mains then s.makeInactive .supplyOnBattery .supply
  else if old = .mains then s.raise .supplyOnBattery .supply
  else s

/-- R34: holder SUPPLY follows BATTERY_LOW. -/
def State.supplyHolder (new : SupplyState) (s : State) : State :=
  if new = .batteryLow then s.addHolder .supply else s.removeHolder .supply

/-- R60: a ceiling that falls from HIGH to MID abandons a training at FULL power. -/
def State.abandonForCeiling (old new : SupplyState) (s : State) : State :=
  if old = .mains ∧ new = .battery ∧ s.lle.link.isTraining ∧ s.lle.power = .full then s.enterDown .none else s

/-- R32: the supply state is re-derived, and a change is published: the faults follow before the holder, and the
holder before a training is abandoned (log entry 83). -/
def State.deriveSupply (s : State) : State :=
  let old := s.sup.supply
  let new := supplyOf s.sup.mainsOk s.sup.battLow
  if new = old then s
  else
    let s := s.onSup fun p => { p with supply := new, converter := p.converter.shed new }
    ((s.supplyFaults old new).supplyHolder new).abandonForCeiling old new

/-! ### Debounce (R31) -/

/-- R31: a raw level against the debounced one: a change starts the timer, a return stops it. -/
def debounce (level settled : Bool) (now ms : Nat) (t : Timer) : Timer :=
  if level = settled then none else if t.isSome then t else some (now + ms)

/-! ### The rail (R35, R36) -/

/-- R35: the rail target. -/
def State.targetOfRail (s : State) : RailLevel :=
  if s.cfl.state ≠ .ready then .low
  else match s.lle.link with
    | .quiet => .low
    | .retrainWait => .low
    | .lockout => .low
    | .showtime =>
      if s.lle.power = .full ∨ s.lle.restoreOutstanding then .high else s.ceiling
    | _ => s.ceiling

/-- The level next to a level in the direction of a target (R36). -/
def railToward : RailLevel → RailLevel → RailLevel
  | .low, .low => .low
  | .low, _ => .mid
  | .mid, .low => .low
  | .mid, .mid => .mid
  | .mid, .high => .high
  | .high, .high => .high
  | .high, _ => .mid

/-- R35, R36: the target is recomputed, and a step begins when the level differs and none is in progress. -/
def State.driveRail (s : State) : State :=
  s.onSup fun p =>
    let target := s.targetOfRail
    { p with
      railTarget := target
      railStep :=
        if p.railStep.isSome ∨ p.railLevel = target then p.railStep
        else some { goal := railToward p.railLevel target, ends := s.now + Config.railSettleMs } }

end Sys2Proof.Machine
end

