-- ==== Sys2Proof/Machine/Settle.lean ====
section
/-! DEFINITION. What follows an event before the next one can be taken: each part looks at what the event has changed
and does the work the manual ties to that change. `before` is the state the command found. -/

namespace Sys2Proof.Machine

open Sys2Proof

/-- R106: port B follows a change of supply, of the calls, or the beginning of READY. -/
def State.settlePortB (s before : State) : State :=
  if s.sup.supply = before.sup.supply ∧ s.cct.calls = before.cct.calls ∧ s.cfl.state = before.cfl.state then s
  else s.servePortB

/-- R151: a recall that rings stops when its target has become busy or absent. -/
def State.settleRecall (s before : State) : State :=
  if s.cct.calls = before.cct.calls ∧ s.ybi.presence = before.ybi.presence ∧ s.vsw.portA.state = before.vsw.portA.state ∧
      s.vsw.portB.state = before.vsw.portB.state then s
  else
    (s.cct.calls.filter (fun c => decide (c.state = .held))).foldl
      (fun s c =>
        match c.rung with
        | some t => if s.busy (some c.id) t || s.absent t then s.recallWaits c.id else s
        | none => s) s

/-- The state and the descriptive fields of the stations, a change of which calls for a ring plan (R16, R126). -/
def ringFields (l : List PresenceEntry) : List (Nat × Role × Bool × RingMode × Nat × Bool) :=
  l.map fun e => (e.address, e.role, e.handset, e.ringMode, e.units, e.present)

/-- R126: the plan is due: an episode has begun or ended, or the supply state or the state of a port has changed,
whether or not an episode runs; or the presence table has changed while one does. A plan without an episode is empty, and
it makes a demand as every plan does (R127), so that the idle timer of a converter in ON restarts (R38). That the pair
has been assigned is none of these events, and the plan stands over it (log entry 76). -/
def State.planDue (s before : State) (old : List Episode) : Bool :=
  decide (s.vsw.episodes.map (fun e => (e.callId, e.kind)) ≠ old.map (fun e => (e.callId, e.kind))) ||
    decide (s.sup.supply ≠ before.sup.supply) || decide (s.vsw.portA.state ≠ before.vsw.portA.state) ||
    decide (s.vsw.portB.state ≠ before.vsw.portB.state) ||
    (!s.vsw.episodes.isEmpty && decide (ringFields s.ybi.presence ≠ ringFields before.ybi.presence))

/-- Sections 2.4 and 6.4: the episodes, the ring plan and the demand follow. The bursts
of a ringing without a record make no demand while no episode runs (R154; log entry 111). -/
def State.settleRinging (s before : State) : State :=
  let old := s.vsw.episodes
  let r := if s.cct.calls = before.cct.calls then (s, []) else s.syncEpisodes
  let s := r.1
  if s.planDue before old then s.replan r.2
  else if s.vsw.inBurst = before.vsw.inBurst ∧ s.vsw.episodes = before.vsw.episodes then s
  else if s.vsw.episodes.isEmpty then s
  else s.demandRing

/-- R125, R132: the state of the pair follows the call table and the converter. -/
def State.settlePair (s before : State) : State :=
  let s := if s.cct.calls = before.cct.calls then s else s.onVsw fun v => { v with pairSpeech := s.cct.pairCall }
  if s.sup.converter.burst = before.sup.converter.burst then s
  else s.onVsw fun v => { v with pairRinging := s.sup.converter.ringsPair }

/-- R92, R93: the guard comparator takes a change of the detectors, and judges them at entry to SHOWTIME. -/
def State.settleGuard (s before : State) : State :=
  if s.lle.link = .showtime ∧ (s.vsw.line ≠ before.vsw.line ∨ before.lle.link ≠ .showtime) then s.judgeGuard else s

/-- What R35, R36, R56, R61, R62 and R82 look at is as the command found it. -/
def State.linkStill (s before : State) : Bool :=
  decide (s.lle.link = before.lle.link) && decide (s.lle.power = before.lle.power) && decide (s.lle.slot = before.lle.slot) &&
    decide (s.lle.restoreRefused = before.lle.restoreRefused) && decide (s.lle.switchWaiting = before.lle.switchWaiting) &&
    decide (s.lle.powerWaiting = before.lle.powerWaiting) && decide (s.lle.shieldWaiting = before.lle.shieldWaiting) &&
    decide (s.lle.sync.pointer = before.lle.sync.pointer) && decide (s.lle.sync.debt = before.lle.sync.debt) &&
    decide (s.lle.sync.catchUpTimer = before.lle.sync.catchUpTimer) &&
    decide (s.lle.sync.queueBlocked = before.lle.sync.queueBlocked) &&
    decide (s.lle.sync.swapQueue = before.lle.sync.swapQueue) && decide (s.lle.sync.guard = before.lle.sync.guard) &&
    decide (s.sup.supply = before.sup.supply) && decide (s.sup.railLevel = before.sup.railLevel) &&
    decide (s.sup.railTarget = before.sup.railTarget) && decide (s.sup.railStep = before.sup.railStep) &&
    decide (s.cfl.state = before.cfl.state)

/-- R35, R36, R56, R61, R62, R82: rail, power requests, the free slot and the catch-up timer follow a change. -/
def State.settleLink (s before : State) : State :=
  if s.linkStill before then s else ((((s.driveRail).controlPower).pumpOverhead).driveRail).catchUp

/-- R167: the wait timer runs while a request waits for the conditions of a phase; a check never waits. -/
def State.settleWait (s before : State) : State :=
  match s.lth.stage, s.lth.running with
  | .waitVoltage, some r =>
    if s.phaseReady ∨ s.lth.waitTimer.isSome ∨ r.originator.isNone ∨
        (s.lth.stage = before.lth.stage ∧ s.lth.running = before.lth.running ∧ !before.phaseReady) then s
    else s.onLth fun l => { l with waitTimer := some (s.now + Config.surveyWaitMs) }
  | .waitMetallic, some r =>
    if s.phaseReady ∨ s.lth.waitTimer.isSome ∨ r.originator.isNone ∨
        (s.lth.stage = before.lth.stage ∧ s.lth.running = before.lth.running ∧ !before.phaseReady) then s
    else s.onLth fun l => { l with waitTimer := some (s.now + Config.surveyWaitMs) }
  | _, _ => s

/-- The whole of what follows an event. -/
def State.settle (s before : State) : State :=
  let s := s.settlePortB before
  let s := s.settleRecall before
  let s := s.settleRinging before
  let s := s.settlePair before
  let s := s.settleGuard before
  let s := s.settleLink before
  s.settleWait before

/-- A command: its effect, what follows it, and the next state. Every meaning ends so. -/
def finish (before s : State) : Host.Outcome State Fault Refusal := .next (s.settle before)

end Sys2Proof.Machine
end

