-- ==== Sys2Proof/Machine/Operands.lean ====
section
/-! DEFINITION. The operand of a command that takes a request: the oldest frame of the receive buffer (R14), which
message of it the command takes, and what taking it in does first (R137, R140). -/

namespace Sys2Proof.Machine

open Sys2Proof

/-- R13: a frame whose DEST is the own address or 0 is for the part. -/
def State.forPart (dest : Nat) (s : State) : Bool := decide (dest = 0) || decide (dest = s.ybi.ownAddress)

/-- The oldest frame of the buffer, when it is one this command takes. -/
def State.requestFor (pick : Delivered → Bool) (s : State) : Option Delivered :=
  match s.ybi.rxBuffer with
  | d :: _ => if pick d then some d else none
  | [] => none

/-- A command that takes a request for the part: the frame leaves the buffer (R14), the expectation and the deferred
claim of its sender go (R137, R140), and the request is served. Without such a request at the head of the buffer the
command cannot come, and changes nothing (log entry 5). A request that R21 then refuses, or a hint it drops, has first
taken back its sender's expectation and deferred claim all the same (log entry 60). -/
def State.serve (pick : Delivered → Bool) (f : Delivered → State → State) (s : State) : State :=
  match s.requestFor pick with
  | none => s
  | some d => f d ((s.popRequest).takeFrame d.src)

/-- R21: a management request: from a station that is not a manager it is refused and the owner never sees it. -/
def State.asManager (d : Delivered) (f : State → State) (s : State) : State :=
  if s.isManager d.src then f s else s.refuse d.src d.message.kind .notPermitted 0

/-! ### Which message a command takes -/

def isHookOn (d : Delivered) : Bool := match d.message with | .hook e => e != 2 | _ => false
def isHookFlash (d : Delivered) : Bool := match d.message with | .hook e => e == 2 | _ => false
def isClaim (k : ClaimKind) (d : Delivered) : Bool := match d.message with | .claim _ k' _ => decide (k = k') | _ => false
def isHold (d : Delivered) : Bool := match d.message with | .hold _ => true | _ => false
def isRetrieve (d : Delivered) : Bool := match d.message with | .retrieve _ _ _ => true | _ => false
def isRelease (d : Delivered) : Bool := match d.message with | .release _ => true | _ => false
def isGrant (d : Delivered) : Bool := match d.message with | .grant _ _ => true | _ => false
def isTake (d : Delivered) : Bool := match d.message with | .take _ => true | _ => false
def isQueryLink (d : Delivered) : Bool := match d.message with | .query .link => true | _ => false
def isQueryLoop (d : Delivered) : Bool := match d.message with | .query (.loopRecord _ _) => true | _ => false
/-- The scope of a fault-table query; the SUMMARY row also takes a scope that is none of the three (log entry 6). -/
def isQueryFaultSummary (d : Delivered) : Bool :=
  match d.message with | .query (.faultTable n) => n != 2 && n != 3 | _ => false
def isQueryFaultAll (d : Delivered) : Bool := match d.message with | .query (.faultTable n) => n == 2 | _ => false
def isQueryFaultActive (d : Delivered) : Bool := match d.message with | .query (.faultTable n) => n == 3 | _ => false
def isQueryPresence (d : Delivered) : Bool := match d.message with | .query .presenceTable => true | _ => false
def isQueryConfiguration (d : Delivered) : Bool := match d.message with | .query (.configuration _) => true | _ => false
def isTest (d : Delivered) : Bool := match d.message with | .test _ _ => true | _ => false
/-- The operation of a LINK_CONTROL; the HOLD row also takes a code that is none of the three (log entry 6). -/
def isControlHold (d : Delivered) : Bool := match d.message with | .linkControl n => n != 2 && n != 3 | _ => false
def isControlRelease (d : Delivered) : Bool := match d.message with | .linkControl n => n == 2 | _ => false
def isControlRetrain (d : Delivered) : Bool := match d.message with | .linkControl n => n == 3 | _ => false
def isClearRetry (d : Delivered) : Bool := match d.message with | .clearRetry => true | _ => false
def isClearFaults (d : Delivered) : Bool := match d.message with | .clearFaults => true | _ => false
def isCounterRead (d : Delivered) : Bool := match d.message with | .counterRead _ c => !c | _ => false
def isCounterReadClear (d : Delivered) : Bool := match d.message with | .counterRead _ c => c | _ => false
def isCounterSet (d : Delivered) : Bool := match d.message with | .counterSet _ _ _ => true | _ => false
def isCounterDelegate (d : Delivered) : Bool := match d.message with | .counterDelegate _ _ => true | _ => false

end Sys2Proof.Machine
end

