-- ==== Sys2Proof/Machine/StartCommands.lean ====
section
/-! DEFINITION. Device reset and the CONFIG states (R24 to R29). -/

namespace Sys2Proof.Machine

open Sys2Proof

/-- R24, R25: every block in its reset state, the straps and the supply inputs as sampled. The connections and the
queue of commands are not the part's. -/
def State.afterReset (straps : Nat) (mainsOk battLow : Bool) (s : State) : State :=
  { State.reset with
    pins := { s.pins with straps := straps, mainsOk := mainsOk, battLow := battLow }
    ybi := { Ybi.reset with ownAddress := straps, listenOnly := decide (straps = 0) || decide (24 < straps) }
    cfl := { Cfl.reset with rank := if straps = 1 then 1 else 2 }
    sup := { Sup.reset with mainsOk := mainsOk, battLow := battLow }
    pending := s.pending }

/-- DEVICE_RESET (R24, R25, R31, R33, R34). -/
def execDeviceReset (straps : Fin 32) (mainsOk battLow : Bool) (s : State) : Host.Outcome State Fault Refusal :=
  finish s (s.afterReset straps.val mainsOk battLow).deriveSupply

/-- R28: the default events become the selections of counters 2..7. -/
def Ctb.takeEvents (l : List Nat) (b : Ctb) : Ctb :=
  { b with counters := b.counters.zipIdx.map (fun p =>
      if p.2 < 2 then p.1 else { p.1 with selection := l.getD (p.2 - 2) p.1.selection }) }

/-- R26: the memory, when it answered whole and is usable. -/
def usableMemory (memory : Option (List Byte)) : Option (List Byte) := memory.filter memoryUsable

/-- R26 to R28: the end of LOADING; what R28 names is done in the order in which it names it (log entry 84). -/
def State.endLoading (memory : Option (List Byte)) (s : State) : State :=
  let usable := usableMemory memory
  let record := match usable with
    | some m => clampRecord m
    | none => ConfigRecord.default
  let s := s.onCfl fun c =>
    { c with
      state := .listen, record := record, defaulted := usable.isNone
      listenTimer := some (s.now + Config.listenMs) }
  let s := if s.ybi.ownAddress = 0 ∨ 24 < s.ybi.ownAddress then s.raise .busAddressInvalid .bus else s
  let s := if usable.isNone then s.raise .configDefaulted .config else s
  let s := s.onLle fun l => { l with d := record.dInit }
  let s := s.onCtb (Ctb.takeEvents record.counterEvents)
  if record.startHeld then s.addHolder .management else s

/-- CONFIG_READ_DONE (R26 to R28): effective in LOADING, which it ends. -/
def execConfigReadDone (memory : Option (List Byte)) (s : State) : Host.Outcome State Fault Refusal :=
  finish s (if s.cfl.state = .loading then s.endLoading memory else s)

/-- R29: READY begins; the PRESENCE goes before the LINE_STATUS (log entry 105). -/
def State.beginReady (s : State) : State :=
  let s := s.onCfl fun c => { c with state := .ready, listenTimer := none }
  let s := (s.handRoutine presenceFrame).lineStatus
  let s := s.onYbi fun y => { y with presenceTimer := some (s.now + Config.presenceMs) }
  let s := (s.powerPort .a).powerPort .b
  (s.senseVoltage).senseRinging

/-- LISTEN_TIMER_EXPIRY (R29). -/
def execListenTimerExpiry (s : State) : Host.Outcome State Fault Refusal :=
  finish s (s.onExpiry s.cfl.listenTimer State.beginReady)

end Sys2Proof.Machine
end

