-- ==== Sys2Proof/Machine/BusCommands.lean ====
section
/-! DEFINITION. The Yard Bus commands (chapter 1): reception, slots, sending, collisions, the timers of the YBI and
the absence of a station. -/

namespace Sys2Proof.Machine

open Sys2Proof

/-! ### The presence table (R15, R16) -/

/-- R15: an entry for a station that had none. -/
def PresenceEntry.created (n : Nat) (fields : Option (Role × Bool × RingMode × Nat)) : PresenceEntry :=
  match fields with
  | some (role, handset, mode, units) =>
    { address := n, role := role, handset := handset, ringMode := mode, units := units, present := true, age := 0,
      grant := none, lineStatus := none }
  | none =>
    { address := n, role := .extension, handset := false, ringMode := .ownSupply, units := 0, present := true, age := 0,
      grant := none, lineStatus := none }

/-- R15: the ABSENT entry with the largest age, the lowest address between equals. -/
def oldestAbsent (l : List PresenceEntry) : Option PresenceEntry :=
  (l.filter (fun e => !e.present)).foldl (fun best e =>
    match best with
    | none => some e
    | some b => if b.age < e.age then some e else some b) none

/-- An entry in its place in ascending order of address. -/
def insertEntry (e : PresenceEntry) (l : List PresenceEntry) : List PresenceEntry :=
  l.takeWhile (fun x => decide (x.address < e.address)) ++ e :: l.dropWhile (fun x => decide (x.address < e.address))

/-- R15: the table with a place for a new entry; none when all 23 are PRESENT. -/
def placeForEntry (l : List PresenceEntry) : Option (List PresenceEntry) :=
  if l.length < Config.presenceCapacity then some l
  else (oldestAbsent l).map fun old => l.filter (fun e => e.address != old.address)

/-- R15: a valid frame refreshes the entry of its sender; `fields` are those of a well-formed PRESENCE. -/
def State.refreshSender (n : Nat) (fields : Option (Role × Bool × RingMode × Nat)) (s : State) : State :=
  match s.entryOf n with
  | some e =>
    let s := s.onEntry n fun e => { e with age := 0, present := true }
    if e.present then s else s.makeInactive .stationLost (.station n)
  | none =>
    match placeForEntry s.ybi.presence with
    | none => s
    | some l => s.onYbi fun y => { y with presence := insertEntry (PresenceEntry.created n fields) l }

/-- R16: a PRESENCE replaces the descriptive fields. -/
def State.takePresence (n : Nat) (fields : Option (Role × Bool × RingMode × Nat)) (s : State) : State :=
  match fields with
  | none => s
  | some (role, handset, mode, units) =>
    s.onEntry n fun e =>
      { e with
        role := role, handset := handset, ringMode := mode, units := units
        lineStatus := if role = .lineUnit then e.lineStatus else none }

/-- R16: a LINE_STATUS of a line unit replaces the line status field. -/
def State.takeLineStatus (n : Nat) (body : List Byte) (s : State) : State :=
  match body with
  | [link, line] =>
    s.onEntry n fun e =>
      if e.role = .lineUnit then { e with lineStatus := some { linkUp := flagOf link, outsideLine := line.toNat } } else e
  | _ => s

/-! ### Reception (R12 to R14, R202) -/

/-- R14, R202: a frame that is delivered. One with the wrong LEN never comes to the buffer: a request to the part is
answered, and drops a deferred claim of its sender (log entry 97), an overheard GRANT or TAKE is discarded without a
count, and so is a GRANT to the part (log entries 10, 73).
Any other joins the buffer, or is discarded and counted when the buffer is full. -/
def State.deliver (f : RxFrame) (kind : Kind) (s : State) : State :=
  match readMessage kind f.body with
  | none =>
    if kind.isRequest && s.forPart f.dest then
      (s.takeFrame f.src).refuse f.src kind .badRequest (malformedTag kind f.body)
    else s
  | some m =>
    if Config.rxCapacity ≤ s.ybi.rxBuffer.length then s.frameDropped
    else s.onYbi fun y => { y with rxBuffer := y.rxBuffer ++ [{ dest := f.dest, src := f.src, message := m }] }

/-- R13: whether a frame of a kind is delivered. -/
def State.isDelivered (f : RxFrame) (kind : Kind) (s : State) : Bool :=
  if s.forPart f.dest then kind.isRequest || decide (kind = .grant) else decide (kind = .grant) || decide (kind = .take)

/-- R13: a valid frame in READY, after the refresh. -/
def State.routeFrame (f : RxFrame) (s : State) : State :=
  match kindOf f.code with
  | none => s.signal .busBadFrame
  | some .presence => s
  | some .lineStatus => s
  | some k => if s.isDelivered f k then s.deliver f k else s

/-- R13, R15, R16: a valid frame refreshes its sender, and PRESENCE and LINE_STATUS reach the table. -/
def State.takeValid (f : RxFrame) (s : State) : State :=
  let fields := if kindOf f.code = some .presence then readPresence f.body else none
  let s := s.refreshSender f.src fields
  let s := s.takePresence f.src fields
  let s := if kindOf f.code = some .lineStatus then s.takeLineStatus f.src f.body else s
  if s.cfl.state = .ready then s.routeFrame f else s

/-- R12: the judgement at the idle point; the remains of a frame the part aborted are invalid (R5). -/
def State.judge (bytes : List Byte) (framingError aborted : Bool) (s : State) : State :=
  match (if aborted then none else judgeFrame s.ybi.ownAddress bytes framingError) with
  | none => if s.cfl.state = .ready then s.signal .busBadFrame else s
  | some f => s.takeValid f

/-- The idle point that ends what was on the bus (R2); a frame of another station has ended the yield (R4). -/
def State.idlePoint (s : State) : State :=
  s.onYbi fun y => { y with bus := .idle, slot := 0, yielding := y.yielding && decide (y.bus = .aborted) }

/-- R1, R2, R12: the idle point that ends what the receiver has read. Without a byte there was no start bit: no idle
period has ended and there is no frame, but for what is left of a frame the part aborted (R5; log entry 72). The CONFIG
state at the idle point decides for the whole of the frame, be it that the frame began in another (log entry 98). -/
def State.frameEnds (bytes : List Byte) (framingError : Bool) (s : State) : State :=
  let aborted := decide (s.ybi.bus = .aborted)
  if bytes.isEmpty && !aborted then s
  else if s.cfl.state = .loading then s.idlePoint
  else (s.idlePoint).judge bytes framingError aborted

/-- A frame ends at its idle point, and what follows that event (R12; log entry 29) comes before the next frame. -/
def State.hear (s : State) (f : List Byte × Bool) : State := (s.frameEnds f.1 f.2).settle s

/-- FRAME_RECEIVED (R1, R2, R12): what stood on the pair from a falling edge in an idle period to an idle point:
dominant for `low` microseconds, and then the runs. Every idle point among them ends a frame, and the frames are taken
in one after the other (log entry 86). -/
def execFrameReceived (low : Nat) (wire : List WireRun) (s : State) : Host.Outcome State Fault Refusal :=
  match s.ybi.bus with
  | .sending _ => finish s s
  | .aborted => .next ((readAfterAbort (afterEdge low wire)).foldl State.hear s)
  | _ => .next ((readWire (afterEdge low wire)).foldl State.hear s)

/-! ### Access (R2 to R5) -/

/-- The base slot of a class (section 1.2). -/
def baseSlot : UrgencyClass → Nat
  | .urgent => 0
  | .call => 32
  | .routine => 64

def Ybi.queue (y : Ybi) : UrgencyClass → List TxFrame
  | .urgent => y.urgent
  | .call => y.call
  | .routine => y.routine

def Ybi.setQueue (y : Ybi) (cls : UrgencyClass) (q : List TxFrame) : Ybi :=
  match cls with
  | .urgent => { y with urgent := q }
  | .call => { y with call := q }
  | .routine => { y with routine := q }

/-- The bus is idle and slots are counted. It counts as idle from the end of the part's own whole frame on, so that a
start bit that comes before the idle point of that frame ends the yield too (log entry 87). -/
def BusState.isIdle : BusState → Bool
  | .idle => true
  | .sent => true
  | _ => false

/-- R3, R4: a slot of the part's own begins. A slot that is not beyond the last one begins another slot cycle, which
ends the yield. -/
def State.ownSlot (cls : UrgencyClass) (s : State) : State :=
  let slot := s.ybi.ownAddress + baseSlot cls
  let yielding := s.ybi.yielding && decide (s.ybi.slot < slot)
  let s := s.onYbi fun y => { y with bus := .idle, slot := slot, yielding := yielding }
  match s.ybi.queue cls with
  | [] => s
  | f :: _ =>
    if cls = .urgent ∨ yielding = false then
      s.onYbi fun y => { y with bus := .sending cls, driving := wireLevels y.ownAddress f }
    else s

/-- OWN_SLOT_BEGINS (R3): effective in READY, on an idle bus, for a station address. -/
def execOwnSlotBegins (cls : UrgencyClass) (s : State) : Host.Outcome State Fault Refusal :=
  finish s
    (if s.cfl.state = .ready ∧ s.ybi.bus.isIdle ∧ 1 ≤ s.ybi.ownAddress ∧ s.ybi.ownAddress ≤ 24 then s.ownSlot cls else s)

/-- R9: the head frame leaves its queue, and the yield begins (R4). -/
def State.headLeaves (cls : UrgencyClass) (b : BusState) (collisions : Nat) (s : State) : State :=
  s.onYbi fun y =>
    { y.setQueue cls ((y.queue cls).drop 1) with
      bus := b, slot := 0, yielding := true, driving := [], collisions := collisions }

/-- R11, R183: what a frame that has left the ROUTINE queue makes way for. -/
def State.afterLeaving (cls : UrgencyClass) (f : Option TxFrame) (s : State) : State :=
  match cls with
  | .routine =>
    let s := if f.any (·.streamed) then
        s.onYbi fun y => { y with stream := y.stream.map (fun r => { r with inQueue := false }) }
      else s
    (s.handOwed).pumpStream
  | _ => s

/-- R185: a FAULT frame has been read back whole. -/
def State.markReported (f : Option TxFrame) (s : State) : State :=
  match f.bind (·.fault) with
  | some t => s.onFlt (Flt.reportedBy t)
  | none => s

/-- FRAME_SENT (R5). -/
def execFrameSent (s : State) : Host.Outcome State Fault Refusal :=
  finish s
    (match s.ybi.bus with
    | .sending cls =>
      let f := (s.ybi.queue cls).head?
      ((s.headLeaves cls .sent 0).markReported f).afterLeaving cls f
    | _ => s)

/-- R6: entry to the listen-only state; no notice is owed there (R186). -/
def State.enterListenOnly (s : State) : State :=
  (s.onYbi fun y => { y with listenOnly := true, urgent := [], call := [], routine := [], stream := none }).onFlt fun f =>
    { f with owed := [] }

/-- COLLISION (R5, R6). -/
def execCollision (s : State) : Host.Outcome State Fault Refusal :=
  finish s
    (match s.ybi.bus with
    | .sending cls =>
      let f := (s.ybi.queue cls).head?
      let n := min 3 (s.ybi.collisions + 1)
      let s := s.headLeaves cls .aborted n
      if n = 3 then (s.enterListenOnly).raise .busAddressConflict .bus else s.afterLeaving cls f
    | _ => s)

/-- YIELD_END (R4): the first slot cycle of the idle period ends. -/
def execYieldEnd (s : State) : Host.Outcome State Fault Refusal :=
  finish s
    (if s.ybi.yielding ∧ s.ybi.bus.isIdle then s.onYbi fun y => { y with bus := .idle, slot := 0, yielding := false }
    else s)

/-- ANOTHER_STATION_START_BIT (R2, R3, R4): it ends the idle period, the slot count and the yield. -/
def execAnotherStationStartBit (s : State) : Host.Outcome State Fault Refusal :=
  finish s
    (if s.ybi.bus.isIdle then s.onYbi fun y => { y with bus := .receiving, slot := 0, yielding := false } else s)

/-! ### Timers -/

/-- BACKLOG_TIMER_EXPIRY (R10). -/
def execBacklogTimerExpiry (s : State) : Host.Outcome State Fault Refusal :=
  finish s (s.onExpiry s.ybi.backlogTimer fun s =>
    (s.onYbi fun y => { y with backlogTimer := none }).makeInactive .busBacklog .bus)

/-- PRESENCE_TIMER_EXPIRY (R19). -/
def execPresenceTimerExpiry (s : State) : Host.Outcome State Fault Refusal :=
  finish s (s.onExpiry s.ybi.presenceTimer fun s =>
    (s.onYbi fun y => { y with presenceTimer := restart y.presenceTimer Config.presenceMs }).handRoutine presenceFrame)

/-- PRESENCE_AGEING (R17): every entry ages by a second. -/
def execPresenceAgeing (s : State) : Host.Outcome State Fault Refusal :=
  finish s (s.onExpiry s.ybi.ageingTimer fun s =>
    s.onYbi fun y =>
      { y with
        ageingTimer := restart y.ageingTimer Config.secondMs
        presence := y.presence.map (fun e => { e with age := min Config.ageMax (e.age + 1) }) })

/-- R200: the counters of an absent delegate lose it. -/
def Ctb.revoke (n : Nat) (b : Ctb) : Ctb :=
  { b with counters := b.counters.map (fun c => if c.delegate = some n then { c with delegate := none } else c) }

/-- R17: the entry of a station goes ABSENT; STATION_LOST is raised before the counters and the calls are told (log
entry 105). -/
def State.goAbsent (n : Nat) (s : State) : State :=
  let x := s.expectation n
  let s := s.onEntry n fun e => { e with present := false, lineStatus := none, grant := none }
  let s := s.raise .stationLost (.station n)
  (s.onCtb (Ctb.revoke n)).stationGone n x

/-- STATION_ABSENT (R17): effective for a PRESENT entry that has reached the age of 35 s. -/
def execStationAbsent (station : Nat) (s : State) : Host.Outcome State Fault Refusal :=
  finish s
    (if s.ybi.presence.any (fun e => e.address == station && e.present && decide (Config.absentAge ≤ e.age)) then
      s.goAbsent station
    else s)

end Sys2Proof.Machine
end

