-- ==== Sys2Proof/Machine/CallCommands.lean ====
section
/-! DEFINITION. The call commands (chapter 7): HOOK, the claims, TAKE, HOLD, RETRIEVE and RELEASE of stations, the
frames overheard from another line unit, and the timers of grants, pending claims and call records. -/

namespace Sys2Proof.Machine

open Sys2Proof

/-! ### HOOK (R147, R150, R152) -/

/-- R152: HOOK ON: the station leaves its call in SETUP or ACTIVE; an event that is neither ON nor FLASH is refused. -/
def State.hookOn (d : Delivered) (s : State) : State :=
  if d.message = .hook 1 then
    match s.liveCallOf (.station d.src) with
    | some c => s.depart c.id (.station d.src)
    | none => s
  else s.refuse d.src .hook .badRequest 0

/-- HOOK_ON (R152). -/
def execHookOn (s : State) : Host.Outcome State Fault Refusal := finish s (s.serve isHookOn State.hookOn)

/-- R147, R150: HOOK FLASH: the owner of the OUTSIDE call in ACTIVE holds it; the holder of a HELD call that is a party
of an intercom carrying its offer gets it back; any other flash is ignored. -/
def State.hookFlash (d : Delivered) (s : State) : State :=
  let e := Endpoint.station d.src
  match s.liveCallOf e with
  | none => s
  | some c =>
    if c.kind = .outside ∧ c.state = .active ∧ c.owner = some e then s.makeHeld c.id
    else match s.heldBy e with
      | some h => if c.kind = .intercom ∧ c.offer = some h.id then (s.leaveAndEnd c.id e).giveHeld h.id e else s
      | none => s

/-- HOOK_FLASH (R152). -/
def execHookFlash (s : State) : Host.Outcome State Fault Refusal := finish s (s.serve isHookFlash State.hookFlash)

/-! ### CLAIM (R135, R139 to R145) -/

/-- The tag of a request that carries one, else 0. -/
def Message.tag : Message → Nat
  | .claim tag _ _ => tag
  | .take tag => tag
  | .retrieve tag _ _ => tag
  | _ => 0

/-- The argument of a CLAIM, else 0. -/
def Message.argument : Message → Nat
  | .claim _ _ a => a
  | _ => 0

/-- R135, step 2: a claim with tag 0 is refused BAD_REQUEST. -/
def State.withTag (d : Delivered) (f : State → State) (s : State) : State :=
  if d.message.tag = 0 then s.refuse d.src d.message.kind .badRequest 0 else f s

/-- CLAIM_OUTSIDE (R139). -/
def execClaimOutside (s : State) : Host.Outcome State Fault Refusal :=
  finish s (s.serve (isClaim .outside) fun d s =>
    s.withTag d (State.decideOutside (.station d.src d.message.tag .outside)))

/-- R145: the claim joins the pending ANY-line list, in the place of an earlier one of the station. -/
def State.pendAny (n tag : Nat) (s : State) : State :=
  s.onCct fun c =>
    { c with pendingAny := c.pendingAny.filter (fun p => p.station != n) ++
        [{ station := n, tag := tag, deadline := s.now + Config.pendingAnyMs }] }

/-- R145: an OUTSIDE_ANY claim that the unit can serve is granted by rank; any other gets no answer, and leaves a
pending entry of its station as it was (log entry 79). -/
def State.claimAny (d : Delivered) (s : State) : State :=
  let c := Claimant.station d.src d.message.tag .outsideAny
  if d.message.tag ≠ 0 ∧ s.canServe c then
    if s.cfl.rank = 1 then s.decideOutside c else s.pendAny d.src d.message.tag
  else s

/-- CLAIM_OUTSIDE_ANY (R145). -/
def execClaimOutsideAny (s : State) : Host.Outcome State Fault Refusal :=
  finish s (s.serve (isClaim .outsideAny) State.claimAny)

/-- CLAIM_ANSWER (R141). -/
def execClaimAnswer (s : State) : Host.Outcome State Fault Refusal :=
  finish s (s.serve (isClaim .answer) fun d s =>
    s.withTag d (State.decideAnswer (.station d.src d.message.tag .answer) d.message.argument))

/-- R135, R143: an INTERCOM claim; a target that is none of 1..26 is refused BAD_REQUEST. -/
def State.claimIntercom (d : Delivered) (s : State) : State :=
  match targetOf d.message.argument with
  | none => s.refuse d.src .claim .badRequest d.message.tag
  | some t => s.decideIntercom (.station d.src d.message.tag .intercom) t

/-- CLAIM_INTERCOM (R143). -/
def execClaimIntercom (s : State) : Host.Outcome State Fault Refusal :=
  finish s (s.serve (isClaim .intercom) fun d s => s.withTag d (State.claimIntercom d))

/-- CLAIM_JOIN (R142). -/
def execClaimJoin (s : State) : Host.Outcome State Fault Refusal :=
  finish s (s.serve (isClaim .join) fun d s =>
    s.withTag d (State.decideJoin (.station d.src d.message.tag .join) d.message.argument))

/-! ### TAKE (R136, R137) -/

/-- R136: the station is CONNECTED, and the originator of an intercom now hears speech (R113), be it the station that
answered or one that joined (log entry 103). -/
def State.connectStation (n : Nat) (x : GrantExpectation) (s : State) : State :=
  let s := s.clearExpectation n
  let s := s.onCall x.callId fun r =>
    { r with
      parties := r.parties.map (fun p => if p.who = .station n then { p with mark := .connected } else p)
      everConnected := true
      saved := if r.owner = some (.station n) then none else r.saved }
  match s.callOf x.callId with
  | some c =>
    match c.kind, c.state, c.originator with
    | .intercom, .active, some (.port p) =>
      if c.hasParty (.port p) then s.onPort p fun r => { r with tone := .none } else s
    | _, _, _ => s
  | none => s

/-- R136, R137: a TAKE addressed to the part. It leaves the deferred claim of its sender out (R140). -/
def State.takeUp (d : Delivered) (s : State) : State :=
  let s := (s.popRequest).dropDeferred d.src
  match s.expectation d.src with
  | none => s.refuse d.src .take .noSuchCall d.message.tag
  | some x =>
    if x.tag = d.message.tag then s.connectStation d.src x
    else (s.withdraw d.src true true).refuse d.src .take .noSuchCall d.message.tag

/-- TAKE (R136). -/
def execTake (s : State) : Host.Outcome State Fault Refusal :=
  finish s
    (match s.requestFor (fun d => isTake d && s.forPart d.dest) with
    | some d => s.takeUp d
    | none => s)

/-! ### HOLD, RETRIEVE, RELEASE (R147, R149, R152) -/

/-- The call id of a HOLD, a RETRIEVE or a RELEASE, else 0. -/
def Message.callId : Message → Nat
  | .hold id => id
  | .retrieve _ id _ => id
  | .release id => id
  | _ => 0

/-- R147: the tests of a HOLD of a call that is not in CLEARING. -/
def State.holdCall (n : Nat) (c : CallRec) (s : State) : State :=
  if c.kind = .intercom then s.refuse n .hold .badRequest 0
  else if c.state = .setup then s.refuse n .hold .notReady 0
  else if c.owner ≠ some (.station n) then s.refuse n .hold .notPermitted 0
  else match c.state, c.hold with
    | .held, some k => s.handCall (heldFrame n c.id k.token 1)
    | _, _ => s.makeHeld c.id

/-- R147: a HOLD. -/
def State.takeHold (d : Delivered) (s : State) : State :=
  match s.callOf d.message.callId with
  | none => s.refuse d.src .hold .noSuchCall 0
  | some c => if c.state = .clearing then s.refuse d.src .hold .noSuchCall 0 else s.holdCall d.src c

/-- HOLD (R147). -/
def execHold (s : State) : Host.Outcome State Fault Refusal := finish s (s.serve isHold State.takeHold)

/-- The token of a RETRIEVE, else 0. -/
def Message.token : Message → Nat
  | .retrieve _ _ token => token
  | _ => 0

/-- RETRIEVE (R149). -/
def execRetrieve (s : State) : Host.Outcome State Fault Refusal :=
  finish s (s.serve isRetrieve fun d s =>
    s.withTag d (State.decideRetrieve d.src d.message.tag d.message.callId d.message.token))

/-- R152: what a RELEASE of a call does; none where it is not permitted. -/
def State.releaseCall (n : Nat) (c : CallRec) (s : State) : Option State :=
  let e := Endpoint.station n
  if c.isLive && c.hasParty e then some (s.depart c.id e)
  else if c.state = .held ∧ (c.owner = some e ∨ (c.hold.bind (·.retriever)) = some e) then some (s.toClearing c.id)
  else if c.kind = .intercom ∧ c.state = .setup ∧ c.rung = some e then some (s.removeCall c.id)
  else none

/-- R152: a RELEASE, echoed when it is taken, after the frames that the removal itself sends (log entry 68). -/
def State.takeRelease (d : Delivered) (s : State) : State :=
  match s.callOf d.message.callId with
  | none => s.refuse d.src .release .noSuchCall 0
  | some c =>
    if c.state = .clearing then s.refuse d.src .release .noSuchCall 0
    else match s.releaseCall d.src c with
      | some s => s.handCall (releaseFrame d.src c.id)
      | none => s.refuse d.src .release .notPermitted 0

/-- RELEASE (R152). -/
def execRelease (s : State) : Host.Outcome State Fault Refusal := finish s (s.serve isRelease State.takeRelease)

/-! ### Overheard frames (R146) -/

/-- The pending entry of a station leaves the list when it has this tag. -/
def State.dropPending (n tag : Nat) (s : State) : State :=
  s.onCct fun c => { c with pendingAny := c.pendingAny.filter (fun p => !(p.station == n && p.tag == tag)) }

/-- R140, R146: an overheard GRANT of a line unit: its sender has no deferred claim any more. One that is addressed to
the part itself also withdraws the grant of its sender (R137). -/
def State.hearGrant (d : Delivered) (tag : Nat) (s : State) : State :=
  let s := s.popRequest
  let s := if s.forPart d.dest then s.takeFrame d.src else s.dropDeferred d.src
  if (s.entryOf d.src).any (fun e => decide (e.role = .lineUnit)) then s.dropPending d.dest tag else s

/-- OVERHEARD_GRANT (R146). -/
def execOverheardGrant (s : State) : Host.Outcome State Fault Refusal :=
  finish s
    (match s.requestFor isGrant with
    | some d => match d.message with | .grant tag _ => s.hearGrant d tag | _ => s
    | none => s)

/-- R137, R140, R146: an overheard TAKE; its sender has no deferred claim any more. One with the expected tag withdraws
the grant, whatever the role of the station it is addressed to (log entry 77). -/
def State.hearTake (d : Delivered) (tag : Nat) (s : State) : State :=
  let s := ((s.popRequest).dropDeferred d.src).dropPending d.src tag
  match s.expectation d.src with
  | some x => if x.tag = tag then s.withdraw d.src false false else s
  | none => s

/-- OVERHEARD_TAKE (R146). -/
def execOverheardTake (s : State) : Host.Outcome State Fault Refusal :=
  finish s
    (match s.requestFor (fun d => isTake d && !s.forPart d.dest) with
    | some d => s.hearTake d d.message.tag
    | none => s)

/-! ### Timers -/

/-- GRANT_DEADLINE_EXPIRY (R136, R137). -/
def execGrantDeadlineExpiry (station : Nat) (s : State) : Host.Outcome State Fault Refusal :=
  finish s (s.onExpiry ((s.expectation station).map (·.deadline)) (fun s => s.withdraw station true false))

/-- R145: the timer of a pending entry expires. A station that awaits the TAKE of another grant is busy, and nothing is
sent (log entry 78). -/
def State.anyExpires (p : PendingAny) (s : State) : State :=
  let s := s.onCct fun c => { c with pendingAny := c.pendingAny.filter (fun q => q.station != p.station) }
  let c := Claimant.station p.station p.tag .outsideAny
  if s.canServe c then s.decideOutside c else s

/-- PENDING_ANY_EXPIRY (R145). -/
def execPendingAnyExpiry (station : Nat) (s : State) : Host.Outcome State Fault Refusal :=
  finish s
    (match s.cct.pendingAny.find? (fun p => p.station == station) with
    | some p => (s.reach p.deadline).anyExpires p
    | none => s)

/-- INTERCOM_RING_EXPIRY (R144). -/
def execIntercomRingExpiry (callId : Nat) (s : State) : Host.Outcome State Fault Refusal :=
  finish s (s.onExpiry ((s.callOf callId).bind (·.ringTimer)) (State.removeCall callId))

/-- A timer of the hold of a call. -/
def State.holdTimerOf (callId : Nat) (t : Hold → Timer) (s : State) : Timer :=
  ((s.callOf callId).bind (·.hold)).bind t

/-- R151: the hold age reaches 5 min; a recall that already rings goes on. -/
def State.recallDue (callId : Nat) (s : State) : State :=
  let s := s.onCall callId (CallRec.onHold fun h => { h with recallTimer := none })
  match s.callOf callId with
  | some c => if (c.hold.map (·.recallState)) = some .ringing then s else s.attemptRecall c
  | none => s

/-- HOLD_AGE_RECALL (R151). -/
def execHoldAgeRecall (callId : Nat) (s : State) : Host.Outcome State Fault Refusal :=
  finish s (s.onExpiry (s.holdTimerOf callId (·.recallTimer)) (State.recallDue callId))

/-- R151: the recall is attempted again. -/
def State.recallAgain (callId : Nat) (s : State) : State :=
  let s := s.onCall callId (CallRec.onHold fun h => { h with retryTimer := none })
  match s.callOf callId with
  | some c => s.attemptRecall c
  | none => s

/-- RECALL_RETRY_EXPIRY (R151). -/
def execRecallRetryExpiry (callId : Nat) (s : State) : Host.Outcome State Fault Refusal :=
  finish s (s.onExpiry (s.holdTimerOf callId (·.retryTimer)) (State.recallAgain callId))

/-- HOLD_AGE_RELEASE (R151). -/
def execHoldAgeRelease (callId : Nat) (s : State) : Host.Outcome State Fault Refusal :=
  finish s (s.onExpiry (s.holdTimerOf callId (·.releaseTimer)) (State.toClearing callId))

/-- CLEARING_GUARD_EXPIRY (R153). -/
def execClearingGuardExpiry (callId : Nat) (s : State) : Host.Outcome State Fault Refusal :=
  finish s (s.onExpiry ((s.callOf callId).bind (·.guardTimer)) (State.removeCall callId))

end Sys2Proof.Machine
end

