-- ==== Sys2Proof/Machine/QueryCommands.lean ====
section
/-! DEFINITION. The queries (R20, R30, R55, R174, R187) and the REPORT bodies of section 11.4. -/

namespace Sys2Proof.Machine

open Sys2Proof

/-- The subject of a QUERY. -/
def Message.subject : Message → Option QuerySubject
  | .query q => some q
  | _ => none

/-! ### The link (R55) -/

def Power.code : Power → Nat
  | .full => 0
  | .cutback => 1

def tableCode : TableName → Nat
  | .normal => 0
  | .guard => 1

/-- R55: the seconds since the training in progress began, without the fraction and held at 65535 (log entry 90); 0
outside training. -/
def State.trainingSeconds (s : State) : Nat :=
  if s.lle.link.isTraining then min 65535 ((s.now - s.lle.trainingBegan) / 1000) else 0

/-- R55: the values that are given in SHOWTIME and are 0 or none in any other state. The table byte is 0 there too
(log entry 63). -/
def State.linkValues (s : State) : List Byte :=
  if s.lle.link = .showtime then
    [byte (tableCode s.lle.downInForce), byte s.lle.e, byte s.lle.d] ++ be16 s.lle.rate ++ be16 s.deliveredRate ++
      marginField s.lle.margin
  else [0, 0, 0] ++ be16 0 ++ be16 0 ++ marginField none

/-- R55: the REPORT of the link. -/
def State.linkReport (s : State) : List Byte :=
  [1, byte s.lle.link.code] ++ be16 s.trainingSeconds ++
    [byte s.lle.holders.code, byte s.lle.retry, byte s.lle.lastFailure.code, byte s.lle.lastDrop.code,
     byte s.lle.power.code] ++ s.linkValues

/-- QUERY_LINK (R55). -/
def execQueryLink (s : State) : Host.Outcome State Fault Refusal :=
  finish s (s.serve isQueryLink fun d s => s.report d.src s.linkReport)

/-! ### The loop record (R174) -/

def ProfileSource.code : ProfileSource → Nat
  | .none => 0
  | .current => 1
  | .last => 2

/-- Section 11.4: the summary of LINK_PROFILE; a value "none" that has no code there is a free value. -/
def profileBytes (source : ProfileSource) (v : Option LastShowtime) : List Byte :=
  match v with
  | some x =>
    [byte source.code] ++ marginField x.margin ++
      [byte (tableCode x.table), byte x.e, byte x.d, flagByte x.lock.isSome] ++ be16 (x.lock.getD 0) ++
      [byte (x.bandTop.getD 0)]
  | none =>
    [byte source.code] ++ marginField none ++
      [Config.absentProfileByte 11, Config.absentProfileByte 12, Config.absentProfileByte 13,
       Config.absentProfileByte 14] ++ be16 0 ++ [0]

/-- Section 11.4: the reading of RESISTANCE. -/
def ohmField : Ohms → List Byte
  | .value ohm => be16 ohm
  | .above4000 => be16 0xFFFE
  | .openLoop => be16 0xFFFF

/-- Section 11.4: the results of an item. -/
def resultBytes : ItemResult → List Byte
  | .profile source v => profileBytes source v
  | .foreignVoltage acTip dcTip acRing dcRing => [byte acTip, byte dcTip, byte acRing, byte dcRing]
  | .lineVoltage volts => [byte volts]
  | .resistance reading => ohmField reading
  | .insulation tipGround ringGround tipRing => be16 tipGround ++ be16 ringGround ++ be16 tipRing
  | .capacitance nanofarad metres => be16 nanofarad ++ be16 metres

/-- Section 11.4: the 21 group averages of an entry of LINK_PROFILE; an average that is none is a free value. -/
def averageBytes (e : RecordEntry) : List Byte :=
  match e.results with
  | some (.profile _ (some v)) => v.averages.map byte
  | _ => (List.range 21).map (fun i => Config.absentAverage (i + 3))

/-- R174: the REPORT of an item's entry; an entry without results ends at byte 7, whichever part is asked for. -/
def State.loopReport (i : Item) (part : Nat) (s : State) : List Byte :=
  let e := s.lth.entry i
  if i = .linkProfile ∧ part = 1 ∧ e.results.isSome then [2, byte i.code, 1] ++ averageBytes e
  else
    [2, byte i.code, byte (if i = .linkProfile then part else 0), byte e.status.code] ++ be32 e.stamp ++
      (match e.results with | some r => resultBytes r | none => [])

/-- R174: a QUERY of the loop record. -/
def State.queryLoop (d : Delivered) (s : State) : State :=
  match d.message.subject with
  | some (.loopRecord item part) =>
    match itemOf item with
    | none => s.refuse d.src .query .badRequest 0
    | some i =>
      if i = .linkProfile ∧ 1 < part then s.refuse d.src .query .badRequest 0
      else s.report d.src (s.loopReport i part)
  | _ => s

/-- QUERY_LOOP_RECORD (R174). -/
def execQueryLoopRecord (s : State) : Host.Outcome State Fault Refusal :=
  finish s (s.serve isQueryLoop State.queryLoop)

/-! ### The fault table (R187) -/

/-- R187: the REPORT of a SUMMARY. -/
def State.summaryReport (s : State) : List Byte :=
  [3, byte s.flt.summary.code, byte s.flt.lamp.code, byte s.flt.entries.length,
   byte (s.flt.entries.filter (fun e => e.active)).length, flagByte s.flt.overflow] ++ be32 s.uptime

/-- R187: a QUERY for the SUMMARY; a scope that is none of the three is refused. -/
def State.querySummary (d : Delivered) (s : State) : State :=
  if d.message.subject = some (.faultTable 1) then s.report d.src s.summaryReport
  else s.refuse d.src .query .badRequest 0

/-- QUERY_FAULT_SUMMARY (R187). -/
def execQueryFaultSummary (s : State) : Host.Outcome State Fault Refusal :=
  finish s (s.serve isQueryFaultSummary State.querySummary)

/-- R187: the REPORT of an entry. -/
def faultReport (summary : Severity) (overflow : Bool) (index count : Nat) (e : FaultEntry) : List Byte :=
  [3, byte index, byte count, byte e.key.code.code, byte e.key.source.code, faultStatus e summary overflow e.reported] ++
    be32 e.firstSeen ++ be32 e.lastChange ++ [byte e.occurrences]

/-- R187, section 11.4: the REPORT of a fault-table answer with no entry. Its status byte carries the summary severity
and the overflow flag; bits 0 to 2 and 6, which tell of an entry, are a free value (log entry 112). -/
def noFaultReport (summary : Severity) (overflow : Bool) : List Byte :=
  [3, 0, 0, 0, 0, byte (summary.code * 8 + boolBit overflow 5) ||| (Config.absentFaultStatus &&& 0x47)] ++
    List.replicate 9 0

/-- R187: an ALL or ACTIVE answer over the entries it reports. -/
def State.queryFaults (pick : FaultEntry → Bool) (d : Delivered) (s : State) : State :=
  if s.ybi.stream.isSome then s.refuse d.src .query .notReady 0
  else
    let l := s.flt.entries.filter pick
    if l.isEmpty then s.report d.src (noFaultReport s.flt.summary s.flt.overflow)
    else s.startStream (l.zipIdx.map fun p =>
      plainFrame d.src .report (faultReport s.flt.summary s.flt.overflow (p.2 + 1) l.length p.1))

/-- QUERY_FAULT_ALL (R187). -/
def execQueryFaultAll (s : State) : Host.Outcome State Fault Refusal :=
  finish s (s.serve isQueryFaultAll (State.queryFaults fun _ => true))

/-- QUERY_FAULT_ACTIVE (R187). -/
def execQueryFaultActive (s : State) : Host.Outcome State Fault Refusal :=
  finish s (s.serve isQueryFaultActive (State.queryFaults fun e => e.active))

/-! ### The presence table (R20) -/

/-- R20: the REPORT of an entry. The bytes of a grant expectation or a line status that the entry does not hold are free
values (log entry 106). -/
def presenceReport (index count : Nat) (e : PresenceEntry) : List Byte :=
  let bits := boolBit e.handset 0 + boolBit (decide (e.ringMode = .pair)) 1 + boolBit (!e.present) 2 +
    boolBit e.grant.isSome 3 + boolBit e.lineStatus.isSome 4 + boolBit (e.lineStatus.any (·.linkUp)) 5
  [4, byte index, byte count, byte e.address, byte e.role.code, byte bits, byte e.units] ++ be16 e.age ++
    [(e.grant.map (fun x => byte x.tag)).getD (Config.absentPresenceByte 9),
     (e.grant.map (fun x => byte x.callId)).getD (Config.absentPresenceByte 10),
     (e.lineStatus.map (fun x => byte x.outsideLine)).getD (Config.absentPresenceByte 11)]

/-- R20, R11: a QUERY of the presence table; an answer with no entry is 0 after its subject (log entry 112). -/
def State.queryPresence (d : Delivered) (s : State) : State :=
  let l := s.ybi.presence
  if l.isEmpty then s.report d.src (4 :: List.replicate 11 0)
  else if s.ybi.stream.isSome then s.refuse d.src .query .notReady 0
  else s.startStream (l.zipIdx.map fun p => plainFrame d.src .report (presenceReport (p.2 + 1) l.length p.1))

/-- QUERY_PRESENCE_TABLE (R20). -/
def execQueryPresenceTable (s : State) : Host.Outcome State Fault Refusal :=
  finish s (s.serve isQueryPresence State.queryPresence)

/-! ### The configuration (R30) -/

/-- R30: the REPORT of a part of the record in force. -/
def State.configurationReport (part : Nat) (s : State) : List Byte :=
  [5, byte part, byte (boolBit s.cfl.defaulted 0 + boolBit (decide (s.cfl.rank = 2)) 1)] ++
    ((recordImage s.cfl.record).drop (16 * part)).take 16

/-- R30: a QUERY of the configuration. -/
def State.queryConfiguration (d : Delivered) (s : State) : State :=
  match d.message.subject with
  | some (.configuration part) =>
    if 3 < part then s.refuse d.src .query .badRequest 0 else s.report d.src (s.configurationReport part)
  | _ => s

/-- QUERY_CONFIGURATION (R30). -/
def execQueryConfiguration (s : State) : Host.Outcome State Fault Refusal :=
  finish s (s.serve isQueryConfiguration State.queryConfiguration)

end Sys2Proof.Machine
end

