-- ==== Sys2Proof/Machine/ManageCommands.lean ====
section
/-! DEFINITION. TEST and the management requests (R21, R22, R53, R54, R163, R188, R195 to R199). -/

namespace Sys2Proof.Machine

open Sys2Proof

/-! ### TEST (R22, R163) -/

/-- R22, R163: a TEST. An item byte with bit 6 or 7 names no item (R202). A station that is not a manager loses its
"allow drop" flag and its intrusive items, and the whole TEST when none but those was named. -/
def State.testRequest (n bits : Nat) (allowDrop : Bool) (s : State) : State :=
  let items := if 64 ≤ bits then [] else itemsOf bits
  if s.isManager n then s.takeTest n items allowDrop
  else if !items.any Item.intrusive then s.takeTest n items false
  else
    let kept := items.filter (fun i => !i.intrusive)
    if kept.isEmpty then s else s.takeTest n kept false

/-- TEST (R163). -/
def execTest (s : State) : Host.Outcome State Fault Refusal :=
  finish s (s.serve isTest fun d s =>
    match d.message with
    | .test bits allowDrop => s.testRequest d.src bits allowDrop
    | _ => s)

/-! ### LINK_CONTROL, CLEAR_RETRY, CLEAR_FAULTS (R53, R54, R188) -/

/-- R53: operation HOLD; a code that names no operation is refused. -/
def State.controlHold (d : Delivered) (s : State) : State :=
  if d.message = .linkControl 1 then (s.done d.src .linkControl).addHolder .management
  else s.refuse d.src .linkControl .badRequest 0

/-- LINK_CONTROL_HOLD (R53). -/
def execLinkControlHold (s : State) : Host.Outcome State Fault Refusal :=
  finish s (s.serve isControlHold fun d s => s.asManager d (State.controlHold d))

/-- LINK_CONTROL_RELEASE (R53). -/
def execLinkControlRelease (s : State) : Host.Outcome State Fault Refusal :=
  finish s (s.serve isControlRelease fun d s =>
    s.asManager d fun s => (s.done d.src .linkControl).removeHolder .management)

/-- R53: operation RETRAIN, by the link state. -/
def State.controlRetrain (d : Delivered) (s : State) : State :=
  match s.lle.link with
  | .quiet => s.refuse d.src .linkControl .notReady 0
  | .down => s.done d.src .linkControl
  | _ => (s.done d.src .linkControl).enterDown .forced

/-- LINK_CONTROL_RETRAIN (R53). -/
def execLinkControlRetrain (s : State) : Host.Outcome State Fault Refusal :=
  finish s (s.serve isControlRetrain fun d s => s.asManager d (State.controlRetrain d))

/-- R54: the retry count is set to 0; a wait or a lockout ends. -/
def State.clearRetry (d : Delivered) (s : State) : State :=
  let s := (s.onLle fun l => { l with retry := 0 }).done d.src .clearRetry
  match s.lle.link with
  | .retrainWait => s.enterDown .none
  | .lockout => s.enterDown .none
  | _ => s

/-- CLEAR_RETRY (R54). -/
def execClearRetry (s : State) : Host.Outcome State Fault Refusal :=
  finish s (s.serve isClearRetry fun d s => s.asManager d (State.clearRetry d))

/-- CLEAR_FAULTS (R188). -/
def execClearFaults (s : State) : Host.Outcome State Fault Refusal :=
  finish s (s.serve isClearFaults fun d s =>
    s.asManager d fun s => (s.onFlt Flt.cleared).done d.src .clearFaults)

/-! ### The counters (R195 to R199) -/

/-- The counter of a number; none above 7. -/
def Ctb.counter (n : Nat) (b : Ctb) : Option Counter := b.counters[n]?

/-- One counter changed. -/
def Ctb.onCounter (n : Nat) (f : Counter → Counter) (b : Ctb) : Ctb := { b with counters := b.counters.modify n f }

/-- R195: the REPORT of a counter. -/
def counterReport (n : Nat) (c : Counter) : List Byte :=
  [6, byte n, byte c.selection, flagByte c.inhibit, byte (c.delegate.getD 0)] ++ be24 c.value ++ [flagByte c.wrapped]

/-- R195: a read without clear. -/
def State.readCounter (m n : Nat) (s : State) : State :=
  match s.ctb.counter n with
  | none => s.refuse m .counterRead .badRequest 0
  | some c => s.report m (counterReport n c)

/-- COUNTER_READ (R195). -/
def execCounterRead (s : State) : Host.Outcome State Fault Refusal :=
  finish s (s.serve isCounterRead fun d s =>
    match d.message with
    | .counterRead n _ => s.readCounter d.src n
    | _ => s)

/-- The sender is a manager, or the delegate of the counter (R196, R197). -/
def State.ownsCounter (m : Nat) (c : Counter) (s : State) : Bool := s.isManager m || decide (c.delegate = some m)

/-- R196: a read with clear. The REPORT is composed, and the counter is cleared before the REPORT is handed, so that an
event of the handing counts on the cleared counter. -/
def State.clearCounter (m n : Nat) (s : State) : State :=
  match s.ctb.counter n with
  | none => s.refuse m .counterRead (if s.isManager m then .badRequest else .notPermitted) 0
  | some c =>
    if s.ownsCounter m c then
      (s.onCtb (Ctb.onCounter n fun c => { c with value := 0, wrapped := false })).report m (counterReport n c)
    else s.refuse m .counterRead .notPermitted 0

/-- COUNTER_READ_CLEAR (R196). -/
def execCounterReadClear (s : State) : Host.Outcome State Fault Refusal :=
  finish s (s.serve isCounterReadClear fun d s =>
    match d.message with
    | .counterRead n _ => s.clearCounter d.src n
    | _ => s)

/-- R197: a counter as a COUNTER_SET leaves it; the selections of counters 0 and 1 are fixed. -/
def Counter.set (n : Nat) (selection : Option Nat) (inhibit : Option Bool) (c : Counter) : Counter :=
  { c with
    selection := if n < 2 then c.selection else selection.getD c.selection
    inhibit := inhibit.getD c.inhibit }

/-- R197, R198: a COUNTER_SET; one that is a hint is dropped. -/
def State.setCounter (m n : Nat) (selection : Option Nat) (inhibit : Option Bool) (s : State) : State :=
  match s.ctb.counter n with
  | none => if s.isManager m then s.refuse m .counterSet .badRequest 0 else s
  | some c =>
    if s.ownsCounter m c then
      (s.onCtb (Ctb.onCounter n (Counter.set n selection inhibit))).done m .counterSet
    else s

/-- COUNTER_SET (R197). -/
def execCounterSet (s : State) : Host.Outcome State Fault Refusal :=
  finish s (s.serve isCounterSet fun d s =>
    match d.message with
    | .counterSet n selection inhibit => s.setCounter d.src n selection inhibit
    | _ => s)

/-- R199: a COUNTER_DELEGATE of a manager. -/
def State.delegateCounter (m n address : Nat) (s : State) : State :=
  if 7 < n ∨ 24 < address then s.refuse m .counterDelegate .badRequest 0
  else if address = 0 then
    (s.onCtb (Ctb.onCounter n fun c => { c with delegate := none })).done m .counterDelegate
  else if address ≠ s.ybi.ownAddress ∧ s.isPresent address then
    (s.onCtb (Ctb.onCounter n fun c => { c with delegate := some address })).done m .counterDelegate
  else s.refuse m .counterDelegate .targetAbsent 0

/-- COUNTER_DELEGATE (R199). -/
def execCounterDelegate (s : State) : Host.Outcome State Fault Refusal :=
  finish s (s.serve isCounterDelegate fun d s => s.asManager d fun s =>
    match d.message with
    | .counterDelegate n address => s.delegateCounter d.src n address
    | _ => s)

end Sys2Proof.Machine
end

