-- ==== Sys2Proof/Machine/SupplyCommands.lean ====
section
/-! DEFINITION. The supply commands (chapter 2): the two supply inputs and their debounce, the rail, and the timers of
the ring converter. -/

namespace Sys2Proof.Machine

open Sys2Proof

/-- MAINS_OK_CHANGE (R31): a raw change of the input. -/
def execMainsOkChange (level : Bool) (s : State) : Host.Outcome State Fault Refusal :=
  finish s ((s.onPins fun p => { p with mainsOk := level }).onSup fun p =>
    { p with mainsTimer := debounce level p.mainsOk s.now Config.mainsDebounceMs p.mainsTimer })

/-- MAINS_OK_DEBOUNCED (R31, R32): the input has held its new level. -/
def execMainsOkDebounced (s : State) : Host.Outcome State Fault Refusal :=
  finish s (s.onExpiry s.sup.mainsTimer fun s =>
    State.deriveSupply (s.onSup fun p => { p with mainsOk := s.pins.mainsOk, mainsTimer := none }))

/-- BATT_LOW_CHANGE (R31): a raw change of the input. -/
def execBattLowChange (asserted : Bool) (s : State) : Host.Outcome State Fault Refusal :=
  finish s ((s.onPins fun p => { p with battLow := asserted }).onSup fun p =>
    { p with battTimer := debounce asserted p.battLow s.now Config.battDebounceMs p.battTimer })

/-- BATT_LOW_DEBOUNCED (R31, R32): the input has held its new level. -/
def execBattLowDebounced (s : State) : Host.Outcome State Fault Refusal :=
  finish s (s.onExpiry s.sup.battTimer fun s =>
    State.deriveSupply (s.onSup fun p => { p with battLow := s.pins.battLow, battTimer := none }))

/-- R36: a step of the rail completes; the next one, if any, begins when the event settles. -/
def State.railArrives (r : RailStep) (s : State) : State :=
  (s.reach r.ends).onSup fun p => { p with railLevel := r.goal, railStep := none }

/-- RAIL_SETTLE_END (R36). -/
def execRailSettleEnd (s : State) : Host.Outcome State Fault Refusal :=
  finish s (match s.sup.railStep with | some r => s.railArrives r | none => s)

/-- CONVERTER_SETTLE_END (R38). -/
def execConverterSettleEnd (s : State) : Host.Outcome State Fault Refusal :=
  finish s (s.onExpiry s.sup.converter.settleTimer fun s =>
    s.onSup fun p => { p with converter := p.converter.settled p.supply s.now })

/-- CONVERTER_IDLE_EXPIRY (R38): the converter turns OFF. -/
def execConverterIdleExpiry (s : State) : Host.Outcome State Fault Refusal :=
  finish s (s.onExpiry s.sup.converter.idleTimer fun s =>
    s.onSup fun p => { p with converter := { p.converter with state := .off, burst := none, idleTimer := none } })

end Sys2Proof.Machine
end

