-- ==== Sys2Proof/Machine/LinkCommands.lean ====
section
/-! DEFINITION. The line link commands (chapter 3): training, failure and backoff, the overhead exchange in both
directions, and the payload port. -/

namespace Sys2Proof.Machine

open Sys2Proof

/-! ### Training (R42 to R46) -/

/-- R43: HANDSHAKE begins, with the upstream power of the training. -/
def State.beginHandshake (s : State) : State :=
  (s.onLle fun l =>
    { l with
      link := .handshake
      power := if s.ceiling = .high then .full else .cutback
      trainingBegan := s.now
      handshakeTimer := some (s.now + Config.handshakeMs) }).sayFar .wakeTones

/-- HANDSHAKE_START (R42, R43): effective when the conditions of R42 hold. -/
def execHandshakeStart (s : State) : Host.Outcome State Fault Refusal :=
  finish s (if s.mayTrain then s.beginHandshake else s)

/-- FAR_END_ANSWER (R43): effective in HANDSHAKE, discarded otherwise. -/
def execFarEndAnswer (s : State) : Host.Outcome State Fault Refusal :=
  finish s
    (if s.lle.link = .handshake then
      s.onLle fun l => { l with link := .probe, handshakeTimer := none, probeTimer := some (s.now + Config.probeMs) }
    else s)

/-- HANDSHAKE_TIMEOUT (R43). -/
def execHandshakeTimeout (s : State) : Host.Outcome State Fault Refusal :=
  finish s (s.onExpiry s.lle.handshakeTimer (State.trainingFailure .noFarEnd))

/-- R44: the measured SNR of the downstream tones becomes the recorded SNR, saturated. -/
def recordSnr (m : List Int) : List Nat := (List.range Config.downTones).map (fun i => saturate (m.getD i 0))

/-- R45, R75, R76: the choice that LOAD makes and sends. -/
def State.chooseLoad (s : State) : State :=
  let r := s.cfl.record
  let leak := s.leakage
  let e := chooseLift r leak s.lle.d s.lle.snr
  let normal := tableBits .normal r e leak s.lle.snr
  (s.onLle fun l =>
    { l with
      loadE := e
      normal := normal
      guard := tableBits .guard r e leak l.snr
      loadTimer := some (s.now + Config.loadMs) }).sayFar (.loadTables normal s.lle.d r.rateCap)

/-- R44, R45: PROBE ends, and the link enters LOAD; a net rate below the floor at lift 0 fails the training. -/
def State.endProbe (m : List Int) (s : State) : State :=
  let s := s.onLle fun l => { l with link := .load, probeTimer := none, snr := recordSnr m }
  if floorMet s.cfl.record s.leakage s.lle.d s.lle.snr then s.chooseLoad else s.trainingFailure .lowRate

/-- PROBE_END (R44, R45). -/
def execProbeEnd (snr : List Int) (s : State) : Host.Outcome State Fault Refusal :=
  finish s (s.onExpiry s.lle.probeTimer (State.endProbe snr))

/-- PROBE_SIGNAL_LOSS (R44): effective in PROBE. -/
def execProbeSignalLoss (s : State) : Host.Outcome State Fault Refusal :=
  finish s (if s.lle.link = .probe then s.trainingFailure .noFarEnd else s)

/-- R45: the far end's tables are checked, and the link enters SHOWTIME or fails. -/
def State.takeTables (normal guard : List Nat) (s : State) : State :=
  if badFarTable s.cfl.record.bmax normal || badFarTable s.cfl.record.bmax guard then s.trainingFailure .badFarTable
  else (s.onLle fun l => { l with upNormal := keepUp normal, upGuard := keepUp guard }).enterShowtime

/-- FAR_TABLES_RECEIVED (R45, R46): effective in LOAD. -/
def execFarTablesReceived (normal guard : List Nat) (s : State) : Host.Outcome State Fault Refusal :=
  finish s (if s.lle.link = .load then s.takeTables normal guard else s)

/-- LOAD_TIMEOUT (R45). -/
def execLoadTimeout (s : State) : Host.Outcome State Fault Refusal :=
  finish s (s.onExpiry s.lle.loadTimer (State.trainingFailure .loadTimeout))

/-- BACKOFF_EXPIRY (R48). -/
def execBackoffExpiry (s : State) : Host.Outcome State Fault Refusal :=
  finish s (s.onExpiry s.lle.backoffTimer (State.enterDown .none))

/-- R49: the attempt of LOCKOUT, held back while an intrusive item runs. -/
def State.lockoutEnds (s : State) : State :=
  if s.intrusiveRunning then s.onLle fun l => { l with lockoutTimer := none, attemptHeld := true }
  else s.enterDown .none

/-- LOCKOUT_EXPIRY (R49). -/
def execLockoutExpiry (s : State) : Host.Outcome State Fault Refusal :=
  finish s (s.onExpiry s.lle.lockoutTimer State.lockoutEnds)

/-! ### The overhead exchange (R57, R59) -/

/-- OVERHEAD_AGREE (R57): the far end agrees to the request of this number. -/
def execOverheadAgree (number : Nat) (s : State) : Host.Outcome State Fault Refusal :=
  finish s (s.takeAnswer number State.agreed)

/-- OVERHEAD_DECLINE (R57): the far end declines the request of this number. -/
def execOverheadDecline (number : Nat) (s : State) : Host.Outcome State Fault Refusal :=
  finish s (s.takeAnswer number State.declined)

/-- R57: the first expiry sends the request again, the second abandons it. -/
def State.overheadExpires (o : Outstanding) (s : State) : State :=
  if o.attempt = 1 then
    (s.onLle fun l => { l with slot := some { o with attempt := 2, deadline := s.now + Config.overheadMs } }).sayFar
      (.request o.number o.request (o.request.carried s.lle))
  else s.endRequest State.abandoned o

/-- OVERHEAD_TIMER_EXPIRY (R57). -/
def execOverheadTimerExpiry (s : State) : Host.Outcome State Fault Refusal :=
  finish s
    (match s.lle.slot with
    | some o => (s.reach o.deadline).overheadExpires o
    | none => s)

/-- R59: a far-end SWAP of an upstream group in the named table. -/
def State.farSwap (number : Nat) (table : TableName) (group : Nat) (bits : List Nat) (s : State) : State :=
  if farSwapOk s.cfl.record.bmax group bits then
    (s.onLle fun l =>
      match table with
      | .normal => { l with upNormal := setUpGroup l.upNormal group bits }
      | .guard => { l with upGuard := setUpGroup l.upGuard group bits }).answerFar number .agree
  else s.answerFar number .decline

/-- FAR_END_SWAP (R59). -/
def execFarEndSwap (number : Nat) (table : TableName) (group : Nat) (bits : List Nat) (s : State) :
    Host.Outcome State Fault Refusal :=
  finish s (s.takeFar number (State.farSwap number table group bits))

/-- FAR_END_SWITCH (R59): always agreed. -/
def execFarEndSwitch (number : Nat) (table : TableName) (s : State) : Host.Outcome State Fault Refusal :=
  finish s (s.takeFar number fun s => (s.onLle fun l => { l with upInForce := some table }).answerFar number .agree)

/-- FAR_END_RETRAIN (R59): a drop with reason FORCED; no answer is sent. -/
def execFarEndRetrain (number : Nat) (s : State) : Host.Outcome State Fault Refusal :=
  finish s (s.takeFar number (State.enterDown .forced))

/-! ### The payload port (R63, R64) -/

/-- R64: a frame that the port accepts. -/
def Plp.accept (payload : List Byte) (p : Plp) : Plp :=
  if p.ready then
    { p with queue := p.queue ++ [payload], ready := decide (p.queue.length + 1 < Config.payloadCapacity) }
  else p

/-- PAYLOAD_FRAME_OFFERED (R64). -/
def execPayloadFrameOffered (payload : List Byte) (s : State) : Host.Outcome State Fault Refusal :=
  finish s (if s.lle.link = .showtime then s.onPlp (Plp.accept payload) else s)

/-- PAYLOAD_FRAME_SENT (R64): the oldest frame leaves for the link. -/
def execPayloadFrameSent (s : State) : Host.Outcome State Fault Refusal :=
  finish s
    (if s.lle.link = .showtime then
      s.onPlp fun p =>
        match p.queue with
        | [] => p
        | _ :: rest => { p with queue := rest, ready := decide (rest.length < Config.payloadCapacity) }
    else s)

end Sys2Proof.Machine
end

