-- ==== Sys2Proof/Machine/SyncCommands.lean ====
section
/-! DEFINITION. The commands of showtime (chapter 5): refreshes, the guard timers, impulses, codewords, seconds, the
far end's signal and the margin watch. -/

namespace Sys2Proof.Machine

open Sys2Proof

/-- R81: an expiry of the refresh interval timer. -/
def State.refreshDue (m : List Int) (s : State) : State :=
  let s := s.onSync fun y => { y with refreshTimer := restart y.refreshTimer Config.refreshMs }
  if s.lle.refreshAllowed then s.refresh true m else s.defer

/-- REFRESH_TIMER_EXPIRY (R81): with the receiver's SNR of the group at the pointer. -/
def execRefreshTimerExpiry (measured : List Int) (s : State) : Host.Outcome State Fault Refusal :=
  finish s (s.onExpiry s.lle.sync.refreshTimer (State.refreshDue measured))

/-- CATCH_UP_EXPIRY (R82): with the receiver's SNR of the group at the pointer. -/
def execCatchUpExpiry (measured : List Int) (s : State) : Host.Outcome State Fault Refusal :=
  finish s (s.onExpiry s.lle.sync.catchUpTimer fun s =>
    (s.onSync fun y => { y with catchUpTimer := none }).refresh false measured)

/-- GUARD_EXIT (R93): the exit timer expires. -/
def execGuardExit (s : State) : Host.Outcome State Fault Refusal :=
  finish s (s.onExpiry s.lle.sync.guardTimer fun s =>
    (s.onSync fun y => { y with guard := .clear, guardTimer := none }).alignTable)

/-- SWITCH_RETRY_EXPIRY (R95). -/
def execSwitchRetryExpiry (s : State) : Host.Outcome State Fault Refusal :=
  finish s (s.onExpiry s.lle.sync.switchRetryTimer fun s =>
    (s.onSync fun y => { y with switchRetryTimer := none }).alignTable)

/-- R96: an impulse event, its length saturated at 32. The symbol count has reached its first damaged symbol. The
event is counted before PREDICTED_IMPULSE_HIT (log entry 109) and before FENCE_IMPULSE changes (log entry 105). -/
def State.takeImpulse (i : Impulse) (s : State) : State :=
  let s := s.signal .impulseEvent
  let s := s.onSync fun y =>
    { y with symbolCount := max y.symbolCount i.start, impulses := listImpulse i y.impulses, shieldRefused := false }
  (s.lockRules i).recomputeDepth

/-- IMPULSE_EVENT (R96): effective in SHOWTIME. -/
def execImpulseEvent (start length : Nat) (s : State) : Host.Outcome State Fault Refusal :=
  finish s (if s.lle.link = .showtime then s.takeImpulse { start := start, length := min 32 length } else s)

/-- PREDICTION_MISS (R98): the symbol count passes the end of the window. -/
def execPredictionMiss (s : State) : Host.Outcome State Fault Refusal :=
  finish s
    (match s.lle.sync.lock with
    | some k =>
      (s.onSync fun y => { y with symbolCount := max y.symbolCount (k.windowEnd + 1) }).missPrediction k
    | none => s)

/-- CORRECTED_CODEWORD (R101). -/
def execCorrectedCodeword (s : State) : Host.Outcome State Fault Refusal :=
  finish s (s.codeword .correctedCodeword fun y => { y with corrected := y.corrected + 1 })

/-- UNCORRECTED_CODEWORD (R101). -/
def execUncorrectedCodeword (s : State) : Host.Outcome State Fault Refusal :=
  finish s (s.codeword .uncorrectedCodeword fun y => { y with uncorrected := y.uncorrected + 1 })

/-- SECOND_TIMER_EXPIRY (R101, R102). -/
def execSecondTimerExpiry (s : State) : Host.Outcome State Fault Refusal :=
  finish s (s.onExpiry s.lle.sync.secondTimer fun s =>
    State.endSecond (s.onSync fun y => { y with secondTimer := restart y.secondTimer Config.secondMs }))

/-- SIGNAL_ABSENT (R101, R103): effective in SHOWTIME. -/
def execSignalAbsent (s : State) : Host.Outcome State Fault Refusal :=
  finish s
    (if s.lle.link = .showtime then
      s.onSync fun y =>
        { y with
          signalAbsent := true
          absentThisSecond := true
          signalTimer := if y.signalTimer.isSome then y.signalTimer else some (s.now + Config.signalLossMs) }
    else s)

/-- SIGNAL_PRESENT (R103): effective in SHOWTIME. -/
def execSignalPresent (s : State) : Host.Outcome State Fault Refusal :=
  finish s
    (if s.lle.link = .showtime then s.onSync fun y => { y with signalAbsent := false, signalTimer := none } else s)

/-- LOSS_OF_SIGNAL_EXPIRY (R103): the drop, and the automatic check of both voltage items becomes due (R170). -/
def execLossOfSignalExpiry (s : State) : Host.Outcome State Fault Refusal :=
  finish s (s.onExpiry s.lle.sync.signalTimer fun s =>
    (s.drop .lossOfSignal).onLth fun l => { l with voltageDue := true, lineVoltageDue := true })

/-- R104: the margin watch timer expires. -/
def State.marginWatchEnds (s : State) : State :=
  match s.lle.sync.marginWatch with
  | .falling => (s.onSync fun y => { y with marginWatch := .low, marginTimer := none }).raise .linkLowMargin .line
  | .rising => (s.onSync fun y => { y with marginWatch := .ok, marginTimer := none }).makeInactive .linkLowMargin .line
  | _ => s

/-- MARGIN_WATCH_EXPIRY (R104). -/
def execMarginWatchExpiry (s : State) : Host.Outcome State Fault Refusal :=
  finish s (s.onExpiry s.lle.sync.marginTimer State.marginWatchEnds)

end Sys2Proof.Machine
end

