-- ==== Sys2Proof/Machine/PortCommands.lean ====
section
/-! DEFINITION. The commands of the house ports (R107 to R118). -/

namespace Sys2Proof.Machine

open Sys2Proof

/-! ### The loop (R107) -/

/-- R107: a break of a port has passed 800 ms. -/
def State.breakLapsed (p : Port) (s : State) : Bool :=
  match (s.port p).state with
  | .onHook => false
  | .ringing => false
  | .outOfService => false
  | _ => (s.port p).breakStart.any fun b => decide (b + Config.onHookBreakMs < s.now)

/-- R107: a break that has passed 800 ms is an on-hook, also when its closing is the first to tell: the port goes on the
hook, with what follows that event, before the closed loop is taken (log entry 40). -/
def State.lateOnHook (p : Port) (s : State) : State :=
  if s.fed p && s.breakLapsed p then (s.takeOnHook p).settle s else s

/-- R107: a debounced closing of the loop of a fed port. -/
def State.loopClosed (p : Port) (s : State) : State :=
  match (s.port p).state with
  | .onHook => s.takeOffHook p
  | .ringing => s.takeOffHook p
  | .outOfService => s
  | _ =>
    match (s.port p).breakStart with
    | none => s
    | some b => s.closeBreak p b

/-- PORT_LOOP_CLOSED (R107): effective on a fed port; after a late on-hook it is the off-hook of a port that is still
fed. -/
def execPortLoopClosed (port : Port) (s : State) : Host.Outcome State Fault Refusal :=
  let t := s.lateOnHook port
  finish t (if t.fed port then t.loopClosed port else t)

/-- PORT_LOOP_OPENED (R107): a break of an off-hook port begins; the pause of a digit in progress waits for its
closing (R108). -/
def execPortLoopOpened (port : Port) (s : State) : Host.Outcome State Fault Refusal :=
  finish s
    (if s.fed port ∧ (s.port port).offHook ∧ (s.port port).breakStart.isNone then
      s.onPort port fun r => { r with breakStart := some s.now, pauseTimer := none }
    else s)

/-- PORT_ON_HOOK (R107, R115): the break passes 800 ms. -/
def execPortOnHook (port : Port) (s : State) : Host.Outcome State Fault Refusal :=
  finish s
    (if s.fed port then
      s.onExpiry ((s.port port).breakStart.map (· + Config.onHookBreakMs)) (fun s => s.takeOnHook port)
    else s)

/-! ### Digits (R108, R109) -/

/-- DIGIT_PAUSE_EXPIRY (R108). -/
def execDigitPauseExpiry (port : Port) (s : State) : Host.Outcome State Fault Refusal :=
  finish s (s.onExpiry (s.port port).pauseTimer (State.endPulses port))

/-- The digit of a key; none for star and hash (R109). -/
def keyDigit : DtmfKey → Option Nat
  | .digit d => some d.val
  | .star => none
  | .hash => none

/-- DTMF_DIGIT (R109): effective in DIALTONE and COLLECTING. -/
def execDtmfDigit (port : Port) (key : DtmfKey) (s : State) : Host.Outcome State Fault Refusal :=
  finish s (s.takeDigit port (keyDigit key))

/-- FIRST_DIGIT_WINDOW_EXPIRY (R111). -/
def execFirstDigitWindowExpiry (port : Port) (s : State) : Host.Outcome State Fault Refusal :=
  finish s (s.onExpiry (s.port port).firstDigitTimer (State.firstWindowEnds port))

/-- INTER_DIGIT_EXPIRY (R112): tone ERROR, and back to DIALTONE with the window closed. -/
def execInterDigitExpiry (port : Port) (s : State) : Host.Outcome State Fault Refusal :=
  finish s (s.onExpiry (s.port port).interDigitTimer fun s => s.onPort port (PortRec.toDialtone .error))

/-- POST_FLASH_WINDOW_EXPIRY (R114). -/
def execPostFlashWindowExpiry (port : Port) (s : State) : Host.Outcome State Fault Refusal :=
  finish s (s.onExpiry (s.port port).postFlashTimer (State.postFlashEnds port))

/-! ### Off-hook too long (R116) -/

/-- OFF_HOOK_TIMER_EXPIRY (R111, R116). -/
def execOffHookTimerExpiry (port : Port) (s : State) : Host.Outcome State Fault Refusal :=
  finish s (s.onExpiry (s.port port).offHookTimer (State.enterHowler port))

/-- HOWLER_TIMER_EXPIRY (R116). -/
def execHowlerTimerExpiry (port : Port) (s : State) : Host.Outcome State Fault Refusal :=
  finish s (s.onExpiry (s.port port).howlerTimer fun s =>
    (s.onPort port fun r => { r with state := .lockedOff, tone := .none, howlerTimer := none }).raise .portOffhookLock
      (.port port))

/-! ### Ringer and current (R117, R118) -/

/-- NO_LOAD_TIMER_EXPIRY (R117): a check begins. -/
def execNoLoadTimerExpiry (port : Port) (s : State) : Host.Outcome State Fault Refusal :=
  finish s (s.onExpiry (s.port port).noLoadTimer (State.beginCheck port))

/-- NO_LOAD_CHECK_DONE (R117): with what the check has found. -/
def execNoLoadCheckDone (port : Port) (ringerFound : Bool) (s : State) : Host.Outcome State Fault Refusal :=
  finish s (s.onExpiry (s.port port).noLoadCheck (State.endCheck port ringerFound))

/-- The loop current of a port as last seen. -/
def Pins.current (p : Pins) : Port → Nat
  | .a => p.currentA
  | .b => p.currentB

def Pins.setCurrent (port : Port) (milliamp : Nat) (p : Pins) : Pins :=
  match port with
  | .a => { p with currentA := milliamp }
  | .b => { p with currentB := milliamp }

/-- R118: the timer follows a current that crosses 18 mA. -/
def State.takeCurrent (port : Port) (milliamp : Nat) (s : State) : State :=
  let crosses := decide (s.pins.current port < 18) != decide (milliamp < 18)
  let s := s.onPins (Pins.setCurrent port milliamp)
  if crosses then s.watchCurrent port else s

/-- LOOP_CURRENT_CHANGE (R118). -/
def execLoopCurrentChange (port : Port) (milliamp : Nat) (s : State) : Host.Outcome State Fault Refusal :=
  finish s (s.takeCurrent port milliamp)

/-- LOW_CURRENT_EXPIRY (R118). -/
def execLowCurrentExpiry (port : Port) (s : State) : Host.Outcome State Fault Refusal :=
  finish s (s.onExpiry (s.port port).lowCurrentTimer fun s =>
    (s.onPort port fun r => { r with lowCurrentTimer := none }).raise .portLowCurrent (.port port))

end Sys2Proof.Machine
end

