-- ==== Sys2Proof/Machine/LineCommands.lean ====
section
/-! DEFINITION. The commands of the outside line, of the repeat queue and of the cadences (R119 to R127). -/

namespace Sys2Proof.Machine

open Sys2Proof

/-! ### Voltage (R120, R121) -/

/-- LINE_VOLTAGE_CHANGE (R120). -/
def execLineVoltageChange (millivolt : Nat) (s : State) : Host.Outcome State Fault Refusal :=
  finish s (s.onPins fun p => { p with lineMillivolt := millivolt }).senseVoltage

/-- OFF_HOOK_BAND_HELD (R120): the line goes PARALLEL, which ends a ringing (R122). -/
def execOffHookBandHeld (s : State) : Host.Outcome State Fault Refusal :=
  finish s (s.onExpiry s.vsw.offHookBandTimer (State.endRinging .parallel))

/-- ON_HOOK_BAND_HELD (R120): the line leaves PARALLEL for IDLE. -/
def execOnHookBandHeld (s : State) : Host.Outcome State Fault Refusal :=
  finish s (s.onExpiry s.vsw.onHookBandTimer (State.setLine .idle))

/-- NO_FEED_EXPIRY (R121): LOOP_OPEN is raised, and the line enters OUT. -/
def execNoFeedExpiry (s : State) : Host.Outcome State Fault Refusal :=
  finish s (s.onExpiry s.vsw.noFeedTimer fun s =>
    ((s.onVsw fun v => { v with noFeedTimer := none }).raise .loopOpen .line).handOverLine)

/-- R121: the feed has stood for 1 s. -/
def State.feedStands (s : State) : State :=
  let s := s.onVsw fun v => { v with feedTimer := none }
  if s.faultActive .foreignVoltageHigh .line then s else (s.makeInactive .loopOpen .line).handOverLine

/-- FEED_RESTORED (R121). -/
def execFeedRestored (s : State) : Host.Outcome State Fault Refusal :=
  finish s (s.onExpiry s.vsw.feedTimer State.feedStands)

/-! ### Ringing (R122, R124) -/

/-- RINGING_VOLTAGE_CHANGE (R122). -/
def execRingingVoltageChange (present : Bool) (s : State) : Host.Outcome State Fault Refusal :=
  finish s (s.onPins fun p => { p with ringing := present }).senseRinging

/-- R122: a burst begins in RING_IN. -/
def State.burstBegins (s : State) : State :=
  (s.onVsw fun v => { v with inBurst := true, burstOnTimer := none, ringEndTimer := none }).senseRinging

/-- R122: a burst is detected: the first in IDLE begins RING_IN, and the CCT is told of the ring start (R154) after the
LINE_STATUS (log entry 108). -/
def State.takeBurst (s : State) : State :=
  match s.vsw.line with
  | .idle => ((s.setLine .ringIn).burstBegins).ringStart
  | .ringIn => s.burstBegins
  | _ => s

/-- RING_BURST_DETECTED (R122): effective in IDLE and RING_IN. -/
def execRingBurstDetected (s : State) : Host.Outcome State Fault Refusal :=
  finish s
    (if s.vsw.line = .idle ∨ s.vsw.line = .ringIn then s.onExpiry s.vsw.burstOnTimer State.takeBurst else s)

/-- RING_BURST_END (R122): the ring-end timer starts. -/
def execRingBurstEnd (s : State) : Host.Outcome State Fault Refusal :=
  finish s (s.onExpiry s.vsw.burstOffTimer fun s =>
    (s.onVsw fun v =>
      { v with inBurst := false, burstOffTimer := none, ringEndTimer := some (s.now + Config.ringEndMs) }).senseRinging)

/-- RING_END_TIMEOUT (R122). -/
def execRingEndTimeout (s : State) : Host.Outcome State Fault Refusal :=
  finish s (s.onExpiry s.vsw.ringEndTimer (State.endRinging .idle))

/-- TEST_RING_DETECTED (R124, R169): ringing held 150 ms in TEST. -/
def execTestRingDetected (s : State) : Host.Outcome State Fault Refusal :=
  finish s
    (if s.vsw.line = .test then
      s.onExpiry s.vsw.burstOnTimer fun s => (s.onVsw fun v => { v with burstOnTimer := none }).abortSurvey
    else s)

/-! ### Release, outpulsing, cadence -/

/-- RELEASE_GUARD_EXPIRY (R119): the line enters OUT or IDLE. -/
def execReleaseGuardExpiry (s : State) : Host.Outcome State Fault Refusal :=
  finish s (s.onExpiry s.vsw.releaseTimer fun s => s.setLine s.restingLine)

/-- OUTPULSE_TIMER_EXPIRY (R123). -/
def execOutpulseTimerExpiry (s : State) : Host.Outcome State Fault Refusal :=
  finish s
    (match s.vsw.outpulse with
    | some o => (s.reach o.ends).onVsw (Vsw.advanceOutpulse o)
    | none => s)

/-- R127: the next phase of an episode. -/
def Episode.next (c : Cadence) (e : Episode) : Episode :=
  { e with phase := e.phase + 1, timer := restart e.timer (phaseMs c (e.phase + 1)) }

/-- CADENCE_PHASE_EXPIRY (R127): the ring demand is made when the event settles. -/
def execCadencePhaseExpiry (callId : Nat) (s : State) : Host.Outcome State Fault Refusal :=
  finish s
    (s.onExpiry ((s.vsw.episodes.find? (fun e => e.callId == callId && e.timer.isSome)).bind (·.timer)) fun s =>
      s.onVsw fun v =>
        { v with
          episodes := v.episodes.map (fun e =>
            if e.callId = callId ∧ e.timer.isSome then e.next s.cfl.record.cadence else e) })

end Sys2Proof.Machine
end

