-- ==== Sys2Proof/Machine/SurveyCommands.lean ====
section
/-! DEFINITION. The commands of the Loop Test Head (chapter 8), and the flash of the fault lamp (R182). -/

namespace Sys2Proof.Machine

open Sys2Proof

/-- R164, R165: the phase the running survey waits for begins with its first item. -/
def State.beginPhase (s : State) : State :=
  match s.lth.stage, s.lth.running with
  | .waitVoltage, some r =>
    match r.remaining.find? Item.isVoltage with
    | some i => s.beginVoltage i
    | none => s
  | .waitMetallic, some r =>
    match r.remaining.find? Item.intrusive with
    | some i => s.beginMetallic r.allowDrop i
    | none => s
  | _, _ => s

/-- SURVEY_PHASE_START (R164, R165): effective when the conditions of the phase hold. -/
def execSurveyPhaseStart (s : State) : Host.Outcome State Fault Refusal :=
  finish s (if s.phaseReady then s.beginPhase else s)

/-- R170: the items due, in the order of section 8.1. -/
def Lth.dueItems (l : Lth) : List Item :=
  (if l.voltageDue then [.foreignVoltage] else []) ++ (if l.lineVoltageDue then [.lineVoltage] else [])

/-- R170: an automatic check takes the running slot, and its voltage phase begins at once. -/
def State.startCheck (i : Item) (items : List Item) (s : State) : State :=
  let r : Survey := { originator := none, items := items, allowDrop := false, merged := [], ended := [] }
  (s.startSurvey r).beginVoltage i

/-- AUTOMATIC_CHECK_START (R170): effective when an item is due, both slots are empty and the conditions of the voltage
phase hold. -/
def execAutomaticCheckStart (s : State) : Host.Outcome State Fault Refusal :=
  finish s
    (match s.lth.dueItems with
    | i :: l =>
      if s.lth.running.isNone ∧ s.lth.pending.isNone ∧ s.voltageReady then s.startCheck i (i :: l) else s
    | [] => s)

/-- ITEM_TIMER_EXPIRY (R162): with what the loop shows to the measurement. -/
def execItemTimerExpiry (readings : LoopReadings) (s : State) : Host.Outcome State Fault Refusal :=
  finish s
    (match s.lth.stage with
    | .item i => s.onExpiry s.lth.itemTimer (State.completeItem i readings)
    | _ => s)

/-- R166: the line leaves TEST, the deferred claims are decided, and the request goes on or ends. -/
def State.restored (s : State) : State :=
  State.continueSurvey 2 ((s.onLth fun l => { l with restoreTimer := none }).leaveTest)

/-- RESTORE_TIMER_EXPIRY (R166). -/
def execRestoreTimerExpiry (s : State) : Host.Outcome State Fault Refusal :=
  finish s (s.onExpiry s.lth.restoreTimer State.restored)

/-- WAIT_TIMER_EXPIRY (R167): every item not yet ended ends NOT_RUN. -/
def execWaitTimerExpiry (s : State) : Host.Outcome State Fault Refusal :=
  finish s (s.onExpiry s.lth.waitTimer fun s => State.continueSurvey 2 (s.onRunning fun r => r.endAll r.remaining))

/-- HOLD_OFF_EXPIRY (R169). -/
def execHoldOffExpiry (s : State) : Host.Outcome State Fault Refusal :=
  finish s (s.onExpiry s.lth.holdOffTimer fun s =>
    s.onLth fun l => { l with holdOff := false, holdOffTimer := none })

/-- PERIODIC_CHECK_EXPIRY (R170). -/
def execPeriodicCheckExpiry (s : State) : Host.Outcome State Fault Refusal :=
  finish s (s.onExpiry s.lth.periodicTimer fun s =>
    s.onLth fun l => { l with voltageDue := true, periodicTimer := restart l.periodicTimer Config.periodicMs })

/-- RECHECK_TIMER_EXPIRY (R170, R171). -/
def execRecheckTimerExpiry (s : State) : Host.Outcome State Fault Refusal :=
  finish s (s.onExpiry s.lth.recheckTimer fun s =>
    s.onLth fun l => { l with voltageDue := true, recheckTimer := restart l.recheckTimer Config.recheckMs })

/-- LAMP_FLASH_TOGGLE (R182). -/
def execLampFlashToggle (s : State) : Host.Outcome State Fault Refusal :=
  finish s (s.onExpiry s.flt.flashTimer fun s =>
    s.onFlt fun f => { f with lit := !f.lit, flashTimer := restart f.flashTimer Config.flashMs })

end Sys2Proof.Machine
end

