-- ==== Sys2Proof/Machine/Dispatch.lean ====
section
/-! DEFINITION. The one match on a command: each arm calls the meaning of its row. -/

namespace Sys2Proof.Machine

open Sys2Proof

/-- The effect of a command on everything but the queue of commands. -/
def exec (i : Instr) (s : State) : Host.Outcome State Fault Refusal :=
  match i with
  | .deviceReset straps mainsOk battLow => Sys2Proof.Machine.execDeviceReset straps mainsOk battLow s
  | .configReadDone memory => Sys2Proof.Machine.execConfigReadDone memory s
  | .listenTimerExpiry => Sys2Proof.Machine.execListenTimerExpiry s
  | .frameReceived low wire => Sys2Proof.Machine.execFrameReceived low wire s
  | .ownSlotBegins cls => Sys2Proof.Machine.execOwnSlotBegins cls s
  | .frameSent => Sys2Proof.Machine.execFrameSent s
  | .collision => Sys2Proof.Machine.execCollision s
  | .yieldEnd => Sys2Proof.Machine.execYieldEnd s
  | .backlogTimerExpiry => Sys2Proof.Machine.execBacklogTimerExpiry s
  | .presenceTimerExpiry => Sys2Proof.Machine.execPresenceTimerExpiry s
  | .presenceAgeing => Sys2Proof.Machine.execPresenceAgeing s
  | .stationAbsent station => Sys2Proof.Machine.execStationAbsent station s
  | .hookOn => Sys2Proof.Machine.execHookOn s
  | .hookFlash => Sys2Proof.Machine.execHookFlash s
  | .claimOutside => Sys2Proof.Machine.execClaimOutside s
  | .claimOutsideAny => Sys2Proof.Machine.execClaimOutsideAny s
  | .claimAnswer => Sys2Proof.Machine.execClaimAnswer s
  | .claimIntercom => Sys2Proof.Machine.execClaimIntercom s
  | .claimJoin => Sys2Proof.Machine.execClaimJoin s
  | .take => Sys2Proof.Machine.execTake s
  | .hold => Sys2Proof.Machine.execHold s
  | .retrieve => Sys2Proof.Machine.execRetrieve s
  | .release => Sys2Proof.Machine.execRelease s
  | .overheardGrant => Sys2Proof.Machine.execOverheardGrant s
  | .overheardTake => Sys2Proof.Machine.execOverheardTake s
  | .grantDeadlineExpiry station => Sys2Proof.Machine.execGrantDeadlineExpiry station s
  | .pendingAnyExpiry station => Sys2Proof.Machine.execPendingAnyExpiry station s
  | .intercomRingExpiry callId => Sys2Proof.Machine.execIntercomRingExpiry callId s
  | .holdAgeRecall callId => Sys2Proof.Machine.execHoldAgeRecall callId s
  | .recallRetryExpiry callId => Sys2Proof.Machine.execRecallRetryExpiry callId s
  | .holdAgeRelease callId => Sys2Proof.Machine.execHoldAgeRelease callId s
  | .clearingGuardExpiry callId => Sys2Proof.Machine.execClearingGuardExpiry callId s
  | .queryLink => Sys2Proof.Machine.execQueryLink s
  | .queryLoopRecord => Sys2Proof.Machine.execQueryLoopRecord s
  | .queryFaultSummary => Sys2Proof.Machine.execQueryFaultSummary s
  | .queryFaultAll => Sys2Proof.Machine.execQueryFaultAll s
  | .queryFaultActive => Sys2Proof.Machine.execQueryFaultActive s
  | .queryPresenceTable => Sys2Proof.Machine.execQueryPresenceTable s
  | .queryConfiguration => Sys2Proof.Machine.execQueryConfiguration s
  | .test => Sys2Proof.Machine.execTest s
  | .linkControlHold => Sys2Proof.Machine.execLinkControlHold s
  | .linkControlRelease => Sys2Proof.Machine.execLinkControlRelease s
  | .linkControlRetrain => Sys2Proof.Machine.execLinkControlRetrain s
  | .clearRetry => Sys2Proof.Machine.execClearRetry s
  | .clearFaults => Sys2Proof.Machine.execClearFaults s
  | .counterRead => Sys2Proof.Machine.execCounterRead s
  | .counterReadClear => Sys2Proof.Machine.execCounterReadClear s
  | .counterSet => Sys2Proof.Machine.execCounterSet s
  | .counterDelegate => Sys2Proof.Machine.execCounterDelegate s
  | .mainsOkChange level => Sys2Proof.Machine.execMainsOkChange level s
  | .mainsOkDebounced => Sys2Proof.Machine.execMainsOkDebounced s
  | .battLowChange asserted => Sys2Proof.Machine.execBattLowChange asserted s
  | .battLowDebounced => Sys2Proof.Machine.execBattLowDebounced s
  | .railSettleEnd => Sys2Proof.Machine.execRailSettleEnd s
  | .converterSettleEnd => Sys2Proof.Machine.execConverterSettleEnd s
  | .converterIdleExpiry => Sys2Proof.Machine.execConverterIdleExpiry s
  | .handshakeStart => Sys2Proof.Machine.execHandshakeStart s
  | .farEndAnswer => Sys2Proof.Machine.execFarEndAnswer s
  | .handshakeTimeout => Sys2Proof.Machine.execHandshakeTimeout s
  | .probeEnd snr => Sys2Proof.Machine.execProbeEnd snr s
  | .probeSignalLoss => Sys2Proof.Machine.execProbeSignalLoss s
  | .farTablesReceived normal guard => Sys2Proof.Machine.execFarTablesReceived normal guard s
  | .loadTimeout => Sys2Proof.Machine.execLoadTimeout s
  | .backoffExpiry => Sys2Proof.Machine.execBackoffExpiry s
  | .lockoutExpiry => Sys2Proof.Machine.execLockoutExpiry s
  | .overheadAgree number => Sys2Proof.Machine.execOverheadAgree number s
  | .overheadDecline number => Sys2Proof.Machine.execOverheadDecline number s
  | .overheadTimerExpiry => Sys2Proof.Machine.execOverheadTimerExpiry s
  | .farEndSwap number table group bits => Sys2Proof.Machine.execFarEndSwap number table group bits s
  | .farEndSwitch number table => Sys2Proof.Machine.execFarEndSwitch number table s
  | .farEndRetrain number => Sys2Proof.Machine.execFarEndRetrain number s
  | .payloadFrameOffered payload => Sys2Proof.Machine.execPayloadFrameOffered payload s
  | .payloadFrameSent => Sys2Proof.Machine.execPayloadFrameSent s
  | .refreshTimerExpiry measured => Sys2Proof.Machine.execRefreshTimerExpiry measured s
  | .catchUpExpiry measured => Sys2Proof.Machine.execCatchUpExpiry measured s
  | .guardExit => Sys2Proof.Machine.execGuardExit s
  | .switchRetryExpiry => Sys2Proof.Machine.execSwitchRetryExpiry s
  | .impulseEvent start length => Sys2Proof.Machine.execImpulseEvent start length s
  | .predictionMiss => Sys2Proof.Machine.execPredictionMiss s
  | .correctedCodeword => Sys2Proof.Machine.execCorrectedCodeword s
  | .uncorrectedCodeword => Sys2Proof.Machine.execUncorrectedCodeword s
  | .secondTimerExpiry => Sys2Proof.Machine.execSecondTimerExpiry s
  | .signalAbsent => Sys2Proof.Machine.execSignalAbsent s
  | .signalPresent => Sys2Proof.Machine.execSignalPresent s
  | .lossOfSignalExpiry => Sys2Proof.Machine.execLossOfSignalExpiry s
  | .marginWatchExpiry => Sys2Proof.Machine.execMarginWatchExpiry s
  | .portLoopClosed port => Sys2Proof.Machine.execPortLoopClosed port s
  | .portLoopOpened port => Sys2Proof.Machine.execPortLoopOpened port s
  | .portOnHook port => Sys2Proof.Machine.execPortOnHook port s
  | .digitPauseExpiry port => Sys2Proof.Machine.execDigitPauseExpiry port s
  | .dtmfDigit port key => Sys2Proof.Machine.execDtmfDigit port key s
  | .firstDigitWindowExpiry port => Sys2Proof.Machine.execFirstDigitWindowExpiry port s
  | .interDigitExpiry port => Sys2Proof.Machine.execInterDigitExpiry port s
  | .postFlashWindowExpiry port => Sys2Proof.Machine.execPostFlashWindowExpiry port s
  | .offHookTimerExpiry port => Sys2Proof.Machine.execOffHookTimerExpiry port s
  | .howlerTimerExpiry port => Sys2Proof.Machine.execHowlerTimerExpiry port s
  | .noLoadTimerExpiry port => Sys2Proof.Machine.execNoLoadTimerExpiry port s
  | .noLoadCheckDone port ringerFound => Sys2Proof.Machine.execNoLoadCheckDone port ringerFound s
  | .loopCurrentChange port milliamp => Sys2Proof.Machine.execLoopCurrentChange port milliamp s
  | .lowCurrentExpiry port => Sys2Proof.Machine.execLowCurrentExpiry port s
  | .lineVoltageChange millivolt => Sys2Proof.Machine.execLineVoltageChange millivolt s
  | .offHookBandHeld => Sys2Proof.Machine.execOffHookBandHeld s
  | .onHookBandHeld => Sys2Proof.Machine.execOnHookBandHeld s
  | .noFeedExpiry => Sys2Proof.Machine.execNoFeedExpiry s
  | .feedRestored => Sys2Proof.Machine.execFeedRestored s
  | .ringingVoltageChange present => Sys2Proof.Machine.execRingingVoltageChange present s
  | .ringBurstDetected => Sys2Proof.Machine.execRingBurstDetected s
  | .ringBurstEnd => Sys2Proof.Machine.execRingBurstEnd s
  | .ringEndTimeout => Sys2Proof.Machine.execRingEndTimeout s
  | .releaseGuardExpiry => Sys2Proof.Machine.execReleaseGuardExpiry s
  | .outpulseTimerExpiry => Sys2Proof.Machine.execOutpulseTimerExpiry s
  | .cadencePhaseExpiry callId => Sys2Proof.Machine.execCadencePhaseExpiry callId s
  | .testRingDetected => Sys2Proof.Machine.execTestRingDetected s
  | .surveyPhaseStart => Sys2Proof.Machine.execSurveyPhaseStart s
  | .automaticCheckStart => Sys2Proof.Machine.execAutomaticCheckStart s
  | .itemTimerExpiry readings => Sys2Proof.Machine.execItemTimerExpiry readings s
  | .restoreTimerExpiry => Sys2Proof.Machine.execRestoreTimerExpiry s
  | .waitTimerExpiry => Sys2Proof.Machine.execWaitTimerExpiry s
  | .holdOffExpiry => Sys2Proof.Machine.execHoldOffExpiry s
  | .periodicCheckExpiry => Sys2Proof.Machine.execPeriodicCheckExpiry s
  | .recheckTimerExpiry => Sys2Proof.Machine.execRecheckTimerExpiry s
  | .lampFlashToggle => Sys2Proof.Machine.execLampFlashToggle s
  | .anotherStationStartBit => Sys2Proof.Machine.execAnotherStationStartBit s

end Sys2Proof.Machine
end

