-- ==== Sys2Proof/Safety.lean ====
section
/-! DEFINITION. What every run keeps: the capacities and the fixed relations the manual states of each block, and the
limit on ringing. -/

namespace Sys2Proof.Machine

open Sys2Proof

/-! ### The capacities -/

/-- R27: every numeric field of the record in force lies in its range. -/
def ConfigRecord.inRange (r : ConfigRecord) : Bool :=
  decide (12 ≤ r.targetMargin) && decide (r.targetMargin ≤ 64) && decide (r.minMargin ≤ r.targetMargin) &&
    decide (256 ≤ r.rateCap) && decide (r.rateCap ≤ 15000) && decide (r.rateFloor ≤ r.rateCap) &&
    decide (64 ≤ r.rateFloor) && decide (r.rateFloor ≤ 4096) && decide (2 ≤ r.bmax) && decide (r.bmax ≤ 12) &&
    decide (r.dInit ≤ r.dMax) && decide (r.dMax ≤ 4) && decide (r.guardAllowance ≤ 32) &&
    decide (1 ≤ r.unitsA) && decide (r.unitsA ≤ 3) && decide (1 ≤ r.unitsB) && decide (r.unitsB ≤ 3) &&
    decide (r.management.length = 4) && r.management.all (fun n => decide (n ≤ 24))

/-- R7, R8, R14, R15: the queues, the receive buffer and the presence table. -/
def Ybi.fits (y : Ybi) : Bool :=
  decide (y.urgent.length ≤ Config.urgentCapacity) && decide (y.call.length ≤ Config.queueCapacity) &&
    decide (y.routine.length ≤ Config.queueCapacity) && decide (y.rxBuffer.length ≤ Config.rxCapacity) &&
    decide (y.presence.length ≤ Config.presenceCapacity)

/-- R47, R81, R88, R96: the retry count, the refresh debt, the swap queue and the impulse list. -/
def Lle.fits (l : Lle) : Bool :=
  decide (l.retry ≤ Config.retryMax) && decide (l.sync.debt ≤ Config.debtMax) &&
    decide (l.sync.swapQueue.length ≤ Config.swapCapacity) && decide (l.sync.impulses.length ≤ Config.impulseCapacity)

/-- R64: the upstream queue, and a port that is ready has room in it. -/
def Plp.fits (p : Plp) : Bool :=
  decide (p.queue.length ≤ Config.payloadCapacity) && (!p.ready || decide (p.queue.length < Config.payloadCapacity))

/-- R123: the repeat queue. -/
def Vsw.fits (v : Vsw) : Bool := decide (v.repeatQueue.length ≤ Config.repeatCapacity)

/-- R130, R140: the call table and the deferred claim list. -/
def Cct.fits (c : Cct) : Bool :=
  decide (c.calls.length ≤ Config.callCapacity) && decide (c.deferred.length ≤ Config.deferredCapacity)

/-- R175: at most 16 entries, one for each (code, source), none above 255 occurrences. -/
def Flt.sized (f : Flt) : Bool :=
  decide (f.entries.length ≤ Config.faultCapacity) && decide (f.entries.map (·.key)).Nodup &&
    f.entries.all (fun e => decide (e.occurrences ≤ Config.occurrencesMax))

/-- R175, R181, R182: the table is sized, the summary severity is that of the ACTIVE entries, and the lamp follows it.
-/
def Flt.fits (f : Flt) : Bool :=
  f.sized && decide (f.summary = summaryOf f.entries) && decide (f.lamp = lampOf f.summary)

/-- R192: eight counters, none above the top, and counters 0 and 1 at their fixed selections. -/
def Ctb.fits (b : Ctb) : Bool :=
  decide (b.counters.length = 8) && b.counters.all (fun c => decide (c.value ≤ Config.counterTop)) &&
    decide ((b.counters[0]?).map (·.selection) = some 1) && decide ((b.counters[1]?).map (·.selection) = some 2)

/-- Every block within what the manual says it holds. -/
def State.fits (s : State) : Bool :=
  s.cfl.record.inRange && s.ybi.fits && s.lle.fits && s.plp.fits && s.vsw.fits && s.cct.fits && s.flt.fits && s.ctb.fits

/-! ### Ringing within the ring capacity (R126) -/

/-- A list of loads that a supply state can drive: its units fit, and in BATTERY_LOW it is port A alone. -/
def loadsFit (x : SupplyState) (l : List Load) : Bool :=
  decide (unitsOf l ≤ x.ringCapacity) && (decide (x ≠ .batteryLow) || l.all (fun d => decide (d.who = .port .a)))

/-- No port is in RINGING. -/
abbrev State.portsSilent (s : State) : Prop := s.vsw.portA.state ≠ .ringing ∧ s.vsw.portB.state ≠ .ringing

/-- R126: what the converter drives and holds, and the plan it is asked from, fit the supply state; without an episode
the plan is empty, and no port is in RINGING. -/
def State.ringsWithin (s : State) : Bool :=
  loadsFit s.sup.supply (s.sup.converter.burst.getD []) && loadsFit s.sup.supply (s.sup.converter.held.getD []) &&
    loadsFit s.sup.supply (s.vsw.plan.loads.map (·.load)) &&
    (!s.vsw.episodes.isEmpty || (s.vsw.plan.loads.isEmpty && decide s.portsSilent))

/-! ### A ring plan without an episode (R126, R127, R129, R38) -/

/-- R38: a demand that names no load: in ON it ends the burst, and the idle timer starts afresh at 10 s; in SETTLING it
takes the place of the held demand; in OFF it changes nothing. -/
def Converter.askedNothing (now : Nat) (c : Converter) : Converter :=
  match c.state with
  | .off => c
  | .settling => { c with held := some [], idleTimer := none }
  | .on => { c with burst := none, idleTimer := some (now + 10000) }

/-- A ring plan without an episode, at the VSW: the plan is empty and RING_OVERLOAD inactive (R129), and the converter is
asked for no load (R127). -/
def State.askedSilent (s : State) : State :=
  ((s.onVsw fun v => { v with plan := RingPlan.empty }).makeInactive .ringOverload .pair).onSup fun p =>
    { p with converter := s.sup.converter.askedNothing s.now }

/-- What a ring plan without an episode brings about: a burst that the empty demand ends takes the ringing off the pair
as well (R125). -/
def State.plannedSilent (s : State) : State :=
  if s.askedSilent.sup.converter.burst = s.sup.converter.burst then s.askedSilent
  else s.askedSilent.onVsw fun v => { v with pairRinging := false }

/-- What a port that goes from one state to another brings about while nothing rings: a change of its state computes the
ring plan (R126). -/
def State.portMoved (old new : PortState) (s : State) : State := if old = new then s else s.plannedSilent

/-! ### The link in step with its fault, its holders and its timers (R41, R47, R52, R57, R80, R88) -/

/-- The sources that section 9.1 gives the codes. -/
def FaultKey.listed (k : FaultKey) : Bool :=
  match k.code, k.source with
  | .portOffhookLock, .port _ | .portNoLoad, .port _ | .portLowCurrent, .port _ => true
  | .stationLost, .station _ | .stationProtocol, .station _ => true
  | .ringOverload, .pair => true
  | .busAddressConflict, .bus | .busAddressInvalid, .bus | .busBacklog, .bus => true
  | .supplyOnBattery, .supply | .supplyBatteryLow, .supply => true
  | .configDefaulted, .config => true
  | .linkRetrainLimit, .line | .linkLowMargin, .line | .fenceImpulse, .line | .foreignVoltage, .line
  | .foreignVoltageHigh, .line | .loopLeakage, .line | .loopOpen, .line => true
  | _, _ => false

/-- The link is in LOCKOUT exactly while LINK_RETRAIN_LIMIT is ACTIVE (R47); there are holders exactly in QUIET (R52);
outside SHOWTIME the state of chapter 5 stands at its start values, the swap queue empty among them (R80, R88), and no
overhead request is outstanding or waits (R50, R56); each timer of chapter 3 runs in its own state alone; and no entry
of the fault table has a source that the catalogue does not give its code, so that an OUT fault always finds a place
(R178). -/
def State.linkKept (s : State) : Bool :=
  decide ((s.lle.link = .lockout) ↔ s.faultActive .linkRetrainLimit .line = true) &&
    decide ((s.lle.link = .quiet) ↔ s.lle.holders.isEmpty = false) &&
    (decide (s.lle.link = .showtime) ||
      (decide (s.lle.sync = Showtime.start) && s.lle.slot.isNone && s.lle.switchWaiting.isNone &&
        s.lle.powerWaiting.isNone && s.lle.shieldWaiting.isNone)) &&
    (s.lle.backoffTimer.isNone || decide (s.lle.link = .retrainWait)) &&
    ((s.lle.lockoutTimer.isNone && !s.lle.attemptHeld) || decide (s.lle.link = .lockout)) &&
    (s.lle.handshakeTimer.isNone || decide (s.lle.link = .handshake)) &&
    (s.lle.probeTimer.isNone || decide (s.lle.link = .probe)) &&
    (s.lle.loadTimer.isNone || decide (s.lle.link = .load)) && s.flt.entries.all (fun e => e.key.listed)

/-! ### The outside line in step with the call table (R119) -/

/-- The call has the line: OUTSIDE in ACTIVE or HELD. -/
def CallRec.hasLine (c : CallRec) : Bool :=
  decide (c.kind = .outside) && (decide (c.state = .active) || decide (c.state = .held))

/-- The call is the incoming one that has not been answered. -/
def CallRec.unanswered (c : CallRec) : Bool := decide (c.kind = .outside) && decide (c.state = .setup)

/-- What a record holds goes with its kind and state: its id is one of 1..255 (R131); an INTERCOM is in SETUP or ACTIVE
and alone has a ring timer and an originator, a hold stands in HELD, what a RETRIEVE has kept stands in ACTIVE, the
clearing guard runs in CLEARING, and an OUTSIDE call in SETUP is an incoming one (R130, R138, R143, R151, R153, R154).
-/
def CallRec.kept (c : CallRec) : Bool :=
  decide (1 ≤ c.id) && decide (c.id ≤ 255) &&
    (decide (c.kind = .outside) || decide (c.state = .setup) || decide (c.state = .active)) &&
    (c.hold.isNone || (decide (c.kind = .outside) && decide (c.state = .held))) &&
    (c.saved.isNone || (decide (c.kind = .outside) && decide (c.state = .active))) &&
    (c.ringTimer.isNone || decide (c.kind = .intercom)) && (c.originator.isNone || decide (c.kind = .intercom)) && (c.guardTimer.isNone || decide (c.state = .clearing)) &&
    (!c.unanswered || decide (c.origin = .incoming))

/-- The ringing episodes are those that the call table calls for (section 6.4). -/
def State.ringsAsCalled (s : State) : Bool :=
  s.vsw.episodes.all (fun e => s.cct.episodes.contains (e.callId, e.kind)) &&
    s.cct.episodes.all (fun w => s.vsw.episodes.any (fun e => decide ((e.callId, e.kind) = w)))

/-- The line is SEIZED exactly while the call table holds an OUTSIDE call in ACTIVE or HELD, and it never holds two
(R119); an unanswered call is there in RING_IN alone; call ids are all different, and the next one is in 1..255 (R131);
what rings is what the call table calls for; each timer of the line runs in the states it is for (R119 to R122), and
TEST lasts from the first item of a phase to the end of the restore time (R164, R166). -/
def State.lineKept (s : State) : Bool :=
  decide (s.cct.calls.map (·.id)).Nodup && s.cct.calls.all CallRec.kept && decide (1 ≤ s.cct.nextCallId) &&
    decide (s.cct.nextCallId ≤ 255) && s.ringsAsCalled &&
    decide ((s.cct.calls.filter CallRec.hasLine).length = if s.vsw.line = .seized then 1 else 0) &&
    decide ((s.cct.calls.filter CallRec.unanswered).length ≤ if s.vsw.line = .ringIn then 1 else 0) &&
    (s.vsw.offHookBandTimer.isNone || decide (s.vsw.line = .idle) || decide (s.vsw.line = .ringIn)) &&
    (s.vsw.onHookBandTimer.isNone || decide (s.vsw.line = .parallel)) &&
    ((s.vsw.ringEndTimer.isNone && s.vsw.burstOffTimer.isNone && !s.vsw.inBurst) || decide (s.vsw.line = .ringIn)) &&
    (s.vsw.releaseTimer.isNone || decide (s.vsw.line = .releasing)) &&
    ((s.lth.restoreTimer.isNone && (match s.lth.stage with | .item _ => false | _ => true)) || decide (s.vsw.line = .test))

/-! ### A request that disturbs nothing -/

/-- The station awaits no grant and has no claim in the deferred list: taking in a frame of it changes nothing
(R137, R140). -/
def State.unclaimed (n : Nat) (s : State) : Bool :=
  (s.expectation n).isNone && s.cct.deferred.all (fun c => !decide (c.endpoint = .station n))

/-- The oldest frame of the receive buffer is this one, of a station that is unclaimed. -/
abbrev State.heads (d : Delivered) (rest : List Delivered) (s : State) : Prop :=
  s.ybi.rxBuffer = d :: rest ∧ s.unclaimed d.src = true

/-- The ROUTINE queue takes a frame. -/
abbrev State.routineRoom (s : State) : Prop := s.ybi.listenOnly = false ∧ s.ybi.routine.length < Config.queueCapacity

/-- The CALL queue takes a frame. -/
abbrev State.callRoom (s : State) : Prop := s.ybi.listenOnly = false ∧ s.ybi.call.length < Config.queueCapacity

/-! ### Circumstances in which one thing happens at a time -/

/-- Nothing rings, the link is not in SHOWTIME, the supply is on mains with port B in service, and no survey waits or
runs: what a call command does is then its own effect alone. -/
abbrev State.calm (s : State) : Prop :=
  s.lle.link ≠ .showtime ∧ s.vsw.episodes = [] ∧ s.sup.supply = .mains ∧ s.vsw.portB.state ≠ .outOfService ∧
    s.lth.stage = .none

/-- The rail stands at its target, and the part drives nothing there: a change of the link between states other than
SHOWTIME leaves the overhead slot and the walker alone. -/
abbrev State.linkIdle (s : State) : Prop := s.lle.link ≠ .showtime ∧ s.lle.sync.catchUpTimer = none ∧ s.lth.stage = .none

/-- No call is HELD. -/
abbrev State.noneHeld (s : State) : Prop := ∀ c ∈ s.cct.calls, c.state ≠ .held

/-- The state with the request at the head of the receive buffer taken in. -/
def State.taken (rest : List Delivered) (s : State) : State := s.onYbi fun y => { y with rxBuffer := rest }

/-- The state with that request taken in and a frame put in the ROUTINE queue. -/
def State.routined (rest : List Delivered) (f : TxFrame) (s : State) : State :=
  s.onYbi fun y => { y with rxBuffer := rest, routine := y.routine ++ [f] }

/-- The state with that request taken in and a frame put in the CALL queue. -/
def State.called (rest : List Delivered) (f : TxFrame) (s : State) : State :=
  s.onYbi fun y => { y with rxBuffer := rest, call := y.call ++ [f] }

/-- The call, as it stands in CLEARING after it was left at an instant. -/
abbrev clearingOf (c : CallRec) (now : Nat) : CallRec :=
  { c with
    state := .clearing, parties := [], rung := none, offer := none, hold := none, saved := none
    guardTimer := some (now + 800) }

/-- The state in which a reply stream has begun: its first frame is in the ROUTINE queue, the others wait. -/
abbrev streaming (rest : List Delivered) (frames : List TxFrame) (s : State) : State :=
  s.onYbi fun y =>
    { y with
      rxBuffer := rest
      routine := y.routine ++ (frames.take 1).map (fun f => { f with streamed := true })
      stream := some { rest := (frames.drop 1).map (fun f => { f with streamed := true }), inQueue := true } }

end Sys2Proof.Machine
end

