-- ==== Sys2Proof/Certificates/Slice0/Obligations.lean ====
section
/-! DEFINITION. The statements for the provers. Each `def Obligations.<Name> : Prop` says one thing of the model; its
docstring names the place of the manual it comes from. Where a statement says that a command answers a next state, that
state is the effect of the command itself. -/

open Sys2Proof Sys2Proof.Machine

/-! ### The machine as a whole -/

/-- A step takes the command at the front of the queue and runs it on the state with the queue's rest. -/
def Obligations.StepRunsFrontCommand : Prop :=
  ∀ (c : Instr) (rest : List Instr) (s : State), s.pending = c :: rest → step s = exec c { s with pending := rest }

/-- Log entry 3 (the model's choice): on an empty queue a millisecond passes, and nothing else changes but, in SHOWTIME,
the symbol count. -/
def Obligations.EmptyQueuePassesAMillisecond : Prop :=
  ∀ s : State, s.pending = [] →
    ∃ t, step s = .next t ∧ t.now = s.now + 1 ∧ t = { s with now := t.now, lle := t.lle } ∧
      (s.lle.link ≠ .showtime → t.lle = s.lle) ∧
      t.lle = { s.lle with sync := { s.lle.sync with symbolCount := t.lle.sync.symbolCount } } ∧
      (s.lle.link = .showtime → 4 * (t.now - s.lle.sync.began) ≤ t.lle.sync.symbolCount)

/-- The model's choice, log entry 32: the queue of commands is not the part's, and no command puts in or takes out one,
DEVICE_RESET included. -/
def Obligations.CommandsLeaveTheQueue : Prop :=
  ∀ (c : Instr) (s t : State), exec c s = .next t → t.pending = s.pending

/-- Device reset leaves the part as chapters 1 to 10 give it. The state after reset is within every capacity, nothing
rings, and the link and the outside line are in step with the blocks they go with. The model's choice here: an idle
bus and an empty queue of commands (log entries 31, 32). -/
def Obligations.ResetState : Prop :=
  (State.reset.cfl.state = .loading ∧ State.reset.ybi.bus = .idle ∧ State.reset.ybi.yielding = false ∧
     State.reset.ybi.collisions = 0 ∧ State.reset.ybi.urgent = [] ∧ State.reset.ybi.call = [] ∧
     State.reset.ybi.routine = [] ∧ State.reset.ybi.rxBuffer = [] ∧ State.reset.ybi.presence = [] ∧
     State.reset.ybi.presenceTimer = none ∧ State.reset.ybi.backlogTimer = none ∧
     State.reset.sup.railLevel = .low ∧ State.reset.sup.railTarget = .low ∧ State.reset.sup.converter.state = .off ∧
     State.reset.lle.link = .down ∧ State.reset.lle.retry = 0 ∧ State.reset.lle.holders.isEmpty = true ∧
     State.reset.lle.snr = List.replicate 336 0 ∧ State.reset.lle.normal = List.replicate 336 0 ∧
     State.reset.lle.power = .full ∧ State.reset.plp.ready = false ∧ State.reset.plp.queue = [] ∧
     State.reset.vsw.line = .idle ∧ State.reset.vsw.portA.state = .onHook ∧ State.reset.vsw.portB.state = .onHook ∧
     State.reset.cct.calls = [] ∧ State.reset.cct.nextCallId = 1 ∧ State.reset.cct.nextToken = 1 ∧
     State.reset.lth.running = none ∧ State.reset.lth.periodicTimer = some 21600000 ∧
     State.reset.flt.entries = [] ∧ State.reset.flt.summary = .good ∧ State.reset.flt.lamp = .off ∧
     State.reset.ctb.counters.map (·.selection) = [1, 2, 0, 0, 0, 0, 0, 0] ∧
     State.reset.ctb.counters.map (·.value) = [0, 0, 0, 0, 0, 0, 0, 0] ∧ State.reset.pending = []) ∧
  (State.reset.fits = true ∧ State.reset.ringsWithin = true ∧ State.reset.linkKept = true ∧ State.reset.lineKept = true)

/-- Every step keeps every block within what the manual says it holds: the ranges of the record, the lengths of the
queues, the receive buffer, the presence table, the call table, the deferred list, the upstream, swap and repeat queues
and the impulse list, the retry count and the debt, one fault entry for each (code, source) with the summary severity
and the lamp that follow from them, and the counters. -/
def Obligations.EveryStepKeepsTheCapacities : Prop :=
  ∀ s t : State, s.fits = true → step s = .next t → t.fits = true

/-- Every step keeps ringing within the ring capacity of the supply state, with port A alone in BATTERY_LOW: what the
converter drives, what it holds, and the ring plan; and without an episode the plan is empty and no port is RINGING. -/
def Obligations.EveryStepKeepsRingingWithinCapacity : Prop :=
  ∀ s t : State, s.ringsWithin = true → step s = .next t → t.ringsWithin = true

/-- Only DEVICE_RESET and CONFIG_READ_DONE set the record in force and its mark; only DEVICE_RESET sets the own address
and the rank. -/
def Obligations.RecordAndAddressStand : Prop :=
  ∀ (c : Instr) (s t : State), exec c s = .next t →
    (∀ straps mainsOk battLow, c ≠ .deviceReset straps mainsOk battLow) →
      t.ybi.ownAddress = s.ybi.ownAddress ∧ t.cfl.rank = s.cfl.rank ∧
        ((∀ memory, c ≠ .configReadDone memory) →
          t.cfl.record = s.cfl.record ∧ t.cfl.defaulted = s.cfl.defaulted)

/-- In listen-only the three queues stay empty and no reply stream runs, and only a device reset ends the state. -/
def Obligations.ListenOnlyStaysMute : Prop :=
  ∀ (c : Instr) (s t : State), exec c s = .next t →
    (s.ybi.listenOnly = true → s.ybi.urgent = [] ∧ s.ybi.call = [] ∧ s.ybi.routine = [] ∧ s.ybi.stream = none) →
      (t.ybi.listenOnly = true → t.ybi.urgent = [] ∧ t.ybi.call = [] ∧ t.ybi.routine = [] ∧ t.ybi.stream = none) ∧
        (s.ybi.listenOnly = true → (∀ straps mainsOk battLow, c ≠ .deviceReset straps mainsOk battLow) →
          t.ybi.listenOnly = true)

/-! ### Start-up and supply (chapter 2) -/

/-- DEVICE_RESET with mains on: every block in its reset state, the straps and the inputs as sampled, listen-only at
once for an address that is none of 1..24; the queue of commands and the other connections stand. DEVICE_RESET without
mains: the supply state is taken at once, holder SUPPLY is there exactly in BATTERY_LOW, and the supply faults stand.
The model's choice here: what stands of the connections and of the queue of commands (log entries 2, 32), and the reset
values that the manual does not give (log entries 25, 26, 31, 74, 89, 91). -/
def Obligations.DeviceResetEntersLoading : Prop :=
  (∀ (straps : Fin 32) (battLow : Bool) (s : State),
     exec (.deviceReset straps true battLow) s = .next
       { State.reset with
         pins := { s.pins with straps := straps.val, mainsOk := true, battLow := battLow }
         ybi := { Ybi.reset with
           ownAddress := straps.val, listenOnly := decide (straps.val = 0) || decide (24 < straps.val) }
         cfl := { Cfl.reset with rank := if straps.val = 1 then 1 else 2 }
         sup := { Sup.reset with mainsOk := true, battLow := battLow }
         pending := s.pending }) ∧
  (∀ (straps : Fin 32) (battLow : Bool) (s : State),
     ∃ t, exec (.deviceReset straps false battLow) s = .next t ∧
       t = { State.reset with
         pins := t.pins, ybi := t.ybi, cfl := t.cfl, sup := t.sup, lle := t.lle, flt := t.flt, pending := s.pending } ∧
       t.cfl.state = .loading ∧
       t.ybi.ownAddress = straps.val ∧ t.sup.supply = (if battLow then .batteryLow else .battery) ∧
       t.lle.holders.supply = battLow ∧ t.lle.link = (if battLow then .quiet else .down) ∧
       t.faultActive .supplyOnBattery .supply = true ∧ t.faultActive .supplyBatteryLow .supply = battLow)

/-- CONFIG_READ_DONE in LOADING with a usable memory: the record is that of the memory, clamped; the listen timer
starts at 1 s; D takes D_init and counters 2..7 take their default events. CONFIG_READ_DONE with a memory that failed
or is not usable: the defaults are in force, marked so. The model's choice here: D at the hand-over of the record, and
the instant (log entries 13, 23). -/
def Obligations.LoadingEnds : Prop :=
  (∀ (m : List Byte) (s : State), memoryUsable m = true → s.cfl.state = .loading →
     1 ≤ s.ybi.ownAddress → s.ybi.ownAddress ≤ 24 → (clampRecord m).startHeld = false → s.linkIdle →
     s.sup.railLevel = .low → s.sup.railTarget = .low → s.sup.railStep = none →
     exec (.configReadDone (some m)) s = .next
       (((s.onCfl fun c =>
           { c with
             state := .listen, record := clampRecord m, defaulted := false, listenTimer := some (s.now + 1000) }).onLle
         fun l => { l with d := (clampRecord m).dInit }).onCtb (Ctb.takeEvents (clampRecord m).counterEvents))) ∧
  (∀ (memory : Option (List Byte)) (s : State), usableMemory memory = none → s.cfl.state = .loading →
     ∃ t, exec (.configReadDone memory) s = .next t ∧
       t = { s with ybi := t.ybi, cfl := t.cfl, sup := t.sup, lle := t.lle, flt := t.flt, ctb := t.ctb } ∧
       t.cfl.state = .listen ∧ t.cfl.record = ConfigRecord.default ∧
       t.cfl.defaulted = true ∧ t.cfl.listenTimer = some (s.now + 1000) ∧ t.lle.d = 1)

/-- LISTEN_TIMER_EXPIRY: READY begins: the first PRESENCE and LINE_STATUS are queued, the PRESENCE timer starts at 10 s,
and the no-load check of each port begins. The model's choice here: that an expiry acts at the deadline of a running
timer (log entry 4), that a training or a check, for which READY may be all that is wanting, begins by a command of its
own (log entry 11), and that the PRESENCE goes before the LINE_STATUS in the ROUTINE queue, which the rules name without
an order (log entry 105). -/
def Obligations.ReadyBegins : Prop :=
  ∀ (d : Nat) (s : State), s.cfl.listenTimer = some d → s.now ≤ d → s.calm → s.linkIdle → s.ybi.listenOnly = false →
    s.ybi.routine = [] →
    ∃ t, exec .listenTimerExpiry s = .next t ∧
      t = { s with now := d, ybi := t.ybi, cfl := t.cfl, sup := t.sup, vsw := t.vsw } ∧
      t.cfl = { s.cfl with state := .ready, listenTimer := none } ∧
      t.ybi = { s.ybi with
        routine := [presenceFrame, lineStatusFrame false s.vsw.line], presenceTimer := some (d + 10000) } ∧
      t.vsw.portA = { s.vsw.portA with noLoadTimer := none, noLoadCheck := some (d + 100) } ∧
      t.vsw.portB = { s.vsw.portB with noLoadTimer := none, noLoadCheck := some (d + 100) } ∧
      t.sup.supply = s.sup.supply ∧ t.sup.converter = s.sup.converter

/-- MAINS_OK_CHANGE and BATT_LOW_CHANGE: a level other than the debounced one starts the debounce of the input (200 ms,
5 s); a return to it stops the debounce. MAINS_OK_DEBOUNCED and BATT_LOW_DEBOUNCED: the supply state follows the two
debounced levels, over every change between the three states; on battery SUPPLY_ON_BATTERY stands, in BATTERY_LOW
SUPPLY_BATTERY_LOW with holder SUPPLY and the link QUIET, and on mains neither; a change of BATT_LOW under mains changes
nothing more. A change of supply state while nothing rings computes the ring plan: it is empty, and the converter is
asked for no load, so that its idle timer starts afresh in ON. What each state gives: the ring capacity, the feed
current of a fed port, and the ceiling of the rail. The model's choice here: that an expiry acts at the deadline of a
running timer (log entry 4), and that the next training begins by a command of its own (log entry 11). -/
def Obligations.SupplyInputsAndState : Prop :=
  (∀ s : State,
     (s.sup.mainsTimer = none → exec (.mainsOkChange (!s.sup.mainsOk)) s = .next
       ((s.onPins fun p => { p with mainsOk := !s.sup.mainsOk }).onSup fun p => { p with mainsTimer := some (s.now + 200) })) ∧
     exec (.mainsOkChange s.sup.mainsOk) s = .next
       ((s.onPins fun p => { p with mainsOk := s.sup.mainsOk }).onSup fun p => { p with mainsTimer := none }) ∧
     (s.sup.battTimer = none → exec (.battLowChange (!s.sup.battLow)) s = .next
       ((s.onPins fun p => { p with battLow := !s.sup.battLow }).onSup fun p => { p with battTimer := some (s.now + 5000) })) ∧
     exec (.battLowChange s.sup.battLow) s = .next
       ((s.onPins fun p => { p with battLow := s.sup.battLow }).onSup fun p => { p with battTimer := none })) ∧
  ((∀ (d : Nat) (s : State), s.sup.mainsTimer = some d → s.sup.supply = .mains → s.pins.mainsOk = false →
     s.sup.battLow = false → s.flt.entries.length < 16 → s.linkIdle → s.vsw.episodes = [] → s.cct.episodes = [] →
     ∃ t, exec .mainsOkDebounced s = .next t ∧
       t = { s with now := t.now, ybi := t.ybi, sup := t.sup, lle := t.lle, vsw := t.vsw, cct := t.cct, flt := t.flt } ∧
       t.sup.supply = .battery ∧ t.sup.mainsOk = false ∧ t.sup.mainsTimer = none ∧
       t.faultActive .supplyOnBattery .supply = true ∧ t.vsw.plan = RingPlan.empty ∧
       t.sup.converter = (s.sup.converter.shed .battery).askedNothing t.now) ∧
   (∀ (d : Nat) (s : State), s.sup.mainsTimer = some d → s.sup.supply = .battery → s.pins.mainsOk = true →
     s.lle.holders.supply = false → s.linkIdle → s.vsw.episodes = [] → s.cct.episodes = [] →
     ∃ t, exec .mainsOkDebounced s = .next t ∧
       t = { s with now := t.now, ybi := t.ybi, sup := t.sup, vsw := t.vsw, cct := t.cct, flt := t.flt } ∧
       t.sup.supply = .mains ∧ t.sup.mainsOk = true ∧ t.sup.mainsTimer = none ∧
       t.faultActive .supplyOnBattery .supply = false ∧ t.faultActive .supplyBatteryLow .supply = false ∧
       t.vsw.plan = RingPlan.empty ∧ t.sup.converter = (s.sup.converter.shed .mains).askedNothing t.now) ∧
   (∀ (d : Nat) (s : State), s.sup.mainsTimer = some d → s.sup.supply = .mains → s.pins.mainsOk = false →
     s.sup.battLow = true → s.lle.holders.supply = false → s.linkIdle → s.lle.link ≠ .lockout →
     s.flt.entries.length < 15 →
     ∃ t, exec .mainsOkDebounced s = .next t ∧
       t = { s with now := t.now, ybi := t.ybi, sup := t.sup, lle := t.lle, vsw := t.vsw, cct := t.cct, flt := t.flt, ctb := t.ctb } ∧
       t.sup.supply = .batteryLow ∧ t.sup.mainsOk = false ∧ t.sup.mainsTimer = none ∧ t.lle.holders.supply = true ∧
       t.lle.link = .quiet ∧ t.faultActive .supplyOnBattery .supply = true ∧
       t.faultActive .supplyBatteryLow .supply = true) ∧
   (∀ (d : Nat) (s : State), s.sup.mainsTimer = some d → s.sup.supply = .batteryLow → s.pins.mainsOk = true →
     s.linkIdle → s.lle.link = .quiet →
     s.lle.holders = { management := false, supply := true, voltage := false, survey := false } →
     s.vsw.episodes = [] → s.cct.episodes = [] →
     ∃ t, exec .mainsOkDebounced s = .next t ∧
       t = { s with now := t.now, ybi := t.ybi, sup := t.sup, lle := t.lle, vsw := t.vsw, cct := t.cct, flt := t.flt } ∧
       t.sup.supply = .mains ∧ t.sup.mainsOk = true ∧ t.sup.mainsTimer = none ∧ t.lle.holders.isEmpty = true ∧
       t.lle.link = .down ∧ t.faultActive .supplyOnBattery .supply = false ∧
       t.faultActive .supplyBatteryLow .supply = false ∧ t.vsw.plan = RingPlan.empty ∧
       t.sup.converter = (s.sup.converter.shed .mains).askedNothing t.now) ∧
   (∀ (d : Nat) (s : State), s.sup.battTimer = some d → s.sup.supply = .batteryLow → s.sup.mainsOk = false →
     s.pins.battLow = false → s.linkIdle → s.lle.link = .quiet →
     s.lle.holders = { management := false, supply := true, voltage := false, survey := false } →
     s.vsw.episodes = [] → s.cct.episodes = [] →
     ∃ t, exec .battLowDebounced s = .next t ∧
       t = { s with now := t.now, ybi := t.ybi, sup := t.sup, lle := t.lle, vsw := t.vsw, cct := t.cct, flt := t.flt } ∧
       t.sup.supply = .battery ∧ t.sup.battLow = false ∧ t.sup.battTimer = none ∧ t.lle.holders.isEmpty = true ∧
       t.lle.link = .down ∧
       t.faultActive .supplyOnBattery .supply = s.faultActive .supplyOnBattery .supply ∧
       t.faultActive .supplyBatteryLow .supply = false ∧ t.vsw.plan = RingPlan.empty ∧
       t.sup.converter = (s.sup.converter.shed .battery).askedNothing t.now) ∧
   (∀ (d : Nat) (s : State), s.sup.battTimer = some d → s.sup.supply = .mains → s.sup.mainsOk = true →
     exec .battLowDebounced s = .next
       ((s.reach d).onSup fun p => { p with battLow := s.pins.battLow, battTimer := none })) ∧
   ∀ (d : Nat) (s : State), s.sup.battTimer = some d → s.sup.supply = .battery → s.sup.mainsOk = false →
     s.pins.battLow = true → s.lle.holders.supply = false → s.linkIdle → s.lle.link ≠ .lockout →
     s.flt.entries.length < 16 →
     ∃ t, exec .battLowDebounced s = .next t ∧
       t = { s with now := t.now, ybi := t.ybi, sup := t.sup, lle := t.lle, vsw := t.vsw, cct := t.cct, flt := t.flt, ctb := t.ctb } ∧
       t.sup.supply = .batteryLow ∧ t.sup.battLow = true ∧
       t.sup.battTimer = none ∧ t.lle.holders.supply = true ∧ t.lle.link = .quiet ∧
       t.faultActive .supplyBatteryLow .supply = true) ∧
  ((SupplyState.ringCapacity .mains, SupplyState.ringCapacity .battery, SupplyState.ringCapacity .batteryLow) = (5, 3, 2) ∧
   (SupplyState.ceiling .mains, SupplyState.ceiling .battery, SupplyState.ceiling .batteryLow) =
     (RailLevel.high, RailLevel.mid, RailLevel.low) ∧
   ∀ (p : Port) (s : State), s.feedMilliamp p =
     if s.cfl.state = .ready ∧ (s.port p).state ≠ .outOfService then (if s.sup.supply = .mains then 25 else 20) else 0)

/-- RAIL_SETTLE_END, CONVERTER_SETTLE_END and CONVERTER_IDLE_EXPIRY: the rail stands at the level of its step and the
next step toward the target begins; the burst of the held demand begins; the converter turns OFF. The model's choice
here: that an expiry acts at the deadline of a running timer (log entry 4), and that HANDSHAKE, for which a rail that is
ready may be all that is wanting, begins by a command of its own (log entry 11). -/
def Obligations.RailAndConverterSettle : Prop :=
  (∀ (r : RailStep) (s : State), s.sup.railStep = some r → s.now ≤ r.ends → s.linkIdle →
    ∃ t, exec .railSettleEnd s = .next t ∧ t = { s with now := r.ends, sup := t.sup } ∧
      t.sup = { s.sup with
        railLevel := r.goal
        railTarget := s.targetOfRail
        railStep := if r.goal = s.targetOfRail then none
          else some { goal := railToward r.goal s.targetOfRail, ends := r.ends + 5 } }) ∧
  (∀ (d : Nat) (x : Load) (l : List Load) (s : State), s.sup.converter.settleTimer = some d → s.now ≤ d →
    s.sup.converter.held = some (x :: l) → s.sup.converter.burst = none → s.sup.supply = .mains →
    exec .converterSettleEnd s = .next
      (((s.reach d).onSup fun p => { p with converter :=
          { state := .on, held := none, burst := some (x :: l), settleTimer := none, idleTimer := none } }).onVsw
        fun v => { v with pairRinging := (x :: l).any (fun y => y.who.isStation) })) ∧
  ∀ (d : Nat) (s : State), s.sup.converter.idleTimer = some d → s.sup.converter.burst = none →
    exec .converterIdleExpiry s = .next
      ((s.reach d).onSup fun p => { p with converter := { p.converter with state := .off, idleTimer := none } })

/-! ### The Yard Bus (chapter 1) -/

/-- OWN_SLOT_BEGINS: in READY on an idle bus the head of the queue of the slot's class is started; while yielding a
CALL or ROUTINE frame waits. YIELD_END and ANOTHER_STATION_START_BIT: both end the yield and the slot count; a start
bit ends the idle period. The model's choice here: slots taken in order, without their milliseconds (log entry 7), and
that the bus counts as idle from the end of the part's own frame on (log entry 87). -/
def Obligations.SlotsAndYield : Prop :=
  (∀ (cls : UrgencyClass) (f : TxFrame) (q : List TxFrame) (s : State), s.cfl.state = .ready → s.ybi.bus = .idle →
     1 ≤ s.ybi.ownAddress → s.ybi.ownAddress ≤ 24 → s.ybi.queue cls = f :: q →
     (s.ybi.yielding = false → exec (.ownSlotBegins cls) s = .next
       (s.onYbi fun y =>
         { y with
           bus := .sending cls, slot := y.ownAddress + baseSlot cls, driving := wireLevels y.ownAddress f })) ∧
     (s.ybi.yielding = true → s.ybi.slot < s.ybi.ownAddress + baseSlot cls → cls ≠ .urgent →
       exec (.ownSlotBegins cls) s = .next (s.onYbi fun y => { y with slot := y.ownAddress + baseSlot cls })) ∧
     (s.ybi.yielding = true → s.ybi.slot < s.ybi.ownAddress + baseSlot cls → cls = .urgent →
       exec (.ownSlotBegins cls) s = .next
         (s.onYbi fun y =>
           { y with
             bus := .sending cls, slot := y.ownAddress + baseSlot cls, driving := wireLevels y.ownAddress f }))) ∧
  (∀ s : State, s.ybi.bus = .idle ∨ s.ybi.bus = .sent →
     (s.ybi.yielding = true →
       exec .yieldEnd s = .next (s.onYbi fun y => { y with bus := .idle, slot := 0, yielding := false })) ∧
     exec .anotherStationStartBit s = .next (s.onYbi fun y => { y with bus := .receiving, slot := 0, yielding := false }))

/-- FRAME_SENT and COLLISION: the frame leaves its queue, the part yields, and the collision count returns to 0 or
rises by 1; at 3 the part enters listen-only with its queues empty and BUS_ADDRESS_CONFLICT ACTIVE. A FAULT frame read
back whole marks its entry reported when no later notice of the entry was called for, and one aborted marks nothing. A
frame of a reply stream that leaves makes way for the next, and the last one ends the stream. The model's choice here:
the third collision (log entry 9). -/
def Obligations.SendingEnds : Prop :=
  (∀ (cls : UrgencyClass) (f : TxFrame) (q : List TxFrame) (s : State), s.ybi.bus = .sending cls →
    s.ybi.queue cls = f :: q → f.fault = none → (cls = .routine → s.flt.owed = [] ∧ s.ybi.stream = none) →
    exec .frameSent s = .next
        (s.onYbi fun y =>
          { y.setQueue cls q with bus := .sent, slot := 0, yielding := true, driving := [], collisions := 0 }) ∧
      (s.ybi.collisions < 2 → exec .collision s = .next
        (s.onYbi fun y =>
          { y.setQueue cls q with
            bus := .aborted, slot := 0, yielding := true, driving := [], collisions := s.ybi.collisions + 1 }))) ∧
  (∀ (cls : UrgencyClass) (f : TxFrame) (x : FaultTag) (q : List TxFrame) (s : State), s.ybi.bus = .sending cls →
    s.ybi.queue cls = f :: q → f.fault = some x → (cls = .routine → s.flt.owed = [] ∧ s.ybi.stream = none) →
    exec .frameSent s = .next
        ((s.onYbi fun y =>
          { y.setQueue cls q with bus := .sent, slot := 0, yielding := true, driving := [], collisions := 0 }).onFlt fun t =>
            { t with entries := t.entries.map fun e =>
                if e.key = x.key ∧ e.notice = x.notice then { e with reported := true } else e }) ∧
      (s.ybi.collisions < 2 → exec .collision s = .next
        (s.onYbi fun y =>
          { y.setQueue cls q with
            bus := .aborted, slot := 0, yielding := true, driving := [], collisions := s.ybi.collisions + 1 }))) ∧
  (∀ (f : TxFrame) (q l : List TxFrame) (s : State), s.ybi.bus = .sending .routine → s.ybi.routine = f :: q →
    f.fault = none → f.streamed = true → s.flt.owed = [] → s.ybi.stream = some { rest := l, inQueue := true } →
    q.length < 8 →
    exec .frameSent s = .next
        (s.onYbi fun y =>
          { y with
            routine := q ++ l.take 1, stream := if l = [] then none else some { rest := l.drop 1, inQueue := true }
            bus := .sent, slot := 0, yielding := true, driving := [], collisions := 0 }) ∧
      (s.ybi.collisions < 2 → exec .collision s = .next
        (s.onYbi fun y =>
          { y with
            routine := q ++ l.take 1, stream := if l = [] then none else some { rest := l.drop 1, inQueue := true }
            bus := .aborted, slot := 0, yielding := true, driving := [], collisions := s.ybi.collisions + 1 }))) ∧
  ∀ (cls : UrgencyClass) (s : State), s.ybi.bus = .sending cls → 2 ≤ s.ybi.collisions → s.flt.entries.length < 16 →
    ∃ t, exec .collision s = .next t ∧ t = { s with ybi := t.ybi, flt := t.flt } ∧
      t.ybi = { s.ybi with
        bus := .aborted, slot := 0, yielding := true, driving := [], collisions := 3, listenOnly := true, urgent := [],
        call := [], routine := [], stream := none } ∧
      t.faultActive .busAddressConflict .bus = true

/-- BACKLOG_TIMER_EXPIRY, PRESENCE_TIMER_EXPIRY and PRESENCE_AGEING. STATION_ABSENT: the entry is ABSENT, its grant
and line status go, STATION_LOST is raised, every counter delegated to the station loses its delegate, and its pending
ANY-line entry leaves the list. Of a station that is the one party of an OUTSIDE call, CONNECTED or under a grant that
it has not taken, the call goes to CLEARING and the line opens, its deferred claims leave the list, and no frame of the
call is sent. The model's choice here: that an expiry acts at the deadline of a running timer (log
entry 4), and the second at which the entries age (log entry 24). -/
def Obligations.BusTimersAndAbsence : Prop :=
  ((∀ (d : Nat) (s : State), s.ybi.backlogTimer = some d →
     ∃ t, exec .backlogTimerExpiry s = .next t ∧ t = { s.reach d with ybi := t.ybi, flt := t.flt } ∧
       t.ybi = { s.ybi with backlogTimer := none, routine := t.ybi.routine } ∧ t.faultActive .busBacklog .bus = false) ∧
   (∀ (d : Nat) (s : State), s.ybi.presenceTimer = some d → s.routineRoom →
     (∀ f ∈ s.ybi.routine, f.kind ≠ .presence) →
     exec .presenceTimerExpiry s = .next
       ((s.reach d).onYbi fun y =>
         { y with presenceTimer := some (d + 10000), routine := y.routine ++ [presenceFrame] })) ∧
   ∀ (d : Nat) (s : State), s.ybi.ageingTimer = some d → s.noneHeld →
     exec .presenceAgeing s = .next
       ((s.reach d).onYbi fun y =>
         { y with
           ageingTimer := some (d + 1000)
           presence := y.presence.map (fun e => { e with age := min 65535 (e.age + 1) }) })) ∧
  (∀ (n : Nat) (e : PresenceEntry) (s : State), s.entryOf n = some e → e.present = true → 35 ≤ e.age → e.grant = none →
     s.cct.calls = [] → s.cct.deferred = [] → s.vsw.episodes = [] → s.flt.entries.length < 16 → s.lth.stage = .none →
     ∃ t, exec (.stationAbsent n) s = .next t ∧
       t = { s with ybi := t.ybi, flt := t.flt, ctb := t.ctb, cct := t.cct } ∧
       t.entryOf n = some { e with present := false, lineStatus := none } ∧
       t.faultActive .stationLost (.station n) = true ∧ t.ctb = s.ctb.revoke n ∧
       t.cct = { s.cct with pendingAny := s.cct.pendingAny.filter (fun p => p.station != n) }) ∧
  (∀ (n : Nat) (e : PresenceEntry) (c : CallRec) (m : PartyMark) (s : State), s.calm → s.entryOf n = some e →
     e.present = true → 35 ≤ e.age → s.cct.calls = [c] → c.kind = .outside → c.state = .active → c.originator = none →
     c.saved = none → c.parties = [{ who := .station n, mark := m }] → s.flt.entries.length < 16 →
     (m = .connected ∧ e.grant = none) ∨ (m = .awaitingTake ∧ ∃ x, e.grant = some x ∧ x.callId = c.id) →
     ∃ t, exec (.stationAbsent n) s = .next t ∧
       t = { s with ybi := t.ybi, vsw := t.vsw, cct := t.cct, lth := t.lth, flt := t.flt, ctb := t.ctb } ∧
       t.entryOf n = some { e with present := false, lineStatus := none, grant := none } ∧
       t.faultActive .stationLost (.station n) = true ∧
       t.cct = { s.cct with
         calls := [clearingOf c s.now]
         deferred := s.cct.deferred.filter (fun x => !decide (x.endpoint = .station n))
         pendingAny := s.cct.pendingAny.filter (fun p => p.station != n) } ∧
       t.vsw.line = .releasing ∧ t.vsw.pairSpeech = none ∧ t.ybi.call = s.ybi.call)

/-- FRAME_RECEIVED: a valid frame for the part from a known station refreshes the station's entry and joins the
receive buffer; an invalid one is counted, and nothing else comes of it; a PRESENCE of a new station gets it an entry.
Dominant pulses too short for a start bit change nothing: the idle period goes on. Where an idle point parts two
frames, the second is taken in as the first has left the part. The model's choice here: a received frame as one event of
a part that was listening (log entry 8), the resolution of what stood on the pair (log entry 72), and the idle points
within it (log entry 86). -/
def Obligations.FramesAreTakenIn : Prop :=
  (∀ (low : Nat) (wire : List WireRun) (s : State), readWire (afterEdge low wire) = [] → s.ybi.bus ≠ .aborted →
    exec (.frameReceived low wire) s = .next s) ∧
  (∀ (low first : Nat) (wire firstWire : List WireRun) (f g : List Byte × Bool) (s : State),
    readWire (afterEdge low wire) = [f, g] → readWire (afterEdge first firstWire) = [f] → s.ybi.bus = .receiving →
    ∃ t, exec (.frameReceived first firstWire) s = .next t ∧ exec (.frameReceived low wire) s = .next (t.hear g)) ∧
  (∀ (low : Nat) (wire : List WireRun) (bytes : List Byte) (f : RxFrame) (k : Kind) (m : Message) (e : PresenceEntry)
      (s : State),
    readWire (afterEdge low wire) = [(bytes, false)] → s.ybi.bus = .receiving → s.cfl.state = .ready →
    judgeFrame s.ybi.ownAddress bytes false = some f → kindOf f.code = some k → k.isRequest = true →
    s.forPart f.dest = true → readMessage k f.body = some m →
    s.ybi.rxBuffer.length < 4 → s.entryOf f.src = some e →
    (∀ x ∈ s.ybi.presence, x.address = f.src → x.present = true) → s.noneHeld →
    exec (.frameReceived low wire) s = .next
      (s.onYbi fun y =>
        { y with
          bus := .idle, slot := 0, yielding := false
          presence := y.presence.map (fun e => if e.address = f.src then { e with age := 0, present := true } else e)
          rxBuffer := y.rxBuffer ++ [{ dest := f.dest, src := f.src, message := m }] })) ∧
  (∀ (low : Nat) (wire : List WireRun) (bytes : List Byte) (bad : Bool) (s : State),
    readWire (afterEdge low wire) = [(bytes, bad)] → bytes ≠ [] → s.ybi.bus = .receiving → s.cfl.state = .ready →
    judgeFrame s.ybi.ownAddress bytes bad = none → s.ctb.wrapping 14 = [] →
    exec (.frameReceived low wire) s = .next
      ((s.onYbi fun y => { y with bus := .idle, slot := 0, yielding := false }).onCtb fun b =>
        { b with counters := b.counters.map (Counter.count 14) })) ∧
  ∀ (low : Nat) (wire : List WireRun) (bytes : List Byte) (f : RxFrame) (role : Role) (handset : Bool) (mode : RingMode)
    (units : Nat) (s : State),
    readWire (afterEdge low wire) = [(bytes, false)] → s.ybi.bus = .receiving → s.cfl.state = .ready →
    judgeFrame s.ybi.ownAddress bytes false = some f → kindOf f.code = some .presence →
    readPresence f.body = some (role, handset, mode, units) → s.entryOf f.src = none →
    s.ybi.presence.length < 23 → s.noneHeld → s.vsw.episodes = [] →
    ∃ t, exec (.frameReceived low wire) s = .next t ∧ t = { s with ybi := t.ybi } ∧
      t.ybi = { s.ybi with bus := .idle, slot := 0, yielding := false, presence := t.ybi.presence } ∧
      t.ybi.presence.length = s.ybi.presence.length + 1 ∧
      t.entryOf f.src = some
        { address := f.src, role := role, handset := handset, ringMode := mode, units := units, present := true, age := 0,
          grant := none, lineStatus := none } ∧
      ∀ n, n ≠ f.src → t.entryOf n = s.entryOf n

/-! ### Calls (chapter 7) -/

/-- HOOK_ON and RELEASE: the one party of an OUTSIDE call leaves it: the call is in CLEARING for 800 ms and the line
opens; a RELEASE is echoed, and one of a HELD call by its holder does the same. The model's choice here: that the
command acts on the request at the head of the receive buffer (log entry 5). -/
def Obligations.LeavingClearsTheCall : Prop :=
  ∀ (d : Delivered) (rest : List Delivered) (c : CallRec) (p : Party) (s : State), s.calm → s.heads d rest → s.callRoom →
    s.cct.calls = [c] → c.kind = .outside → c.originator = none → c.parties = [p] → p.who = .station d.src →
    (d.message = .hook 1 → c.state = .active →
      ∃ t, exec .hookOn s = .next t ∧
        t = { s with ybi := t.ybi, vsw := t.vsw, cct := t.cct, lth := t.lth, flt := t.flt, ctb := t.ctb } ∧
        t.cct = { s.cct with calls := [clearingOf c s.now] } ∧ t.vsw.line = .releasing ∧
        t.vsw.pairSpeech = none ∧ t.ybi.rxBuffer = rest ∧ t.ybi.presence = s.ybi.presence) ∧
    (d.message = .release c.id → c.state = .active ∨ c.state = .held →
      ∃ t, exec .release s = .next t ∧
        t = { s with ybi := t.ybi, vsw := t.vsw, cct := t.cct, lth := t.lth, flt := t.flt, ctb := t.ctb } ∧
        t.cct = { s.cct with calls := [clearingOf c s.now] } ∧ t.vsw.line = .releasing ∧
        t.vsw.pairSpeech = none ∧ t.ybi.rxBuffer = rest ∧ releaseFrame d.src c.id ∈ t.ybi.call ∧ t.ybi.presence = s.ybi.presence)

/-- HOOK_FLASH and HOLD: the owner of the OUTSIDE call in ACTIVE holds it: it is HELD under a fresh token, with the
owner as its holder, the hold age at 0 and its recall and release timers running, the repeat queue is empty, and the
owner is sent HELD. The model's choice here: that the command acts on the request at the head of the receive buffer (log
entry 5), and that a digit in its pulses is cut short, the 700 ms of make after it being kept (log entry 38). -/
def Obligations.HoldingKeepsTheCall : Prop :=
  ∀ (i : Instr) (d : Delivered) (rest : List Delivered) (c : CallRec) (p : Party) (s : State), s.calm → s.heads d rest →
    s.callRoom → s.cct.calls = [c] → c.kind = .outside → c.state = .active → c.parties = [p] → p.who = .station d.src →
    (i = .hookFlash ∧ d.message = .hook 2) ∨ (i = .hold ∧ d.message = .hold c.id) →
    exec i s = .next
      (((s.called rest (heldFrame d.src c.id s.cct.nextToken 1)).onCct fun t =>
          { t with
            nextToken := nextToken t.nextToken
            calls :=
              [{ c with
                state := .held, parties := [{ who := .station d.src, mark := .holder }], rung := none, saved := none
                hold := some
                  { token := s.cct.nextToken, retriever := none, age := 0, ageAt := s.now, recallState := .none,
                    recallTimer := some (s.now + 300000), retryTimer := none, releaseTimer := some (s.now + 420000) } }] }).onVsw
        fun v => { v with repeatQueue := [], outpulse := v.outpulse.map (Outpulse.cut s.now), pairSpeech := none })

/-- CLAIM_OUTSIDE on an IDLE line, and CLAIM_OUTSIDE_ANY at rank 1: the grant: one event creates the call in ACTIVE
with the station awaiting TAKE for 2 s, seizes the line, assigns the pair and sends GRANT. CLAIM_OUTSIDE by the state
of the line: refused LINE_OUT in OUT, refused LINE_BUSY in RELEASING, PARALLEL and SEIZED, deferred in TEST, where it
aborts the item that runs and leaves the restore time alone; CLAIM_OUTSIDE_ANY at rank 2 that could be served waits
200 ms in the pending list. CLAIM_OUTSIDE in RING_IN is an ANSWER of the incoming call: the station owns the call, which
is ACTIVE, and the line is SEIZED; a ringing without a record refuses it TABLE_FULL. The model's choice here: that the
command acts on the request at the head of the receive buffer (log entry 5). -/
def Obligations.OutsideClaims : Prop :=
  (∀ (i : Instr) (kind : ClaimKind) (tag a : Nat) (d : Delivered) (rest : List Delivered) (s : State), s.calm →
     s.heads d rest → s.callRoom → s.routineRoom → s.cct.calls = [] → s.vsw.line = .idle → s.isPresent d.src = true →
     d.message = .claim tag kind a → tag ≠ 0 →
     (i = .claimOutside ∧ kind = .outside) ∨ (i = .claimOutsideAny ∧ kind = .outsideAny ∧ s.cfl.rank = 1) →
     ∃ t, exec i s = .next t ∧ t = { s with ybi := t.ybi, vsw := t.vsw, cct := t.cct, lth := t.lth } ∧
       t.cct = { s.cct with
         nextCallId := nextCallId s.cct.nextCallId
         calls :=
           [CallRec.fresh s.cct.nextCallId .outside .outgoing .active [{ who := .station d.src, mark := .awaitingTake }]] } ∧
       t.vsw.line = .seized ∧ t.vsw.pairSpeech = some s.cct.nextCallId ∧ t.vsw.portA = s.vsw.portA ∧
       t.vsw.portB = s.vsw.portB ∧ t.vsw.episodes = [] ∧ t.vsw.plan = s.vsw.plan ∧
       t.lth = { s.lth with holdOffTimer := none } ∧
       t.ybi = { s.ybi with
         rxBuffer := rest
         call := s.ybi.call ++ [grantFrame d.src tag s.cct.nextCallId kind.code]
         routine := s.ybi.routine ++ [lineStatusFrame false .seized]
         presence := s.ybi.presence.map (fun e =>
           if e.address = d.src then
             { e with grant := some { tag := tag, callId := s.cct.nextCallId, deadline := s.now + 2000 } }
           else e) }) ∧
  (∀ (tag a : Nat) (d : Delivered) (rest : List Delivered) (s : State), s.heads d rest → s.callRoom → tag ≠ 0 →
     (d.message = .claim tag .outside a →
       (s.vsw.line = .out → exec .claimOutside s = .next (s.called rest (refuseFrame d.src .claim .lineOut tag))) ∧
       (s.vsw.line = .seized ∨ s.vsw.line = .releasing ∨ s.vsw.line = .parallel →
         exec .claimOutside s = .next (s.called rest (refuseFrame d.src .claim .lineBusy tag))) ∧
       (s.vsw.line = .test → s.lth.stage = .restoring → s.cct.deferred.length < 4 →
         exec .claimOutside s = .next
           ((s.taken rest).onCct fun t => { t with deferred := t.deferred ++ [.station d.src tag .outside] })) ∧
       (s.vsw.line = .ringIn → s.incomingCall = none →
         exec .claimOutside s = .next (s.called rest (refuseFrame d.src .claim .tableFull tag))) ∧
       (∀ c, s.vsw.line = .ringIn → s.lle.link ≠ .showtime → s.sup.supply = .mains →
         s.vsw.portB.state ≠ .outOfService → s.lth.stage = .none → s.cct.calls = [c] → c.kind = .outside →
         c.origin = .incoming → c.state = .setup → c.parties = [] → c.rung = none → s.isPresent d.src = true →
         ∃ t, exec .claimOutside s = .next t ∧
           t = { s with ybi := t.ybi, sup := t.sup, vsw := t.vsw, cct := t.cct, lth := t.lth, flt := t.flt, ctb := t.ctb } ∧
           t.cct = { s.cct with
             calls := [{ c with state := .active, parties := [{ who := .station d.src, mark := .awaitingTake }] }] } ∧
           t.vsw.line = .seized ∧ t.vsw.episodes = [] ∧ t.vsw.pairSpeech = some c.id ∧
           t.expectation d.src = some { tag := tag, callId := c.id, deadline := s.now + 2000 } ∧
           grantFrame d.src tag c.id 1 ∈ t.ybi.call ∧ t.ybi.rxBuffer = rest) ∧
       ∀ item r, s.vsw.line = .test → s.lth.stage = .item item → s.lth.running = some r → s.cct.deferred.length < 4 →
         ∃ t, exec .claimOutside s = .next t ∧
           t = { s with ybi := t.ybi, sup := t.sup, lle := t.lle, cct := t.cct, lth := t.lth, flt := t.flt, ctb := t.ctb } ∧
           t.cct = { s.cct with deferred := s.cct.deferred ++ [.station d.src tag .outside] } ∧
           t.lth.entry item = { status := .aborted, results := none, stamp := s.uptime } ∧ t.lth.stage = .restoring ∧
           t.lth.relay = .rest ∧ t.lth.itemTimer = none ∧ t.lth.restoreTimer = some (s.now + 200) ∧
           t.lth.holdOff = true ∧ t.ybi.rxBuffer = rest) ∧
     (d.message = .claim tag .outsideAny a → s.cfl.rank = 2 → s.canServe (.station d.src tag .outsideAny) = true →
       exec .claimOutsideAny s = .next
         ((s.taken rest).onCct fun t =>
           { t with pendingAny := t.pendingAny.filter (fun p => p.station != d.src) ++
               [{ station := d.src, tag := tag, deadline := s.now + 200 }] })))

/-- CLAIM_ANSWER of the incoming call that rings: the station owns the call, which is ACTIVE, and the line is SEIZED.
CLAIM_INTERCOM for port A on the hook: the intercom is placed in SETUP, ringing the port for 30 s, with the station as
its originator awaiting TAKE. The model's choice here: that the command acts on the request at the head of the receive
buffer (log entry 5), and what call id 0 of an ANSWER names (log entry 35). -/
def Obligations.AnswersAndIntercoms : Prop :=
  (∀ (tag a : Nat) (d : Delivered) (rest : List Delivered) (c : CallRec) (s : State), s.lle.link ≠ .showtime →
     s.sup.supply = .mains → s.vsw.portB.state ≠ .outOfService → s.lth.stage = .none → s.heads d rest → s.callRoom →
     d.message = .claim tag .answer a → tag ≠ 0 → a = 0 ∨ (a = c.id ∧ a ≠ 0) → s.cct.calls = [c] → c.kind = .outside →
     c.origin = .incoming → c.state = .setup → c.parties = [] → c.rung = none → s.vsw.line = .ringIn →
     s.isPresent d.src = true →
     ∃ t, exec .claimAnswer s = .next t ∧
       t = { s with ybi := t.ybi, sup := t.sup, vsw := t.vsw, cct := t.cct, lth := t.lth, flt := t.flt, ctb := t.ctb } ∧
       t.cct = { s.cct with
         calls := [{ c with state := .active, parties := [{ who := .station d.src, mark := .awaitingTake }] }] } ∧
       t.vsw.line = .seized ∧ t.vsw.episodes = [] ∧ t.vsw.pairSpeech = some c.id ∧
       t.expectation d.src = some { tag := tag, callId := c.id, deadline := s.now + 2000 } ∧
       grantFrame d.src tag c.id 3 ∈ t.ybi.call ∧ t.ybi.rxBuffer = rest) ∧
  (∀ (tag : Nat) (d : Delivered) (rest : List Delivered) (s : State), s.calm → s.heads d rest →
     s.ybi.listenOnly = false → s.ybi.call.length < 7 → s.cfl.record.inRange = true →
     d.message = .claim tag .intercom 25 → tag ≠ 0 → s.cct.calls = [] → s.vsw.portA.state = .onHook →
     s.isPresent d.src = true →
     ∃ t, exec .claimIntercom s = .next t ∧
       t = { s with ybi := t.ybi, sup := t.sup, vsw := t.vsw, cct := t.cct, flt := t.flt } ∧
       t.cct = { s.cct with
         nextCallId := nextCallId s.cct.nextCallId
         calls :=
           [{ CallRec.fresh s.cct.nextCallId .intercom .outgoing .setup [{ who := .station d.src, mark := .awaitingTake }] with
             rung := some (.port .a), ringTimer := some (s.now + 30000), originator := some (.station d.src),
             target := some (.port .a) }] } ∧
       t.vsw.episodes.map (fun e => (e.callId, e.kind)) = [(s.cct.nextCallId, .intercom)] ∧
       t.vsw.pairSpeech = some s.cct.nextCallId ∧
       t.expectation d.src = some { tag := tag, callId := s.cct.nextCallId, deadline := s.now + 2000 } ∧
       grantFrame d.src tag s.cct.nextCallId 4 ∈ t.ybi.call ∧ t.ybi.rxBuffer = rest ∧ t.vsw.line = s.vsw.line)

/-- CLAIM_JOIN of an OUTSIDE call in ACTIVE with one party, and RETRIEVE of a HELD call by its holder with its token:
the station is in the call, awaiting TAKE. TAKE with the tag of the grant: the station is CONNECTED and its grant is
no longer awaited. The model's choice here: that the command acts on the request at the head of the receive buffer
(log entry 5), and what a RETRIEVE keeps of the hold until TAKE, for a withdrawal (log entry 36). -/
def Obligations.StationsJoinRetrieveAndTake : Prop :=
  (∀ (tag a : Nat) (d : Delivered) (rest : List Delivered) (c : CallRec) (p : Party) (s : State), s.calm → s.heads d rest →
     s.callRoom → tag ≠ 0 → s.cct.calls = [c] → c.kind = .outside → c.parties = [p] → s.isPresent d.src = true →
     (d.message = .claim tag .join a → a = 0 ∨ a = c.id → c.state = .active → p.who = .port .a →
       s.cfl.record.joinAllowed = true → c.rung = none →
       ∃ t, exec .claimJoin s = .next t ∧ t = { s with ybi := t.ybi, vsw := t.vsw, cct := t.cct } ∧
         t.cct = { s.cct with
           calls := [{ c with parties := [p, { who := .station d.src, mark := .awaitingTake }] }] } ∧
         t.vsw = { s.vsw with pairSpeech := some c.id } ∧
         t.expectation d.src = some { tag := tag, callId := c.id, deadline := s.now + 2000 } ∧
         t.ybi.call = s.ybi.call ++ [grantFrame d.src tag c.id 5] ∧ t.ybi.rxBuffer = rest) ∧
     ∀ (k : Hold), d.message = .retrieve tag c.id k.token → c.state = .held → c.hold = some k → p.who = .station d.src →
       c.rung = none →
       ∃ t, exec .retrieve s = .next t ∧ t = { s with ybi := t.ybi, vsw := t.vsw, cct := t.cct } ∧
         t.cct = { s.cct with
           calls :=
             [{ c with
               state := .active, parties := [{ who := .station d.src, mark := .awaitingTake }], hold := none
               saved := some { hold := { k with age := k.age + (s.now - k.ageAt) }, holder := .station d.src } }] } ∧
         t.vsw = { s.vsw with pairSpeech := some c.id } ∧
         t.expectation d.src = some { tag := tag, callId := c.id, deadline := s.now + 2000 } ∧
         t.ybi.call = s.ybi.call ++ [grantFrame d.src tag c.id 0] ∧ t.ybi.rxBuffer = rest) ∧
  (∀ (d : Delivered) (rest : List Delivered) (c : CallRec) (x : GrantExpectation) (s : State), s.calm →
     s.ybi.rxBuffer = d :: rest → d.message = .take x.tag → s.forPart d.dest = true → s.expectation d.src = some x →
     s.cct.deferred = [] → s.cct.calls = [c] → c.id = x.callId → c.kind = .outside → c.state = .active →
     c.parties = [{ who := .station d.src, mark := .awaitingTake }] →
     ∃ t, exec .take s = .next t ∧ t = { s with ybi := t.ybi, vsw := t.vsw, cct := t.cct } ∧
       t.cct = { s.cct with
         calls :=
           [{ c with
             parties := [{ who := .station d.src, mark := .connected }], everConnected := true, saved := none }] } ∧
       t.vsw = { s.vsw with pairSpeech := some c.id } ∧
       t.ybi = { s.ybi with
         rxBuffer := rest
         presence := s.ybi.presence.map (fun e => if e.address = d.src then { e with grant := none } else e) })

/-- OVERHEARD_GRANT of a line unit to another station, and OVERHEARD_TAKE: the pending ANY-line entry they settle
leaves the list, a deferred claim of the sender leaves the deferred list, and nothing is answered.
GRANT_DEADLINE_EXPIRY: the grant is withdrawn with RELEASE and undone: an OUTSIDE call that held nobody else is in
CLEARING. PENDING_ANY_EXPIRY: the entry leaves the list; the claim is granted when the unit can serve it, and dropped
without an answer when it cannot. The model's choice here: the head of the receive buffer and the instants (log
entries 4, 5), and that an overheard frame is one of those that drop a deferred claim (log entry 48). -/
def Obligations.PendingAndGrantedClaimsEnd : Prop :=
  (∀ (tag id : Nat) (d : Delivered) (rest : List Delivered) (s : State), s.ybi.rxBuffer = d :: rest →
     s.forPart d.dest = false →
     (∀ e, d.message = .grant tag id → s.entryOf d.src = some e → e.role = .lineUnit →
       exec .overheardGrant s = .next
         ((s.taken rest).onCct fun t =>
           { t with
             deferred := t.deferred.filter (fun x => !decide (x.endpoint = .station d.src))
             pendingAny := t.pendingAny.filter (fun p => !(p.station == d.dest && p.tag == tag)) })) ∧
     (d.message = .take tag → s.expectation d.src = none →
       exec .overheardTake s = .next
         ((s.taken rest).onCct fun t =>
           { t with
             deferred := t.deferred.filter (fun x => !decide (x.endpoint = .station d.src))
             pendingAny := t.pendingAny.filter (fun p => !(p.station == d.src && p.tag == tag)) }))) ∧
  ((∀ (n : Nat) (x : GrantExpectation) (c : CallRec) (s : State), s.calm → s.expectation n = some x → s.now ≤ x.deadline →
     s.callRoom → s.cct.calls = [c] → c.id = x.callId → c.kind = .outside → c.state = .active → c.saved = none →
     c.originator = none →
     c.parties = [{ who := .station n, mark := .awaitingTake }] →
     ∃ t, exec (.grantDeadlineExpiry n) s = .next t ∧
       t = { s with now := t.now, ybi := t.ybi, vsw := t.vsw, cct := t.cct, lth := t.lth, flt := t.flt, ctb := t.ctb } ∧
       t.expectation n = none ∧
       t.cct = { s.cct with calls := [clearingOf c x.deadline] } ∧ t.vsw.line = .releasing ∧ t.now = x.deadline ∧
       releaseFrame n c.id ∈ t.ybi.call) ∧
   ∀ (n : Nat) (p : PendingAny) (s : State), s.cct.pendingAny.find? (fun p => p.station == n) = some p →
     s.now ≤ p.deadline →
     (s.vsw.line ≠ .idle → s.vsw.line ≠ .ringIn →
       exec (.pendingAnyExpiry n) s = .next
         ((s.reach p.deadline).onCct fun t =>
           { t with pendingAny := t.pendingAny.filter (fun q => q.station != p.station) })) ∧
     (s.calm → s.callRoom → s.cct.calls = [] → s.vsw.line = .idle → s.isPresent p.station = true →
       s.expectation p.station = none →
       ∃ t, exec (.pendingAnyExpiry n) s = .next t ∧
         t = { s with now := t.now, ybi := t.ybi, vsw := t.vsw, cct := t.cct, lth := t.lth, flt := t.flt, ctb := t.ctb } ∧
         t.now = p.deadline ∧ t.vsw.line = .seized ∧
         t.cct = { s.cct with
           nextCallId := nextCallId s.cct.nextCallId
           pendingAny := s.cct.pendingAny.filter (fun q => q.station != p.station)
           calls :=
             [CallRec.fresh s.cct.nextCallId .outside .outgoing .active
               [{ who := .station p.station, mark := .awaitingTake }]] } ∧
         t.expectation p.station = some { tag := p.tag, callId := s.cct.nextCallId, deadline := p.deadline + 2000 } ∧
         grantFrame p.station p.tag s.cct.nextCallId 2 ∈ t.ybi.call))

/-- INTERCOM_RING_EXPIRY, HOLD_AGE_RELEASE and CLEARING_GUARD_EXPIRY: the ringing ends with RING_END ENDED, an empty
plan and the rung port ON_HOOK, and the call is removed with RELEASE to its originator; the HELD call goes to
CLEARING; the record is removed. HOLD_AGE_RECALL and RECALL_RETRY_EXPIRY: the recall rings a free port, and waits 30 s
for a station that is absent. The model's choice here: that an expiry acts at the deadline of a running timer (log
entry 4), and that the RELEASE to the originator goes before RING_END (log entry 29). -/
def Obligations.CallTimersRunOut : Prop :=
  (∀ (n dl : Nat) (c : CallRec) (e : Episode) (s : State), s.lle.link ≠ .showtime → s.sup.supply = .mains →
     s.vsw.portB.state ≠ .outOfService → s.lth.stage = .none → s.cct.calls = [c] → s.now ≤ dl → c.kind = .intercom →
     c.state = .setup → c.ringTimer = some dl → c.parties = [{ who := .station n, mark := .connected }] →
     s.vsw.episodes = [e] → e.callId = c.id → e.kind = .intercom → s.ybi.listenOnly = false → s.ybi.call.length < 7 →
     ∃ t, exec (.intercomRingExpiry c.id) s = .next t ∧
       t = { s with now := dl, ybi := t.ybi, sup := t.sup, vsw := t.vsw, cct := t.cct, flt := t.flt } ∧
       t.cct = { s.cct with calls := [] } ∧
       t.ybi.call = s.ybi.call ++ [releaseFrame n c.id, ringEndFrame c.id false] ∧
       t.vsw = { s.vsw with
         episodes := [], plan := RingPlan.empty, pairSpeech := none, pairRinging := t.vsw.pairRinging
         portA := if s.vsw.portA.state = .ringing then PortRec.onHookAt dl else s.vsw.portA
         portB := if s.vsw.portB.state = .ringing then PortRec.onHookAt dl else s.vsw.portB }) ∧
  (∀ (dl : Nat) (c : CallRec) (s : State), s.calm → s.cct.calls = [c] → s.now ≤ dl →
     (∀ k, c.kind = .outside → c.state = .held → c.hold = some k → k.releaseTimer = some dl →
       ∃ t, exec (.holdAgeRelease c.id) s = .next t ∧
         t = { s with now := t.now, ybi := t.ybi, vsw := t.vsw, cct := t.cct, lth := t.lth, flt := t.flt, ctb := t.ctb } ∧
         t.cct = { s.cct with calls := [clearingOf c dl] } ∧ t.now = dl ∧
         t.vsw.line = .releasing ∧ t.vsw.pairSpeech = none) ∧
     (c.state = .clearing → c.guardTimer = some dl → c.parties = [] →
       exec (.clearingGuardExpiry c.id) s = .next
         (((s.reach dl).onCct fun t => { t with calls := [] }).onVsw fun v => { v with pairSpeech := none }))) ∧
  (∀ (i : Instr) (dl : Nat) (c : CallRec) (k : Hold) (p : Party) (s : State), s.calm → s.callRoom →
     s.cfl.record.inRange = true → s.cct.calls = [c] → s.now ≤ dl → c.kind = .outside → c.state = .held →
     c.hold = some k → k.retriever = none → k.recallState ≠ .ringing → c.parties = [p] →
     (i = .holdAgeRecall c.id ∧ k.recallTimer = some dl) ∨
       (i = .recallRetryExpiry c.id ∧ k.retryTimer = some dl ∧ k.recallTimer = none) →
     (p.who = .port .a → s.vsw.portA.state = .onHook →
       ∃ t, exec i s = .next t ∧
         t = { s with now := t.now, ybi := t.ybi, sup := t.sup, vsw := t.vsw, cct := t.cct, flt := t.flt } ∧
         t.now = dl ∧
         t.cct = { s.cct with
           calls :=
             [{ c with
               rung := some (.port .a)
               hold := some { k with recallState := .ringing, recallTimer := none, retryTimer := none } }] } ∧
         t.vsw.episodes.map (fun e => (e.callId, e.kind)) = [(c.id, .recall)]) ∧
     ∀ n, p.who = .station n → s.isPresent n = false →
       ∃ t, exec i s = .next t ∧ t.now = dl ∧ t = { s with now := dl, vsw := t.vsw, cct := t.cct } ∧
         t.cct = { s.cct with
           calls :=
             [{ c with
               rung := none
               hold := some { k with recallState := .waiting, recallTimer := none, retryTimer := some (dl + 30000) } }] } ∧
         t.vsw = { s.vsw with pairSpeech := none })

/-! ### Queries, tests and management requests (section 1.7 and the chapters that answer) -/

/-- QUERY_LINK, QUERY_LOOP_RECORD, QUERY_FAULT_SUMMARY and QUERY_CONFIGURATION: one REPORT of the subject, and nothing
else changes; what names no item or no part is refused BAD_REQUEST. QUERY_FAULT_ALL, QUERY_FAULT_ACTIVE and
QUERY_PRESENCE_TABLE: a reply stream of one REPORT for each entry in table order, a single REPORT for none, and REFUSE
NOT_READY while another stream runs. The model's choice here: that the command acts on the request at the head of the
receive buffer (log entry 5), the codes a row takes that names none (log entry 6), that an ALL or ACTIVE query taken
while a stream runs is refused whether or not it finds an entry (log entry 45), the bytes of what has no code or value
(log entries 21, 63, 106, 112), and the seconds of a training without their fraction (log entry 90). -/
def Obligations.QueriesAreAnswered : Prop :=
  (∀ (d : Delivered) (rest : List Delivered) (s : State), s.heads d rest → s.routineRoom → s.callRoom →
     (d.message = .query .link →
       exec .queryLink s = .next (s.routined rest (plainFrame d.src .report s.linkReport))) ∧
     (∀ n part i, d.message = .query (.loopRecord n part) → itemOf n = some i → i ≠ .linkProfile ∨ part ≤ 1 →
       exec .queryLoopRecord s = .next (s.routined rest (plainFrame d.src .report (s.loopReport i part)))) ∧
     (∀ n part, d.message = .query (.loopRecord n part) → itemOf n = none ∨ (itemOf n = some .linkProfile ∧ 1 < part) →
       exec .queryLoopRecord s = .next (s.called rest (refuseFrame d.src .query .badRequest 0))) ∧
     (d.message = .query (.faultTable 1) →
       exec .queryFaultSummary s = .next (s.routined rest (plainFrame d.src .report s.summaryReport))) ∧
     (∀ n, d.message = .query (.faultTable n) → n = 0 ∨ 3 < n →
       exec .queryFaultSummary s = .next (s.called rest (refuseFrame d.src .query .badRequest 0))) ∧
     (∀ part, d.message = .query (.configuration part) → part ≤ 3 →
       exec .queryConfiguration s = .next (s.routined rest (plainFrame d.src .report (s.configurationReport part)))) ∧
     ∀ part, d.message = .query (.configuration part) → 3 < part →
       exec .queryConfiguration s = .next (s.called rest (refuseFrame d.src .query .badRequest 0))) ∧
  (∀ (d : Delivered) (rest : List Delivered) (s : State), s.heads d rest → s.routineRoom → s.callRoom →
     (∀ r, d.message = .query .presenceTable → s.ybi.stream = some r → s.ybi.presence ≠ [] →
       exec .queryPresenceTable s = .next (s.called rest (refuseFrame d.src .query .notReady 0))) ∧
     (∀ (i : Instr) (l : List FaultEntry),
       (i = .queryFaultAll ∧ d.message = .query (.faultTable 2) ∧ l = s.flt.entries) ∨
         (i = .queryFaultActive ∧ d.message = .query (.faultTable 3) ∧ l = s.flt.entries.filter (fun e => e.active)) →
       (s.ybi.stream = none → l = [] →
         exec i s = .next (s.routined rest (plainFrame d.src .report (noFaultReport s.flt.summary s.flt.overflow)))) ∧
       (s.ybi.stream = none → l ≠ [] →
         exec i s = .next (streaming rest (l.zipIdx.map fun p =>
           plainFrame d.src .report (faultReport s.flt.summary s.flt.overflow (p.2 + 1) l.length p.1)) s)) ∧
       (∀ r, s.ybi.stream = some r →
         exec i s = .next (s.called rest (refuseFrame d.src .query .notReady 0)))) ∧
     (d.message = .query .presenceTable →
       (s.ybi.presence = [] →
         exec .queryPresenceTable s = .next (s.routined rest (plainFrame d.src .report (4 :: List.replicate 11 0)))) ∧
       (s.ybi.stream = none → s.ybi.presence ≠ [] →
         exec .queryPresenceTable s = .next (streaming rest (s.ybi.presence.zipIdx.map fun p =>
           plainFrame d.src .report (presenceReport (p.2 + 1) s.ybi.presence.length p.1)) s))))

/-- TEST for LINK_PROFILE alone: it is run and answered TEST_DONE at once. TEST for LINE_VOLTAGE alone that finds both
slots empty: it becomes the running request, and waits up to 60 s for the line. The model's choice here: that the
command acts on the request at the head of the receive buffer (log entry 5), that the phase itself begins by a command
of its own (log entry 11), and that the allow drop flag of a station that is no manager is cleared (log entry 53). -/
def Obligations.TestIsTaken : Prop :=
  ∀ (allowDrop : Bool) (d : Delivered) (rest : List Delivered) (s : State), s.heads d rest → s.routineRoom →
    (d.message = .test 1 allowDrop →
      exec .test s = .next
        ((s.routined rest (plainFrame d.src .testDone [2, 0, 0, 0, 0, 0])).onLth fun l =>
          { l with linkProfile := { status := .valid, results := some s.profile, stamp := s.uptime } })) ∧
    (d.message = .test 4 allowDrop → s.lth.running = none → s.lth.pending = none →
      exec .test s = .next
        ((s.taken rest).onLth fun l =>
          { l with
            running := some
              { originator := some d.src, items := [.lineVoltage], allowDrop := s.isManager d.src && allowDrop
                merged := [], ended := [] }
            stage := .waitVoltage
            waitTimer := if s.voltageReady then none else some (s.now + 60000) }))

/-- LINK_CONTROL_HOLD, LINK_CONTROL_RELEASE, LINK_CONTROL_RETRAIN and CLEAR_RETRY of a manager are answered DONE: the
link goes QUIET with every table empty; the last holder leaves and it goes DOWN; RETRAIN takes it DOWN from training,
from a wait, from LOCKOUT, whose fault it ends with the retry count kept, and from SHOWTIME by a drop with reason
FORCED, changes nothing in DOWN and is refused NOT_READY in QUIET; CLEAR_RETRY sets the retry count to 0 in every state,
and takes the link DOWN from a wait and from LOCKOUT. A management request of a station that is not a manager is refused
NOT_PERMITTED, and nothing else changes. The model's choice here: that the command acts on the request at the head of
the receive buffer (log entry 5), that the next training begins by a command of its own (log entry 11), the mark of a
downstream frame cut short (log entry 30), that NORMAL is the downstream table in force in DOWN and in QUIET (log entry
74), the order of effect and answer, and that QUIET leaves E and D (log entries 44, 46). -/
def Obligations.LinkIsManagedByManagers : Prop :=
  (∀ (d : Delivered) (rest : List Delivered) (s : State), s.heads d rest → s.routineRoom → s.isManager d.src = true →
     (d.message = .linkControl 1 → s.linkIdle → s.lle.link = .down ∨ s.lle.link = .retrainWait →
       s.lle.holders.management = false →
       exec .linkControlHold s = .next
         (((s.routined rest (doneFrame d.src .linkControl)).onLle fun l =>
           { l.emptied with
             link := .quiet, holders := { l.holders with management := true }, backoffTimer := none,
             handshakeTimer := none, probeTimer := none, loadTimer := none }).driveRail)) ∧
     (d.message = .linkControl 2 → s.linkIdle → s.lle.link = .quiet →
       s.lle.holders = { management := true, supply := false, voltage := false, survey := false } →
       exec .linkControlRelease s = .next
         (((s.routined rest (doneFrame d.src .linkControl)).onLle fun l =>
           { l.emptied with
             link := .down, holders := { management := false, supply := false, voltage := false, survey := false },
             backoffTimer := none, handshakeTimer := none, probeTimer := none, loadTimer := none, e := 0,
             d := s.cfl.record.dInit }).driveRail)) ∧
     (d.message = .linkControl 3 → s.linkIdle → s.lle.link = .retrainWait ∨ s.lle.link.isTraining = true →
       exec .linkControlRetrain s = .next
         (((s.routined rest (doneFrame d.src .linkControl)).onLle fun l =>
           { l.emptied with
             link := .down, backoffTimer := none, handshakeTimer := none, probeTimer := none, loadTimer := none, e := 0,
             d := s.cfl.record.dInit }).driveRail)) ∧
     (d.message = .linkControl 3 → s.lle.link = .down →
       exec .linkControlRetrain s = .next (s.routined rest (doneFrame d.src .linkControl))) ∧
     (d.message = .linkControl 3 → s.lle.link = .showtime → s.lth.stage = .none →
       ∃ t, exec .linkControlRetrain s = .next t ∧
         t = { s with ybi := t.ybi, sup := t.sup, lle := t.lle, plp := t.plp, flt := t.flt, ctb := t.ctb } ∧
         t.lle.link = .down ∧ t.lle.lastDrop = .forced ∧ t.lle.lastShow = some s.showValues ∧
         t.lle.sync = Showtime.start ∧ t.lle.slot = none ∧ t.lle.normal = emptyDown ∧ t.lle.guard = emptyDown ∧
         t.lle.e = 0 ∧ t.lle.d = s.cfl.record.dInit ∧ t.lle.retry = s.lle.retry ∧ t.lle.backoffTimer = s.lle.backoffTimer ∧
         t.plp = s.plp.cutShort ∧ t.ybi.rxBuffer = rest ∧ doneFrame d.src .linkControl ∈ t.ybi.routine) ∧
     (∀ i, (i = .linkControlRetrain ∧ d.message = .linkControl 3) ∨ (i = .clearRetry ∧ d.message = .clearRetry) →
       s.linkIdle → s.lle.link = .lockout → s.ybi.urgent.length < 4 →
       ∃ t, exec i s = .next t ∧ t = { s with ybi := t.ybi, sup := t.sup, lle := t.lle, flt := t.flt } ∧
         t.lle = { s.lle.emptied with
           link := .down, retry := if i = .clearRetry then 0 else s.lle.retry, lockoutTimer := none, attemptHeld := false,
           e := 0, d := s.cfl.record.dInit } ∧
         t.faultActive .linkRetrainLimit .line = false ∧ t.ybi.rxBuffer = rest ∧
         t.ybi.routine =
           s.ybi.routine ++ [doneFrame d.src (if i = .clearRetry then .clearRetry else .linkControl)]) ∧
     (d.message = .clearRetry → s.linkIdle → s.lle.link = .retrainWait →
       exec .clearRetry s = .next
         (((s.routined rest (doneFrame d.src .clearRetry)).onLle fun l =>
           { l.emptied with
             link := .down, retry := 0, backoffTimer := none, handshakeTimer := none, probeTimer := none,
             loadTimer := none, e := 0, d := s.cfl.record.dInit }).driveRail)) ∧
     (d.message = .clearRetry → s.lle.link ≠ .retrainWait → s.lle.link ≠ .lockout →
       exec .clearRetry s = .next
         ((s.routined rest (doneFrame d.src .clearRetry)).onLle fun l => { l with retry := 0 }))) ∧
  (∀ (d : Delivered) (rest : List Delivered) (s : State), s.heads d rest → s.callRoom → s.isManager d.src = true →
     d.message = .linkControl 3 → s.lle.link = .quiet →
     exec .linkControlRetrain s = .next (s.called rest (refuseFrame d.src .linkControl .notReady 0))) ∧
  (∀ (d : Delivered) (rest : List Delivered) (s : State), s.heads d rest → s.callRoom → s.isManager d.src = false →
     (d.message = .linkControl 1 →
       exec .linkControlHold s = .next (s.called rest (refuseFrame d.src .linkControl .notPermitted 0))) ∧
     (d.message = .linkControl 2 →
       exec .linkControlRelease s = .next (s.called rest (refuseFrame d.src .linkControl .notPermitted 0))) ∧
     (d.message = .linkControl 3 →
       exec .linkControlRetrain s = .next (s.called rest (refuseFrame d.src .linkControl .notPermitted 0))) ∧
     (d.message = .clearRetry →
       exec .clearRetry s = .next (s.called rest (refuseFrame d.src .clearRetry .notPermitted 0))) ∧
     (d.message = .clearFaults →
       exec .clearFaults s = .next (s.called rest (refuseFrame d.src .clearFaults .notPermitted 0))) ∧
     (∀ n a, d.message = .counterDelegate n a →
       exec .counterDelegate s = .next (s.called rest (refuseFrame d.src .counterDelegate .notPermitted 0))))

/-- CLEAR_FAULTS of a manager: the INACTIVE entries leave the table and the owed-notice list, the overflow flag is
cleared, the ACTIVE entries, the summary severity and the lamp stand, and the manager is answered DONE. The model's
choice here: that the command acts on the request at the head of the receive buffer (log entry 5). -/
def Obligations.FaultsAreCleared : Prop :=
  ∀ (d : Delivered) (rest : List Delivered) (s : State), s.heads d rest → s.routineRoom → s.isManager d.src = true →
    d.message = .clearFaults →
    ∃ t, exec .clearFaults s = .next t ∧
      t = { s.routined rest (doneFrame d.src .clearFaults) with flt := t.flt } ∧
      t.flt = { s.flt with
        entries := s.flt.entries.filter (fun e => e.active), overflow := false, owed := t.flt.owed } ∧
      (∀ k, k ∈ t.flt.owed ↔ k ∈ s.flt.owed ∧ ∃ e ∈ s.flt.entries, e.active = true ∧ e.key = k) ∧
      summaryOf t.flt.entries = summaryOf s.flt.entries

/-- COUNTER_READ, COUNTER_READ_CLEAR, COUNTER_SET and COUNTER_DELEGATE. The model's choice here: that the command acts
on the request at the head of the receive buffer (log entry 5), and the order of effect and answer (log entry 46). -/
def Obligations.CountersAreRead : Prop :=
  ∀ (n : Nat) (c : Counter) (d : Delivered) (rest : List Delivered) (s : State), s.heads d rest → s.routineRoom →
    s.ctb.counter n = some c →
    (d.message = .counterRead n false →
      exec .counterRead s = .next (s.routined rest (plainFrame d.src .report (counterReport n c)))) ∧
    (d.message = .counterRead n true → s.isManager d.src = true ∨ c.delegate = some d.src →
      exec .counterReadClear s = .next
        ((s.routined rest (plainFrame d.src .report (counterReport n c))).onCtb fun b =>
          { b with counters := b.counters.modify n fun c => { c with value := 0, wrapped := false } })) ∧
    (∀ selection inhibit, d.message = .counterSet n selection inhibit →
      s.isManager d.src = true ∨ c.delegate = some d.src →
      exec .counterSet s = .next
        ((s.routined rest (doneFrame d.src .counterSet)).onCtb fun b =>
          { b with counters := b.counters.modify n fun c =>
              { c with
                selection := if n < 2 then c.selection else selection.getD c.selection
                inhibit := inhibit.getD c.inhibit } })) ∧
    (∀ address, d.message = .counterDelegate n address → n ≤ 7 → s.isManager d.src = true →
      address = 0 ∨ (address ≤ 24 ∧ address ≠ s.ybi.ownAddress ∧ s.isPresent address = true) →
      exec .counterDelegate s = .next
        ((s.routined rest (doneFrame d.src .counterDelegate)).onCtb fun b =>
          { b with counters := b.counters.modify n fun c =>
              { c with delegate := if address = 0 then none else some address } }))

/-! ### Training and the link states (chapter 3) -/

/-- HANDSHAKE_START, FAR_END_ANSWER and PROBE_END take the training from DOWN over HANDSHAKE and PROBE to LOAD: at
full power under a HIGH ceiling, 5 s for the answer, 3 s of PROBE, and at its end the recorded SNR, the lift and both
tables of LOAD. A PROBE_END whose net rate at lift 0 lies below the floor fails the training with LOW_RATE, and sends
nothing. The model's choice here: that HANDSHAKE_START is a command of its own, the instant of PROBE_END, and
that LOAD computes with, and sends, the D in force (log entries 4, 11, 57). -/
def Obligations.TrainingAdvances : Prop :=
  ∀ s : State, s.linkIdle →
    (s.mayTrain = true →
      exec .handshakeStart s = .next
        ((s.onLle fun l =>
          { l with
            link := .handshake, power := if s.sup.supply = .mains then .full else .cutback, trainingBegan := s.now,
            handshakeTimer := some (s.now + 5000), farOut := l.farOut ++ [.wakeTones] }).driveRail)) ∧
    (s.lle.link = .handshake →
      exec .farEndAnswer s = .next
        ((s.onLle fun l =>
          { l with link := .probe, handshakeTimer := none, probeTimer := some (s.now + 3000) }).driveRail)) ∧
    (∀ (d : Nat) (m : List Int), s.lle.probeTimer = some d → s.now ≤ d → s.lle.link = .probe → s.lle.retry ≤ 10 →
      s.ctb.wrapping 7 = [] →
      netRate (bitTotal (tableBits .normal s.cfl.record 0 s.leakage (recordSnr m))) s.lle.d < s.cfl.record.rateFloor →
      exec (.probeEnd m) s = .next
        ((((s.reach d).onLle fun l =>
            { l with
              link := .retrainWait, lastFailure := .lowRate, retry := l.retry + 1, snr := recordSnr m,
              handshakeTimer := none, probeTimer := none, loadTimer := none,
              backoffTimer := some (d + backoffMs (l.retry + 1)) }).onCtb fun b =>
          { b with counters := b.counters.map (Counter.count 7) }).driveRail)) ∧
    ∀ (d : Nat) (m : List Int), s.lle.probeTimer = some d → s.now ≤ d → s.lle.link = .probe →
      floorMet s.cfl.record s.leakage s.lle.d (recordSnr m) = true →
      ∃ t, exec (.probeEnd m) s = .next t ∧ t = { s with now := d, lle := t.lle, sup := t.sup } ∧
        t.sup.supply = s.sup.supply ∧ t.sup.converter = s.sup.converter ∧
        t.lle = { s.lle with
          link := .load
          probeTimer := none
          snr := recordSnr m
          loadE := chooseLift s.cfl.record s.leakage s.lle.d (recordSnr m)
          normal := tableBits .normal s.cfl.record t.lle.loadE s.leakage (recordSnr m)
          guard := tableBits .guard s.cfl.record t.lle.loadE s.leakage (recordSnr m)
          loadTimer := some (d + 1000)
          farOut := s.lle.farOut ++ [.loadTables t.lle.normal s.lle.d s.cfl.record.rateCap] }

/-- HANDSHAKE_TIMEOUT, PROBE_SIGNAL_LOSS, LOAD_TIMEOUT and FAR_TABLES_RECEIVED with a bad table fail the training: the
count rises by 1 and sets the backoff of 2, 4, 8, 16 and then 30 s. The twelfth failure in a row goes to LOCKOUT for
900 s, with LINK_RETRAIN_LIMIT ACTIVE. The model's choice here: that an expiry acts at the deadline of a running timer
(log entry 4). -/
def Obligations.TrainingFails : Prop :=
  (∀ (i : Instr) (reason : FailureReason) (instant : Nat) (s : State), s.linkIdle → s.now ≤ instant → s.lle.retry ≤ 10 →
     s.ctb.wrapping 7 = [] →
     (i = .handshakeTimeout ∧ s.lle.link = .handshake ∧ s.lle.handshakeTimer = some instant ∧ reason = .noFarEnd) ∨
       (i = .probeSignalLoss ∧ s.lle.link = .probe ∧ instant = s.now ∧ reason = .noFarEnd) ∨
       (i = .loadTimeout ∧ s.lle.link = .load ∧ s.lle.loadTimer = some instant ∧ reason = .loadTimeout) ∨
       (∃ normal guard, i = .farTablesReceived normal guard ∧ s.lle.link = .load ∧ instant = s.now ∧
         reason = .badFarTable ∧
         (badFarTable s.cfl.record.bmax normal = true ∨ badFarTable s.cfl.record.bmax guard = true)) →
     exec i s = .next
       ((((s.reach instant).onLle fun l =>
           { l with
             link := .retrainWait, lastFailure := reason, retry := l.retry + 1, handshakeTimer := none, probeTimer := none,
             loadTimer := none, backoffTimer := some (instant + backoffMs (l.retry + 1)) }).onCtb fun b =>
         { b with counters := b.counters.map (Counter.count 7) }).driveRail)) ∧
  (∀ (d : Nat) (s : State), s.linkIdle → s.lle.link = .handshake → s.lle.handshakeTimer = some d → s.now ≤ d →
     s.lle.retry = 11 → s.flt.entries.length < 16 → s.ctb.wrapping 7 = [] → s.ybi.urgent.length < 4 →
     ∃ t, exec .handshakeTimeout s = .next t ∧
       t = { s with now := d, lle := t.lle, sup := t.sup, flt := t.flt, ybi := t.ybi, ctb := t.ctb } ∧
       t.lle = { s.lle with
         link := .lockout, lastFailure := .noFarEnd, retry := 12, backoffTimer := none, handshakeTimer := none,
         probeTimer := none, loadTimer := none, lockoutTimer := some (d + 900000) } ∧
       t.ctb = { s.ctb with counters := s.ctb.counters.map (Counter.count 7) } ∧ t.faultActive .linkRetrainLimit .line = true)

/-- FAR_TABLES_RECEIVED with acceptable tables: SHOWTIME begins with the lift of LOAD, the NORMAL tables in force, the
retry count at 0 and the whole state of section 5.1 at its start values, its two periodic timers started, but for the
guard comparator, which judges the detectors at the entry; the payload port is ready. The model's choice here:
D as D_init held to D_max (log entry 57), and the mark of a downstream frame cut short, which is cleared (log entry
30). -/
def Obligations.ShowtimeBegins : Prop :=
  ∀ (normal guard : List Nat) (s : State), s.linkIdle → s.lle.link = .load →
    badFarTable s.cfl.record.bmax normal = false → badFarTable s.cfl.record.bmax guard = false → s.plp.queue = [] →
    ∃ t, exec (.farTablesReceived normal guard) s = .next t ∧
      t = { s with ybi := t.ybi, sup := t.sup, lle := t.lle, plp := t.plp, flt := t.flt, ctb := t.ctb } ∧
      t.lle.link = .showtime ∧ t.lle.retry = 0 ∧ t.lle.loadTimer = none ∧ t.lle.e = s.lle.loadE ∧
      t.lle.d = min s.cfl.record.dInit s.cfl.record.dMax ∧ t.lle.normal = s.lle.normal ∧ t.lle.guard = s.lle.guard ∧
      t.lle.downInForce = .normal ∧ t.lle.upInForce = some .normal ∧ t.lle.upNormal = keepUp normal ∧
      t.lle.upGuard = keepUp guard ∧ t.lle.restoreRefused = false ∧
      t.lle.sync = { Showtime.start with
        began := s.now, refreshTimer := some (s.now + 500), secondTimer := some (s.now + 1000)
        guard := if s.disturbed = true then .active else .clear } ∧
      t.plp = { s.plp with ready := true, queue := [], downstreamAborted := false }

/-- BACKOFF_EXPIRY and LOCKOUT_EXPIRY take the link to DOWN with every table empty, E at 0 and D at D_init; an attempt
of LOCKOUT is held back while an intrusive item runs. The model's choice here: that an expiry acts at the deadline of a
running timer (log entry 4), that the next training begins by a command of its own (log entry 11), the state of an
attempt that is held back (log entry 27), and that NORMAL is the downstream table in force in DOWN (log entry 74). -/
def Obligations.WaitsEndInDown : Prop :=
  ∀ (d : Nat) (s : State), s.now ≤ d →
    (s.linkIdle → s.lle.link = .retrainWait → s.lle.backoffTimer = some d →
      exec .backoffExpiry s = .next
        (((s.reach d).onLle fun l =>
          { l.emptied with
            link := .down, backoffTimer := none, handshakeTimer := none, probeTimer := none, loadTimer := none, e := 0,
            d := s.cfl.record.dInit }).driveRail)) ∧
    (s.linkIdle → s.lle.link = .lockout → s.lle.lockoutTimer = some d → s.ybi.urgent.length < 4 →
      ∃ t, exec .lockoutExpiry s = .next t ∧
        t = { s with now := t.now, ybi := t.ybi, sup := t.sup, lle := t.lle, flt := t.flt } ∧
        t.now = d ∧
        t.lle = { s.lle.emptied with
          link := .down, lockoutTimer := none, attemptHeld := false, e := 0, d := s.cfl.record.dInit } ∧
        t.faultActive .linkRetrainLimit .line = false) ∧
    (s.intrusiveRunning = true → s.lle.lockoutTimer = some d →
      exec .lockoutExpiry s = .next ((s.reach d).onLle fun l => { l with lockoutTimer := none, attemptHeld := true }))

/-- OVERHEAD_AGREE with the number of the outstanding request puts the change in force. OVERHEAD_TIMER_EXPIRY: the
first sends the request again with its number, the second abandons it. What a DECLINE and an abandon do is the same
for every request but SWAP: a SWITCH to GUARD is not repeated in this episode and one to NORMAL is asked for again
after 5 s, the table in force standing; a CUTBACK under a HIGH ceiling leaves the power as it is, and one on battery
drops the link with reason POWER; a RESTORE and a SHIELD are not repeated. A SWAP leaves the queue, its table
standing: a DECLINE ends the row of abandons, an abandon lengthens it, and the third in a row drops the link. The
model's choice here: that an expiry acts at the deadline of a running timer (log entry 4), and the mark of a
downstream frame cut short (log entry 30). -/
def Obligations.RequestOutcomes : Prop :=
  (∀ (o : Outstanding) (s : State), s.lle.slot = some o → s.lth.stage = .none →
     ∃ t, exec (.overheadAgree o.number) s = .next t ∧
       t = { s with lle := t.lle, sup := t.sup, flt := t.flt, ybi := t.ybi, ctb := t.ctb } ∧
       (∀ table, o.request = .switch table → t.lle.downInForce = table) ∧
       (o.request = .power .cutback → t.lle.power = .cutback) ∧ (o.request = .power .restore → t.lle.power = .full) ∧
       (∀ n, o.request = .shield n → t.lle.d = n ∧ t.lle.normal = s.lle.normal ∧ t.lle.e = s.lle.e ∧ t.lle.snr = s.lle.snr) ∧
       (∀ g bits, o.request = .swap g bits → t.lle.normal = setGroup s.lle.normal g bits ∧ t.lle.sync.swapAbandons = 0)) ∧
  (∀ (i : Instr) (m : Nat) (o : Outstanding) (s : State), s.lle.slot = some o → s.now ≤ o.deadline →
     s.lle.link = .showtime →
     (i = .overheadDecline o.number ∧ m = s.now) ∨ (i = .overheadTimerExpiry ∧ o.attempt = 2 ∧ m = o.deadline) →
     (o.request = .switch .guard →
       ∃ t, exec i s = .next t ∧ t = { s with now := m, sup := t.sup, lle := t.lle } ∧
         t.lle.sync.switchRefused = true ∧ t.lle.downInForce = s.lle.downInForce) ∧
     (o.request = .switch .normal →
       ∃ t, exec i s = .next t ∧ t = { s with now := m, sup := t.sup, lle := t.lle } ∧
         t.lle.sync.switchRetryTimer = some (m + 5000) ∧ t.lle.downInForce = s.lle.downInForce) ∧
     (o.request = .power .cutback → s.sup.supply = .mains →
       ∃ t, exec i s = .next t ∧ t = { s with now := m, sup := t.sup, lle := t.lle } ∧
         t.lle.power = s.lle.power ∧ t.lle.link = .showtime) ∧
     (o.request = .power .cutback → s.sup.supply = .battery →
       ∃ t, exec i s = .next t ∧
         t = { s with now := m, ybi := t.ybi, sup := t.sup, lle := t.lle, plp := t.plp, flt := t.flt, ctb := t.ctb } ∧
         t.lle.link = .retrainWait ∧ t.lle.lastDrop = .power ∧ t.lle.slot = none ∧
         t.lle.backoffTimer = some (m + 2000) ∧ t.plp = s.plp.cutShort) ∧
     (o.request = .power .restore →
       ∃ t, exec i s = .next t ∧ t = { s with now := m, sup := t.sup, lle := t.lle } ∧
         t.lle.restoreRefused = true ∧ t.lle.power = s.lle.power) ∧
     (∀ n, o.request = .shield n →
       ∃ t, exec i s = .next t ∧ t = { s with now := m, sup := t.sup, lle := t.lle } ∧
         t.lle.sync.shieldRefused = true ∧ t.lle.d = s.lle.d)) ∧
  (∀ (o : Outstanding) (s : State), s.lle.slot = some o → s.now ≤ o.deadline → s.lle.link = .showtime →
     (∀ g bits, o.request = .swap g bits →
       ∃ t, exec (.overheadDecline o.number) s = .next t ∧ t = { s with sup := t.sup, lle := t.lle } ∧
         t.lle.sync.swapQueue = s.lle.sync.swapQueue.drop 1 ∧ t.lle.sync.swapAbandons = 0 ∧
         t.lle.normal = s.lle.normal) ∧
     (∀ g bits, o.attempt = 2 → o.request = .swap g bits → s.lle.sync.swapAbandons < 2 →
       ∃ t, exec .overheadTimerExpiry s = .next t ∧
         t = { s with now := o.deadline, ybi := t.ybi, sup := t.sup, lle := t.lle, flt := t.flt, ctb := t.ctb } ∧
         t.lle.sync.swapQueue = s.lle.sync.swapQueue.drop 1 ∧
         t.lle.sync.swapAbandons = s.lle.sync.swapAbandons + 1 ∧ t.lle.normal = s.lle.normal ∧
         t.lle.link = .showtime) ∧
     (o.attempt = 1 →
       ∃ t, exec .overheadTimerExpiry s = .next t ∧
         t = { s with now := t.now, sup := t.sup, lle := t.lle } ∧
         t.now = o.deadline ∧
         t.lle.slot = some { o with attempt := 2, deadline := o.deadline + 250 } ∧
         t.lle.farOut = s.lle.farOut ++ [.request o.number o.request (o.request.carried s.lle)]) ∧
     ∀ g bits, o.attempt = 2 → o.request = .swap g bits → 2 ≤ s.lle.sync.swapAbandons →
       ∃ t, exec .overheadTimerExpiry s = .next t ∧
         t = { s with now := t.now, ybi := t.ybi, sup := t.sup, lle := t.lle, plp := t.plp, flt := t.flt, ctb := t.ctb } ∧
         t.lle.link = .retrainWait ∧ t.lle.lastDrop = .swapFailures ∧
         t.lle.slot = none ∧ t.plp.ready = false ∧ t.plp.queue = [])

/-- FAR_END_SWAP, FAR_END_SWITCH and FAR_END_RETRAIN in SHOWTIME: answered, with the number echoed, and remembered; a
number seen last gets the same answer without a second effect; RETRAIN drops the link to DOWN. PAYLOAD_FRAME_OFFERED
and PAYLOAD_FRAME_SENT in SHOWTIME: the queue takes 16 frames, and the port is ready while it has room. The model's
choice here: that the next training begins by a command of its own (log entry 11). -/
def Obligations.FarEndAndPayload : Prop :=
  (∀ (n : Nat) (table : TableName) (g : Nat) (bits : List Nat) (s : State), s.lle.link = .showtime →
     (s.lle.lastFar.map (·.1) ≠ some n →
       (farSwapOk s.cfl.record.bmax g bits = true → table = .normal →
         exec (.farEndSwap n table g bits) s = .next
           (s.onLle fun l =>
             { l with
               upNormal := setUpGroup l.upNormal g bits, farOut := l.farOut ++ [.answer n .agree],
               lastFar := some (n, .agree) })) ∧
       (farSwapOk s.cfl.record.bmax g bits = true → table = .guard →
         exec (.farEndSwap n table g bits) s = .next
           (s.onLle fun l =>
             { l with
               upGuard := setUpGroup l.upGuard g bits, farOut := l.farOut ++ [.answer n .agree],
               lastFar := some (n, .agree) })) ∧
       (farSwapOk s.cfl.record.bmax g bits = false →
         exec (.farEndSwap n table g bits) s = .next
           (s.onLle fun l => { l with farOut := l.farOut ++ [.answer n .decline], lastFar := some (n, .decline) })) ∧
       exec (.farEndSwitch n table) s = .next
         (s.onLle fun l =>
           { l with upInForce := some table, farOut := l.farOut ++ [.answer n .agree], lastFar := some (n, .agree) }) ∧
       ∃ t, exec (.farEndRetrain n) s = .next t ∧
         t = { s with ybi := t.ybi, sup := t.sup, lle := t.lle, plp := t.plp, flt := t.flt, ctb := t.ctb } ∧
         t.lle.link = .down ∧ t.lle.lastDrop = .forced ∧ t.plp.ready = false ∧
         t.plp.queue = [] ∧ t.lle.normal = emptyDown ∧ t.lle.snr = s.lle.snr) ∧
     ∀ a, s.lle.lastFar = some (n, a) →
       exec (.farEndSwap n table g bits) s = .next (s.onLle fun l => { l with farOut := l.farOut ++ [.answer n a] }) ∧
       exec (.farEndSwitch n table) s = .next (s.onLle fun l => { l with farOut := l.farOut ++ [.answer n a] })) ∧
  (∀ s : State, s.lle.link = .showtime →
     (∀ payload, s.plp.ready = true →
       exec (.payloadFrameOffered payload) s = .next
         (s.onPlp fun p =>
           { p with queue := p.queue ++ [payload], ready := decide (p.queue.length + 1 < 16) })) ∧
     (∀ payload, s.plp.ready = false → exec (.payloadFrameOffered payload) s = .next s) ∧
     ∀ (f : List Byte) (q : List (List Byte)), s.plp.queue = f :: q →
       exec .payloadFrameSent s = .next (s.onPlp fun p => { p with queue := q, ready := decide (q.length < 16) }))

/-! ### Showtime (chapter 5) -/

/-- REFRESH_TIMER_EXPIRY: while a refresh is not allowed it raises the debt up to 8, where REFRESH_DEFERRED is counted
instead; otherwise the group at the pointer is smoothed and the pointer goes on, from 23 to 3. CATCH_UP_EXPIRY refreshes
the same way and pays one visit of the debt. A refresh whose decision finds the swap queue full keeps the smoothed
values and the GUARD bits, leaves the queue, the pointer and the counts of refreshes as they were, and sets the
queue-blocked indication; it raises the debt by 1 when it was a regular one, and pays nothing when it was not. The
model's choice here: that an expiry acts at the deadline of a running timer (log entry 4), and that a CATCH_UP_EXPIRY
which finds the queue full leaves the debt and counts no REFRESH_DEFERRED, at debt 8 too (log entry 15). -/
def Obligations.WalkerRefreshes : Prop :=
  ∀ (d : Nat) (m : List Int) (s : State), s.now ≤ d → s.lle.link = .showtime →
    (s.lle.sync.refreshTimer = some d → s.lle.refreshAllowed = false → s.lle.sync.debt < 8 →
      ∃ t, exec (.refreshTimerExpiry m) s = .next t ∧
        t = { s with now := t.now, sup := t.sup, lle := t.lle } ∧
        t.now = d ∧ t.lle.sync.debt = s.lle.sync.debt + 1 ∧
        t.lle.sync.refreshTimer = some (d + 500) ∧ t.lle.sync.pointer = s.lle.sync.pointer ∧ t.lle.snr = s.lle.snr) ∧
    (s.lle.sync.refreshTimer = some d → s.lle.refreshAllowed = false → s.lle.sync.debt = 8 → s.ctb.wrapping 13 = [] →
      ∃ t, exec (.refreshTimerExpiry m) s = .next t ∧
        t = { s with now := t.now, sup := t.sup, lle := t.lle, ctb := t.ctb } ∧
        t.now = d ∧ t.lle.sync.debt = 8 ∧ t.ctb = { s.ctb with counters := s.ctb.counters.map (Counter.count 13) } ∧
        t.lle.sync.refreshTimer = some (d + 500) ∧ t.lle.sync.pointer = s.lle.sync.pointer ∧ t.lle.snr = s.lle.snr) ∧
    (∀ (i : Instr) (debt : Nat), s.lle.sync.swapQueue.length = 8 →
      (∀ x ∈ s.lle.sync.swapQueue, x.group ≠ s.lle.sync.pointer) →
      swapReason s.cfl.record.minMargin (groupOf (s.measureGroup s.lle.sync.pointer m).lle.snr s.lle.sync.pointer)
        (groupOf s.lle.normal s.lle.sync.pointer)
        ((s.measureGroup s.lle.sync.pointer m).proposed s.lle.sync.pointer) ≠ none →
      (i = .refreshTimerExpiry m ∧ s.lle.sync.refreshTimer = some d ∧ s.lle.refreshAllowed = true ∧
          s.lle.sync.debt < 8 ∧ debt = s.lle.sync.debt + 1) ∨
        (i = .catchUpExpiry m ∧ s.lle.sync.catchUpTimer = some d ∧ debt = s.lle.sync.debt) →
      ∃ t, exec i s = .next t ∧ t = { s with now := d, sup := t.sup, lle := t.lle } ∧
        t.lle.sync.debt = debt ∧ t.lle.sync.queueBlocked = true ∧ t.lle.sync.swapQueue = s.lle.sync.swapQueue ∧
        t.lle.sync.pointer = s.lle.sync.pointer ∧ t.lle.sync.refreshes = s.lle.sync.refreshes ∧
        t.lle.snr = setGroup s.lle.snr s.lle.sync.pointer
          (List.zipWith smooth (groupOf s.lle.snr s.lle.sync.pointer) m) ∧
        t.lle.guard = setGroup s.lle.guard s.lle.sync.pointer
          (tableBits .guard s.cfl.record s.lle.e s.leakage
            (List.zipWith smooth (groupOf s.lle.snr s.lle.sync.pointer) m)) ∧
        t.lle.normal = s.lle.normal) ∧
    (s.lle.sync.refreshTimer = some d → s.lle.refreshAllowed = true → s.lle.sync.swapQueue.length < 8 →
      ∃ t, exec (.refreshTimerExpiry m) s = .next t ∧
        t = { s with now := t.now, sup := t.sup, lle := t.lle } ∧
        t.now = d ∧ t.lle.sync.debt = s.lle.sync.debt ∧
        t.lle.sync.refreshTimer = some (d + 500) ∧
        t.lle.sync.pointer = (if s.lle.sync.pointer < 23 then s.lle.sync.pointer + 1 else 3) ∧
        t.lle.snr = setGroup s.lle.snr s.lle.sync.pointer
          (List.zipWith smooth (groupOf s.lle.snr s.lle.sync.pointer) m) ∧
        t.lle.normal = s.lle.normal ∧ t.lle.e = s.lle.e ∧ t.lle.d = s.lle.d) ∧
    (s.lle.sync.catchUpTimer = some d → s.lle.sync.swapQueue.length < 8 →
      ∃ t, exec (.catchUpExpiry m) s = .next t ∧
        t = { s with now := t.now, sup := t.sup, lle := t.lle } ∧
        t.now = d ∧ t.lle.sync.debt = s.lle.sync.debt - 1 ∧
        t.lle.sync.pointer = (if s.lle.sync.pointer < 23 then s.lle.sync.pointer + 1 else 3) ∧
        t.lle.snr = setGroup s.lle.snr s.lle.sync.pointer
          (List.zipWith smooth (groupOf s.lle.snr s.lle.sync.pointer) m) ∧
        t.lle.normal = s.lle.normal ∧ t.lle.e = s.lle.e ∧ t.lle.d = s.lle.d)

/-- GUARD_EXIT and SWITCH_RETRY_EXPIRY: the comparator is CLEAR and SWITCH to NORMAL is sent into the free slot. The
model's choice here: that an expiry acts at the deadline of a running timer (log entry 4). -/
def Obligations.GuardIsLeft : Prop :=
  ∀ (d : Nat) (s : State), s.now ≤ d → s.lle.link = .showtime → s.lle.slot = none → s.lle.switchWaiting = none →
    s.lle.downInForce = .guard →
    (s.lle.sync.guardTimer = some d → s.lle.sync.switchRetryTimer = none →
      ∃ t, exec .guardExit s = .next t ∧
        t = { s with now := t.now, sup := t.sup, lle := t.lle } ∧
        t.now = d ∧ t.lle.sync.guard = .clear ∧ t.lle.sync.guardTimer = none ∧
        t.lle.slot = some { request := .switch .normal, number := s.lle.nextNumber, attempt := 1, deadline := d + 250 } ∧
        t.lle.farOut = s.lle.farOut ++ [.request s.lle.nextNumber (.switch .normal) []]) ∧
    (s.lle.sync.switchRetryTimer = some d → s.lle.sync.guard = .clear →
      ∃ t, exec .switchRetryExpiry s = .next t ∧
        t = { s with now := t.now, sup := t.sup, lle := t.lle } ∧
        t.now = d ∧ t.lle.sync.switchRetryTimer = none ∧
        t.lle.slot = some { request := .switch .normal, number := s.lle.nextNumber, attempt := 1, deadline := d + 250 } ∧
        t.lle.farOut = s.lle.farOut ++ [.request s.lle.nextNumber (.switch .normal) []])

/-- IMPULSE_EVENT and PREDICTION_MISS: the event joins the list of the last 8 with its length held at 32, and the
needed depth follows; a miss moves the prediction on by a period, and the third in a row ends the lock. The model's
choice here: what the symbol count becomes (log entry 17). -/
def Obligations.ImpulsesAreFollowed : Prop :=
  (∀ (start length : Nat) (s : State), s.lle.link = .showtime →
    ∃ t, exec (.impulseEvent start length) s = .next t ∧
      t = { s with ybi := t.ybi, sup := t.sup, lle := t.lle, flt := t.flt, ctb := t.ctb } ∧
      t.lle.sync.impulses = listImpulse { start := start, length := min 32 length } s.lle.sync.impulses ∧
      t.lle.sync.neededDepth = depthNeeded t.lle.sync ∧ t.lle.sync.symbolCount = max s.lle.sync.symbolCount start ∧
      t.lle.sync.shieldRefused = false ∧ t.lle.link = .showtime) ∧
  ∀ (k : FenceLock) (s : State), s.lle.sync.lock = some k →
    (k.misses < 2 → exec .predictionMiss s = .next
      (s.onSync fun y =>
        { y with
          symbolCount := max y.symbolCount (k.windowEnd + 1)
          lock := some
            { period := k.period, predicted := k.predicted + k.period,
              windowEnd := k.predicted + k.period + largestImpulse y.impulses + 2, misses := k.misses + 1 } })) ∧
    (2 ≤ k.misses →
      ∃ t, exec .predictionMiss s = .next t ∧
        t = { s with ybi := t.ybi, sup := t.sup, lle := t.lle, flt := t.flt } ∧
        t.lle.sync.lock = none ∧
        t.lle.sync.neededDepth = largestImpulse s.lle.sync.impulses ∧ t.lle.sync.impulses = s.lle.sync.impulses)

/-- CORRECTED_CODEWORD, UNCORRECTED_CODEWORD, SECOND_TIMER_EXPIRY, SIGNAL_ABSENT and SIGNAL_PRESENT in SHOWTIME. A
second with 1 to 49 uncorrected codewords is errored and ends the row of severe seconds; one with 50 or with the
signal absent is errored and severe, and lengthens the row, here short of the tenth. MARGIN_WATCH_EXPIRY: a margin
that has been low for 60 s raises LINK_LOW_MARGIN, one that has been good for 60 s makes it inactive. The model's
choice here: that an expiry acts at the deadline of a running timer (log entry 4). -/
def Obligations.SecondsAndMarginAreJudged : Prop :=
  (∀ s : State, s.lle.link = .showtime →
     (s.ctb.wrapping 4 = [] →
       exec .correctedCodeword s = .next
         ((s.onCtb fun b => { b with counters := b.counters.map (Counter.count 4) }).onSync fun y =>
           { y with corrected := y.corrected + 1 })) ∧
     (s.ctb.wrapping 5 = [] →
       exec .uncorrectedCodeword s = .next
         ((s.onCtb fun b => { b with counters := b.counters.map (Counter.count 5) }).onSync fun y =>
           { y with uncorrected := y.uncorrected + 1 })) ∧
     (∀ d, s.lle.sync.secondTimer = some d → s.lle.sync.uncorrected = 0 → s.lle.sync.absentThisSecond = false →
       s.ctb.wrapping 1 = [] →
       exec .secondTimerExpiry s = .next
         (((s.reach d).onCtb fun b => { b with counters := b.counters.map (Counter.count 1) }).onSync fun y =>
           { y with
             secondTimer := some (d + 1000), corrected := 0, uncorrected := 0, absentThisSecond := y.signalAbsent,
             severeRun := 0 })) ∧
     (∀ d, s.lle.sync.secondTimer = some d → s.ctb.wrapping 1 = [] → s.ctb.wrapping 2 = [] → s.ctb.wrapping 3 = [] →
       (1 ≤ s.lle.sync.uncorrected → s.lle.sync.uncorrected < 50 → s.lle.sync.absentThisSecond = false →
         exec .secondTimerExpiry s = .next
           (((s.reach d).onCtb fun b =>
               { b with counters := (b.counters.map (Counter.count 1)).map (Counter.count 2) }).onSync fun y =>
             { y with
               secondTimer := some (d + 1000), corrected := 0, uncorrected := 0, absentThisSecond := y.signalAbsent,
               severeRun := 0 })) ∧
       (50 ≤ s.lle.sync.uncorrected ∨ s.lle.sync.absentThisSecond = true → s.lle.sync.severeRun < 9 →
         exec .secondTimerExpiry s = .next
           (((s.reach d).onCtb fun b =>
               { b with
                 counters := ((b.counters.map (Counter.count 1)).map (Counter.count 2)).map (Counter.count 3) }).onSync
             fun y =>
               { y with
                 secondTimer := some (d + 1000), corrected := 0, uncorrected := 0, absentThisSecond := y.signalAbsent,
                 severeRun := y.severeRun + 1 }))) ∧
     (s.lle.sync.signalTimer = none →
       exec .signalAbsent s = .next
         (s.onSync fun y =>
           { y with signalAbsent := true, absentThisSecond := true, signalTimer := some (s.now + 1000) })) ∧
     exec .signalPresent s = .next (s.onSync fun y => { y with signalAbsent := false, signalTimer := none })) ∧
  (∀ (d : Nat) (s : State), s.lle.sync.marginTimer = some d → s.now ≤ d → s.lth.stage = .none →
     (s.lle.sync.marginWatch = .falling → s.flt.entries.length < 16 →
       ∃ t, exec .marginWatchExpiry s = .next t ∧ t = { s with now := d, lle := t.lle, flt := t.flt, ybi := t.ybi } ∧
         t.lle.sync.marginWatch = .low ∧ t.lle.sync.marginTimer = none ∧ t.faultActive .linkLowMargin .line = true) ∧
     (s.lle.sync.marginWatch = .rising →
       ∃ t, exec .marginWatchExpiry s = .next t ∧ t = { s with now := d, lle := t.lle, flt := t.flt, ybi := t.ybi } ∧
         t.lle.sync.marginWatch = .ok ∧ t.lle.sync.marginTimer = none ∧ t.faultActive .linkLowMargin .line = false))

/-- The drops: ten severe seconds in a row (SECOND_TIMER_EXPIRY) and LOSS_OF_SIGNAL_EXPIRY take the link to
RETRAIN_WAIT with their reason and a backoff of 2 s, empty the payload queue, start the state of section 5.1 anew and
keep the values of the link; a loss of signal makes both voltage items due. The model's choice here: that an expiry
acts at the deadline of a running timer (log entry 4), that the check made due begins by a command of its own (log entry
11), and the mark of a downstream frame cut short (log entry 30). -/
def Obligations.ShowtimeDrops : Prop :=
  ∀ (d : Nat) (s : State), s.now ≤ d → s.lle.link = .showtime →
    (s.lle.sync.secondTimer = some d → s.lle.sync.severeRun = 9 → 50 ≤ s.lle.sync.uncorrected →
      ∃ t, exec .secondTimerExpiry s = .next t ∧
        t = { s with now := t.now, ybi := t.ybi, sup := t.sup, lle := t.lle, plp := t.plp, flt := t.flt, ctb := t.ctb } ∧
        t.now = d ∧ t.lle.link = .retrainWait ∧
        t.lle.lastDrop = .severeErrors ∧ t.lle.backoffTimer = some (d + 2000) ∧
        t.plp = s.plp.cutShort ∧ t.lle.sync = Showtime.start ∧
        t.lle.lastShow = some s.showValues ∧ t.lle.slot = none ∧ t.lle.retry = s.lle.retry) ∧
    (s.lle.sync.signalTimer = some d →
      ∃ t, exec .lossOfSignalExpiry s = .next t ∧
        t = { s with now := t.now, ybi := t.ybi, sup := t.sup, lle := t.lle, plp := t.plp, lth := t.lth, flt := t.flt, ctb := t.ctb } ∧
        t.now = d ∧ t.lle.link = .retrainWait ∧
        t.lle.lastDrop = .lossOfSignal ∧ t.lle.backoffTimer = some (d + 2000) ∧
        t.plp = s.plp.cutShort ∧ t.lle.sync = Showtime.start ∧
        t.lle.lastShow = some s.showValues ∧ t.lth.voltageDue = true ∧ t.lth.lineVoltageDue = true)

/-! ### House ports (section 6.1) -/

/-- PORT_LOOP_CLOSED of a port on the hook: DIALTONE with dial tone, the first-digit window open for 4 s and 20 s
off-hook; of a port that answers a call at the instant of the other port's answer: it joins the call. PORT_LOOP_OPENED
begins a break. PORT_ON_HOOK: a break of more than 800 ms puts the port on the hook. DIGIT_PAUSE_EXPIRY and DTMF_DIGIT
in the first-digit window: 8 begins an intercom number, star and hash get the error tone. A change of the port's state
while nothing rings computes the ring plan, which is empty and asks the converter for no load. The model's choice here:
that an expiry acts at the deadline of a running timer (log entry 4), and the late close of a loop (log entry 40), that
an opening of the loop stops the pause of a digit (log entry 41), and that a port which answers at the instant of the
other port's answer joins the call (log entry 59), and that a DTMF_DIGIT in the window loses the pulses of a digit in
progress (log entry 64). -/
def Obligations.HookAndFirstDigit : Prop :=
  (∀ (p : Port) (s : State), s.calm → s.noneHeld → s.cfl.state = .ready →
     (s.portsSilent → (s.port p).state = .onHook → s.targetCall p = none → s.vsw.line ≠ .ringIn → s.coAnswered p = none →
       (p = .a → s.cfl.record.directA = false) → (p = .b → s.cfl.record.directB = false) → 18 ≤ s.pins.current p →
       exec (.portLoopClosed p) s = .next
         (s.onPort p fun r =>
           { r.toDialtone .dial with
             offHook := true, noLoadTimer := none, noLoadCheck := none, window := .first, lowCurrentTimer := none,
             firstDigitTimer := some (s.now + 4000), offHookTimer := some (s.now + 20000) }).plannedSilent) ∧
     (∀ c, s.portsSilent → (s.port p).state = .onHook → s.targetCall p = none → s.vsw.line = .seized → s.coAnswered p = some c.id →
       s.cct.calls = [c] → c.id ≠ 0 → c.kind = .outside → c.state = .active →
       c.parties = [{ who := .port (otherPort p), mark := .connected }] → s.cfl.record.joinAllowed = true →
       c.rung = none → 18 ≤ s.pins.current p →
       ∃ t, exec (.portLoopClosed p) s = .next t ∧ t = { s.plannedSilent with vsw := t.vsw, cct := t.cct } ∧
         t.cct = { s.cct with
           calls := [{ c with parties := c.parties ++ [{ who := .port p, mark := .connected }], everConnected := true }] } ∧
         (t.port p).state = .connected ∧ t.vsw.line = .seized ∧ t.port (otherPort p) = s.port (otherPort p)) ∧
     ((s.port p).state ≠ .outOfService → (s.port p).offHook = true → (s.port p).breakStart = none →
       exec (.portLoopOpened p) s = .next
         (s.onPort p fun r => { r with breakStart := some s.now, pauseTimer := none })) ∧
     ∀ b, s.portsSilent → (s.port p).state ≠ .outOfService → (s.port p).breakStart = some b → s.now ≤ b + 800 →
       s.liveCallOf (.port p) = none →
       ∃ t, exec (.portOnHook p) s = .next t ∧
         t = { s with now := t.now, ybi := t.ybi, sup := t.sup, vsw := t.vsw, cct := t.cct, flt := t.flt } ∧
         t.now = b + 800 ∧
         t.sup = (if (s.port p).state = .onHook then s.sup
           else { s.sup with converter := s.sup.converter.askedNothing (b + 800) }) ∧
         t.port p = { PortRec.reset with state := .onHook, noLoadTimer := some (b + 800 + 600000) } ∧
         t.faultActive .portOffhookLock (.port p) = false ∧ t.faultActive .portLowCurrent (.port p) = false ∧
         t.cct.calls = s.cct.calls ∧ t.vsw.line = s.vsw.line) ∧
  (∀ (p : Port) (s : State), s.calm → s.noneHeld → (s.port p).state = .dialtone → (s.port p).window = .first →
     (∀ d, s.portsSilent → (s.port p).pauseTimer = some d → s.now ≤ d → (s.port p).pulses = 8 →
       exec (.digitPauseExpiry p) s = .next
         ((s.reach d).onPort p fun r =>
           { r.closed with state := .collecting, tone := .none, interDigitTimer := some (d + 4000) }).plannedSilent) ∧
     (s.portsSilent → exec (.dtmfDigit p (.digit 8)) s = .next
       (s.onPort p fun r =>
         { r.closed with state := .collecting, tone := .none, interDigitTimer := some (s.now + 4000) }).plannedSilent) ∧
     exec (.dtmfDigit p .star) s = .next (s.onPort p fun r => { r.closed with tone := .error }) ∧
     exec (.dtmfDigit p .hash) s = .next (s.onPort p fun r => { r.closed with tone := .error }))

/-- FIRST_DIGIT_WINDOW_EXPIRY, INTER_DIGIT_EXPIRY, OFF_HOOK_TIMER_EXPIRY and HOWLER_TIMER_EXPIRY: the window closes; the
error tone in DIALTONE; HOWLER for 30 s; LOCKED_OFF with PORT_OFFHOOK_LOCK. POST_FLASH_WINDOW_EXPIRY: the port gets the
call it holds back: ACTIVE, with the port as its one party, CONNECTED. A change of the port's state while nothing rings
computes the ring plan, which is empty and asks the converter for no load. The model's choice here: that an expiry acts
at the deadline of a running timer (log entry 4). -/
def Obligations.PortTimersRunOut : Prop :=
  (∀ (p : Port) (d : Nat) (s : State), s.calm → s.noneHeld → s.now ≤ d →
     ((s.port p).firstDigitTimer = some d → (s.port p).pulses = 0 → (s.port p).breakStart = none →
       exec (.firstDigitWindowExpiry p) s = .next
         ((s.reach d).onPort p fun r => { r with firstDigitTimer := none, window := .closed })) ∧
     (s.portsSilent → (s.port p).interDigitTimer = some d →
       exec (.interDigitExpiry p) s = .next
         (((s.reach d).onPort p (PortRec.toDialtone .error)).portMoved (s.port p).state .dialtone)) ∧
     (s.portsSilent → (s.port p).offHookTimer = some d → s.cct.deferred = [] →
       exec (.offHookTimerExpiry p) s = .next
         (((s.reach d).onPort p fun r =>
           { r.closed with
             state := .howler, tone := .howl, awaiting := false, offHookTimer := none,
             howlerTimer := some (d + 30000) }).portMoved (s.port p).state .howler)) ∧
     (s.portsSilent → (s.port p).howlerTimer = some d → s.flt.entries.length < 16 →
       ∃ t, exec (.howlerTimerExpiry p) s = .next t ∧
         t = { s with now := d, ybi := t.ybi, sup := t.sup, vsw := t.vsw, flt := t.flt } ∧
         t.sup = (if (s.port p).state = .lockedOff then s.sup
           else { s.sup with converter := s.sup.converter.askedNothing d }) ∧
         t.port p = { s.port p with state := .lockedOff, tone := .none, howlerTimer := none } ∧
         t.faultActive .portOffhookLock (.port p) = true)) ∧
  (∀ (p : Port) (d : Nat) (c : CallRec) (s : State), s.calm → s.portsSilent → s.now ≤ d →
     (s.port p).postFlashTimer = some d → (s.port p).window = .postFlash → (s.port p).pulses = 0 →
     (s.port p).breakStart = none → s.cct.calls = [c] → c.kind = .outside → c.state = .held →
     c.parties = [{ who := .port p, mark := .holder }] →
     ∃ t, exec (.postFlashWindowExpiry p) s = .next t ∧
       t = { State.portMoved (s.port p).state .connected { s with now := d } with vsw := t.vsw, cct := t.cct } ∧
       t.cct = { s.cct with
         calls :=
           [{ c with
             state := .active, parties := [{ who := .port p, mark := .connected }], rung := none, hold := none,
             saved := none, everConnected := true }] } ∧
       (t.port p).state = .connected ∧ (t.port p).tone = .none ∧ (t.port p).postFlash = false ∧
       (t.port p).offHookTimer = none ∧ (t.port p).window = .closed ∧ t.vsw.line = s.vsw.line)

/-- NO_LOAD_TIMER_EXPIRY, NO_LOAD_CHECK_DONE, LOOP_CURRENT_CHANGE and LOW_CURRENT_EXPIRY: a check of 100 ms every 600
s keeps PORT_NO_LOAD, and a current below 18 mA for 2 s raises PORT_LOW_CURRENT. The model's choice here: that an
expiry acts at the deadline of a running timer (log entry 4), and that the timer starts whenever the table has no ACTIVE
entry of the fault (log entry 93). -/
def Obligations.PortsAreChecked : Prop :=
  ∀ (p : Port) (s : State),
    (∀ d, (s.port p).noLoadTimer = some d → s.now ≤ d →
      exec (.noLoadTimerExpiry p) s = .next
        ((s.reach d).onPort p fun r => { r with noLoadTimer := none, noLoadCheck := some (d + 100) })) ∧
    (∀ d, (s.port p).noLoadCheck = some d → s.now ≤ d → s.flt.entries.length < 16 → s.lth.stage = .none →
      ∀ found, ∃ t, exec (.noLoadCheckDone p found) s = .next t ∧
        t = { s.reach d with vsw := t.vsw, flt := t.flt, ybi := t.ybi } ∧
        t.port p = { s.port p with noLoadCheck := none, noLoadTimer := some (d + 600000) } ∧
        t.faultActive .portNoLoad (.port p) = !found) ∧
    (∀ ma, (s.pins.current p < 18 ↔ ma < 18) →
      exec (.loopCurrentChange p ma) s = .next (s.onPins (Pins.setCurrent p ma))) ∧
    (∀ ma, 18 ≤ s.pins.current p → ma < 18 → s.cfl.state = .ready → (s.port p).state ≠ .outOfService →
      (s.port p).offHook = true → (s.port p).lowCurrentTimer = none → s.faultActive .portLowCurrent (.port p) = false →
      exec (.loopCurrentChange p ma) s = .next
        ((s.onPins (Pins.setCurrent p ma)).onPort p fun r => { r with lowCurrentTimer := some (s.now + 2000) })) ∧
    ∀ d, (s.port p).lowCurrentTimer = some d → s.flt.entries.length < 16 → s.lth.stage = .none →
      ∃ t, exec (.lowCurrentExpiry p) s = .next t ∧ t = { s.reach d with vsw := t.vsw, flt := t.flt, ybi := t.ybi } ∧
        t.port p = { s.port p with lowCurrentTimer := none } ∧ t.faultActive .portLowCurrent (.port p) = true

/-! ### The outside line and ringing (sections 6.2 to 6.4) -/

/-- LINE_VOLTAGE_CHANGE and RINGING_VOLTAGE_CHANGE on an IDLE line: a voltage of the off-hook band must hold 100 ms, one
below 3 V 10 s, and ringing 150 ms; a voltage of the on-hook band stops the timers. OFF_HOOK_BAND_HELD,
ON_HOOK_BAND_HELD, RELEASE_GUARD_EXPIRY, NO_FEED_EXPIRY and FEED_RESTORED: the line goes PARALLEL, IDLE again, rests
after the release guard, goes OUT with LOOP_OPEN ACTIVE, and IDLE when the feed has stood. In SHOWTIME, with PARALLEL
among the detectors of the guard: entry to PARALLEL makes the comparator ACTIVE, counts GUARD_ENTRY and asks for the
GUARD table; the end of it makes the comparator EXITING for 5 s, and a new entry within that time makes it ACTIVE again.
The model's choice here: that an expiry acts at the deadline of a running timer (log entry 4), and that an automatic
check or a survey phase, for which an IDLE or OUT line may be all that is wanting, begins by a command of its own (log
entry 11). -/
def Obligations.LineIsSensedAndMoves : Prop :=
  (∀ s : State, s.cfl.state = .ready → s.vsw.line = .idle →
     (∀ mv, 3000 ≤ mv → mv ≤ 15000 → s.vsw.offHookBandTimer = none →
       ∃ t, exec (.lineVoltageChange mv) s = .next t ∧ t = { s with pins := t.pins, vsw := t.vsw } ∧
         t.pins = { s.pins with lineMillivolt := mv } ∧
         t.vsw = { s.vsw with
           offHookBandTimer := some (s.now + 100), onHookBandTimer := none, noFeedTimer := none, feedTimer := none }) ∧
     (∀ mv, mv < 3000 → s.vsw.noFeedTimer = none →
       ∃ t, exec (.lineVoltageChange mv) s = .next t ∧ t = { s with pins := t.pins, vsw := t.vsw } ∧
         t.pins = { s.pins with lineMillivolt := mv } ∧
         t.vsw = { s.vsw with
           offHookBandTimer := none, onHookBandTimer := none, noFeedTimer := some (s.now + 10000), feedTimer := none }) ∧
     (∀ mv, 40000 ≤ mv →
       ∃ t, exec (.lineVoltageChange mv) s = .next t ∧ t = { s with pins := t.pins, vsw := t.vsw } ∧
         t.vsw = { s.vsw with
           offHookBandTimer := none, onHookBandTimer := none, noFeedTimer := none, feedTimer := none }) ∧
     (s.vsw.inBurst = false → s.vsw.burstOnTimer = none →
       exec (.ringingVoltageChange true) s = .next
         ((s.onPins fun p => { p with ringing := true }).onVsw fun v =>
           { v with burstOnTimer := some (s.now + 150), burstOffTimer := none })) ∧
     (s.vsw.inBurst = false →
       exec (.ringingVoltageChange false) s = .next
         ((s.onPins fun p => { p with ringing := false }).onVsw fun v =>
           { v with burstOnTimer := none, burstOffTimer := none }))) ∧
  (∀ (d : Nat) (s : State), s.now ≤ d → s.lle.link ≠ .showtime → s.lth.stage = .none →
     (s.vsw.offHookBandTimer = some d → s.vsw.line = .idle →
       ∃ t, exec .offHookBandHeld s = .next t ∧
         t = { s with now := t.now, ybi := t.ybi, sup := t.sup, vsw := t.vsw, lth := t.lth, flt := t.flt, ctb := t.ctb } ∧
         t.now = d ∧ t.vsw.line = .parallel ∧
         t.vsw.portA = s.vsw.portA ∧ t.vsw.portB = s.vsw.portB) ∧
     (s.vsw.onHookBandTimer = some d → s.vsw.line = .parallel →
       ∃ t, exec .onHookBandHeld s = .next t ∧
         t = { s with now := t.now, ybi := t.ybi, sup := t.sup, vsw := t.vsw, lth := t.lth, flt := t.flt, ctb := t.ctb } ∧
         t.now = d ∧ t.vsw.line = .idle ∧
         t.vsw.portA = s.vsw.portA ∧ t.vsw.portB = s.vsw.portB) ∧
     (s.vsw.releaseTimer = some d → s.vsw.line = .releasing →
       ∃ t, exec .releaseGuardExpiry s = .next t ∧
         t = { s with now := t.now, ybi := t.ybi, sup := t.sup, vsw := t.vsw, lth := t.lth, flt := t.flt, ctb := t.ctb } ∧
         t.now = d ∧
         t.vsw.line = (if s.faultActive .foreignVoltageHigh .line = true ∨ s.faultActive .loopOpen .line = true then .out
           else .idle) ∧
         t.vsw.releaseTimer = none ∧ t.vsw.portA = s.vsw.portA ∧
         t.vsw.portB = s.vsw.portB) ∧
     (s.vsw.noFeedTimer = some d → s.vsw.line = .idle → s.flt.entries.length < 16 → s.ybi.urgent.length < 4 →
       s.routineRoom →
       ∃ t, exec .noFeedExpiry s = .next t ∧
         t = { s with now := t.now, ybi := t.ybi, sup := t.sup, vsw := t.vsw, lth := t.lth, flt := t.flt, ctb := t.ctb } ∧
         t.now = d ∧ t.faultActive .loopOpen .line = true ∧ t.vsw.line = .out) ∧
     (s.vsw.feedTimer = some d → s.vsw.line = .out → s.faultActive .foreignVoltageHigh .line = false →
       s.ybi.urgent.length < 4 → s.routineRoom →
       ∃ t, exec .feedRestored s = .next t ∧
         t = { s with now := t.now, ybi := t.ybi, sup := t.sup, vsw := t.vsw, lth := t.lth, flt := t.flt, ctb := t.ctb } ∧
         t.now = d ∧ t.faultActive .loopOpen .line = false ∧ t.vsw.line = .idle)) ∧
  (∀ (d : Nat) (s : State), s.now ≤ d → s.lle.link = .showtime → s.cfl.record.guardSelection ≠ .ringIn →
     s.lth.stage = .none →
     (s.vsw.offHookBandTimer = some d → s.vsw.line = .idle →
       (s.lle.sync.guard = .clear → s.lle.downInForce = .normal → s.lle.slot = none → s.routineRoom →
         s.ctb.wrapping 12 = [] →
         ∃ t, exec .offHookBandHeld s = .next t ∧
           t = { s with now := d, ybi := t.ybi, sup := t.sup, lle := t.lle, vsw := t.vsw, lth := t.lth, flt := t.flt, ctb := t.ctb } ∧
           t.vsw.line = .parallel ∧ t.lle.sync.guard = .active ∧ t.lle.sync.switchRefused = false ∧
           t.ctb = { s.ctb with counters := s.ctb.counters.map (Counter.count 12) } ∧
           t.lle.slot = some { request := .switch .guard, number := s.lle.nextNumber, attempt := 1, deadline := d + 250 } ∧
           t.lle.farOut = s.lle.farOut ++ [.request s.lle.nextNumber (.switch .guard) s.lle.guard]) ∧
       (s.lle.sync.guard = .exiting →
         ∃ t, exec .offHookBandHeld s = .next t ∧
           t = { s with now := d, ybi := t.ybi, sup := t.sup, lle := t.lle, vsw := t.vsw, lth := t.lth, flt := t.flt, ctb := t.ctb } ∧
           t.vsw.line = .parallel ∧ t.lle.sync.guard = .active ∧ t.lle.sync.guardTimer = none)) ∧
     (s.vsw.onHookBandTimer = some d → s.vsw.line = .parallel → s.lle.sync.guard = .active →
       ∃ t, exec .onHookBandHeld s = .next t ∧
         t = { s with now := d, ybi := t.ybi, sup := t.sup, lle := t.lle, vsw := t.vsw, lth := t.lth, flt := t.flt, ctb := t.ctb } ∧
         t.vsw.line = .idle ∧ t.lle.sync.guard = .exiting ∧ t.lle.sync.guardTimer = some (d + 5000)))

/-- RING_BURST_DETECTED, RING_BURST_END and RING_END_TIMEOUT: the first burst begins RING_IN with an incoming call in
SETUP; its end starts the 6 s after which the ringing is over, the call is removed, its episode ends with RING_END
ENDED, an empty plan and the rung ports ON_HOOK, and MISSED_RING is counted. In SHOWTIME, with RING_IN among the
detectors of the guard: the first burst makes the comparator ACTIVE, and the end of the ringing makes it EXITING for 5
s. The model's choice here: that an expiry acts at the deadline of a running timer (log entry 4), and that an automatic
check, for which an IDLE line may be all that is wanting, begins by a command of its own (log entry 11). -/
def Obligations.IncomingRingingComesAndGoes : Prop :=
  (∀ (d : Nat) (s : State), s.now ≤ d → s.lle.link ≠ .showtime → s.lth.stage = .none →
     (s.vsw.burstOnTimer = some d → s.vsw.line = .idle → s.cct.calls = [] → s.sup.supply = .mains →
       s.vsw.portB.state ≠ .outOfService → s.vsw.episodes = [] →
       ∃ t, exec .ringBurstDetected s = .next t ∧
         t = { s with now := t.now, ybi := t.ybi, sup := t.sup, vsw := t.vsw, cct := t.cct, lth := t.lth, flt := t.flt, ctb := t.ctb } ∧
         t.now = d ∧ t.vsw.line = .ringIn ∧ t.vsw.inBurst = true ∧
         t.vsw.ringEndTimer = none ∧
         t.cct = { s.cct with
           calls := [CallRec.fresh s.cct.nextCallId .outside .incoming .setup []]
           nextCallId := nextCallId s.cct.nextCallId } ∧
         t.vsw.episodes.map (fun e => (e.callId, e.kind)) = [(s.cct.nextCallId, .outside)]) ∧
     (s.vsw.burstOffTimer = some d → s.vsw.line = .ringIn →
       ∃ t, exec .ringBurstEnd s = .next t ∧
         t = { s with now := t.now, sup := t.sup, vsw := t.vsw } ∧
         t.now = d ∧ t.vsw.inBurst = false ∧ t.vsw.burstOffTimer = none ∧
         t.vsw.ringEndTimer = some (d + 6000) ∧ t.vsw.line = .ringIn) ∧
     ∀ c e, s.vsw.ringEndTimer = some d → s.vsw.line = .ringIn → s.cct.calls = [c] → c.kind = .outside →
       c.origin = .incoming → c.state = .setup → c.parties = [] → s.vsw.episodes = [e] → e.callId = c.id →
       e.kind = .outside → s.sup.supply = .mains → s.vsw.portB.state ≠ .outOfService → s.ctb.wrapping 17 = [] →
       s.routineRoom → s.callRoom →
       ∃ t, exec .ringEndTimeout s = .next t ∧
         t = { s with now := d, ybi := t.ybi, sup := t.sup, vsw := t.vsw, cct := t.cct, lth := t.lth, flt := t.flt, ctb := t.ctb } ∧
         t.vsw.line = .idle ∧ t.vsw.ringEndTimer = none ∧ t.vsw.inBurst = false ∧ t.vsw.episodes = [] ∧
         t.vsw.plan = RingPlan.empty ∧
         t.vsw.portA = (if s.vsw.portA.state = .ringing then PortRec.onHookAt d else s.vsw.portA) ∧
         t.vsw.portB = (if s.vsw.portB.state = .ringing then PortRec.onHookAt d else s.vsw.portB) ∧
         t.cct = { s.cct with calls := [] } ∧ t.ybi.call = s.ybi.call ++ [ringEndFrame c.id false] ∧
         t.ctb = { s.ctb with counters := s.ctb.counters.map (Counter.count 17) }) ∧
  (∀ (d : Nat) (s : State), s.now ≤ d → s.lle.link = .showtime → s.cfl.record.guardSelection ≠ .parallel →
     s.lth.stage = .none →
     (s.vsw.burstOnTimer = some d → s.vsw.line = .idle → s.lle.sync.guard = .clear →
       ∃ t, exec .ringBurstDetected s = .next t ∧
         t = { s with
           now := d, ybi := t.ybi, sup := t.sup, lle := t.lle, vsw := t.vsw, cct := t.cct, lth := t.lth, flt := t.flt
           ctb := t.ctb } ∧
         t.vsw.line = .ringIn ∧ t.lle.sync.guard = .active ∧ t.lle.sync.switchRefused = false) ∧
     (s.vsw.ringEndTimer = some d → s.vsw.line = .ringIn → s.lle.sync.guard = .active →
       ∃ t, exec .ringEndTimeout s = .next t ∧
         t = { s with
           now := d, ybi := t.ybi, sup := t.sup, lle := t.lle, vsw := t.vsw, cct := t.cct, lth := t.lth, flt := t.flt
           ctb := t.ctb } ∧
         t.vsw.line = .idle ∧ t.lle.sync.guard = .exiting ∧ t.lle.sync.guardTimer = some (d + 5000)))

/-- OUTPULSE_TIMER_EXPIRY: break 60 ms, make 40 ms, and after the last make 700 ms before the next digit, a 0 with ten
pulses; a digit leaves the queue at its last make. CADENCE_PHASE_EXPIRY: the episode's cadence goes on to its next
phase, timed from the end of the last, and the converter is asked for the loads of the episodes that then burst. The
model's choice here: that an expiry acts at the deadline of a running timer (log entry 4). -/
def Obligations.OutpulsingAndCadence : Prop :=
  (∀ (o : Outpulse) (s : State), s.vsw.outpulse = some o → s.now ≤ o.ends →
     (o.phase = .opened → o.pulsesLeft ≠ 0 →
       exec .outpulseTimerExpiry s = .next
         ((s.reach o.ends).onVsw fun v => { v with outpulse := some { o with phase := .make, ends := o.ends + 40 } })) ∧
     (o.phase = .opened → o.pulsesLeft = 0 →
       exec .outpulseTimerExpiry s = .next
         ((s.reach o.ends).onVsw fun v =>
           { v with
             outpulse := some { o with phase := .make, ends := o.ends + 40 }, repeatQueue := v.repeatQueue.drop 1 })) ∧
     (o.phase = .make → o.pulsesLeft ≠ 0 →
       exec .outpulseTimerExpiry s = .next
         ((s.reach o.ends).onVsw fun v =>
           { v with outpulse := some { pulsesLeft := o.pulsesLeft - 1, phase := .opened, ends := o.ends + 60 } })) ∧
     (o.phase = .make → o.pulsesLeft = 0 →
       exec .outpulseTimerExpiry s = .next
         ((s.reach o.ends).onVsw fun v => { v with outpulse := some { o with phase := .pause, ends := o.ends + 700 } })) ∧
     (o.phase = .pause → s.vsw.repeatQueue = [] →
       exec .outpulseTimerExpiry s = .next ((s.reach o.ends).onVsw fun v => { v with outpulse := none })) ∧
     ∀ x q, o.phase = .pause → s.vsw.repeatQueue = x :: q →
       exec .outpulseTimerExpiry s = .next
         ((s.reach o.ends).onVsw fun v =>
           let next : Outpulse :=
             { pulsesLeft := (if x.digit = 0 then 10 else x.digit) - 1, phase := .opened, ends := o.ends + 60 }
           { v with outpulse := some next })) ∧
  (∀ (d : Nat) (e : Episode) (s : State), s.vsw.episodes = [e] → e.timer = some d → s.now ≤ d →
     ∃ t, exec (.cadencePhaseExpiry e.callId) s = .next t ∧
       t = { s.reach d with vsw := t.vsw, sup := t.sup } ∧
       t.vsw.episodes =
         [{ e with phase := e.phase + 1, timer := some (d + phaseMs s.cfl.record.cadence (e.phase + 1)) }] ∧
       t.vsw.plan = s.vsw.plan ∧ t.sup.supply = s.sup.supply ∧ t.sup.railLevel = s.sup.railLevel ∧
       (s.sup.converter.state = .on → e.kind = .intercom → e.phase % 2 = 0 → t.sup.converter.burst = none) ∧
       (s.sup.converter.state = .off → e.kind = .intercom → e.phase % 2 = 1 →
         (∃ l ∈ s.vsw.plan.loads, l.callId = e.callId) →
         t.sup.converter.state = .settling ∧ t.sup.converter.settleTimer = some (d + 20) ∧
           t.sup.converter.held =
             some ((s.vsw.plan.loads.filter (fun l => l.callId == e.callId)).map (·.load))))

/-! ### The loop survey (chapter 8) -/

/-- SURVEY_PHASE_START and AUTOMATIC_CHECK_START: the line goes to TEST with the relay at MONITOR and the first item
begins; a metallic phase takes the relay to SEPARATE. ITEM_TIMER_EXPIRY of the last item of a phase: its entry of the
loop record is written with what was read, the relay rests, and the line stays in TEST for 200 ms. The model's choice
here: that the phase and the check begin by commands of their own, and the instant of an expiry (log entries 4, 11).
-/
def Obligations.SurveyPhasesAndItems : Prop :=
  (∀ s : State, s.lle.link ≠ .showtime → s.vsw.line = .idle ∨ s.vsw.line = .out →
     (∀ r i, s.lth.stage = .waitVoltage → s.lth.running = some r → s.voltageReady = true →
       r.remaining.find? Item.isVoltage = some i →
       ∃ t, exec .surveyPhaseStart s = .next t ∧
         t = { s with ybi := t.ybi, sup := t.sup, vsw := t.vsw, lth := t.lth, flt := t.flt, ctb := t.ctb } ∧
         t.lth.stage = .item i ∧ t.lth.relay = .monitor ∧
         t.lth.itemTimer = some (s.now + i.durationMs) ∧ t.lth.waitTimer = none ∧ t.lth.running = some r ∧
         t.vsw.line = .test) ∧
     (∀ r i, s.lth.stage = .waitMetallic → s.lth.running = some r → s.metallicReady r = true → r.allowDrop = false →
       r.remaining.find? Item.intrusive = some i →
       ∃ t, exec .surveyPhaseStart s = .next t ∧
         t = { s with ybi := t.ybi, sup := t.sup, vsw := t.vsw, lth := t.lth, flt := t.flt, ctb := t.ctb } ∧
         t.lth.stage = .item i ∧ t.lth.relay = .separate ∧
         t.lth.itemTimer = some (s.now + i.durationMs) ∧ t.lth.waitTimer = none ∧ t.lth.running = some r ∧
         t.vsw.line = .test) ∧
     (s.lth.voltageDue = true → s.lth.lineVoltageDue = false → s.lth.running = none → s.lth.pending = none →
       s.voltageReady = true →
       ∃ t, exec .automaticCheckStart s = .next t ∧
         t = { s with ybi := t.ybi, sup := t.sup, vsw := t.vsw, lth := t.lth, flt := t.flt, ctb := t.ctb } ∧
         t.lth.stage = .item .foreignVoltage ∧ t.lth.relay = .monitor ∧
         t.lth.itemTimer = some (s.now + 1000) ∧
         t.lth.running = some
           { originator := none, items := [.foreignVoltage], allowDrop := false, merged := [], ended := [] } ∧
         t.vsw.line = .test)) ∧
  (∀ (d : Nat) (x : LoopReadings) (r : Survey) (s : State), s.now ≤ d → s.lth.itemTimer = some d →
     s.lth.running = some r → s.lle.link ≠ .showtime →
     (s.lth.stage = .item .lineVoltage → (r.endItem .lineVoltage .valid).nextItem .lineVoltage = none →
       ∃ t, exec (.itemTimerExpiry x) s = .next t ∧ t = { s with now := d, lth := t.lth } ∧
         t.lth = { s.lth with
           lineVoltage := { status := .valid, results := some (.lineVoltage (min 100 x.feed)), stamp := t.uptime }
           running := some (r.endItem .lineVoltage .valid), lineVoltageDue := false, stage := .restoring,
           relay := .rest, itemTimer := none, restoreTimer := some (d + 200) }) ∧
     (s.lth.stage = .item .capacitance → s.lth.holderAdded = false → s.lle.attemptHeld = false → x.nanofarad ≤ 1000 →
       (r.endItem .capacitance .valid).nextItem .capacitance = none →
       ∃ t, exec (.itemTimerExpiry x) s = .next t ∧ t = { s with now := d, lth := t.lth } ∧
         t.lth = { s.lth with
           capacitance :=
             { status := .valid, results := some (.capacitance x.nanofarad (x.nanofarad * 20)), stamp := t.uptime }
           running := some (r.endItem .capacitance .valid), stage := .restoring, relay := .rest, itemTimer := none,
           restoreTimer := some (d + 200) }))

/-- ITEM_TIMER_EXPIRY of any item: its entry of the loop record takes the status and the results that section 8.1
gives the reading, stamped with the uptime, and the entries of the other items stand. The readings saturate at 250 V,
100 V and 10000 kilohm; a loop above 4000 ohm and one above 20 kilohm are out of range, and so is a capacitance above
1000 nF. The model's choice here: that an expiry acts at the deadline of a running timer (log entry 4). -/
def Obligations.ItemsWriteTheirEntries : Prop :=
  (∀ (i : Item) (d : Nat) (x : LoopReadings) (s : State), s.lth.stage = .item i → s.lth.itemTimer = some d →
    ∃ t, exec (.itemTimerExpiry x) s = .next t ∧
      t = { s with
        now := t.now, ybi := t.ybi, sup := t.sup, lle := t.lle, plp := t.plp, vsw := t.vsw, cct := t.cct, lth := t.lth
        flt := t.flt, ctb := t.ctb } ∧
      t.lth.entry i = { status := (measure i x).1, results := (measure i x).2, stamp := t.uptime } ∧
      ∀ j, j ≠ i → t.lth.entry j = s.lth.entry j) ∧
  ∀ x : LoopReadings,
    measure .foreignVoltage x =
      (.valid, some (.foreignVoltage (min 250 x.acTip) (min 250 x.dcTip) (min 250 x.acRing) (min 250 x.dcRing))) ∧
    measure .lineVoltage x = (.valid, some (.lineVoltage (min 100 x.feed))) ∧
    (x.loopOhm ≤ 4000 → measure .resistance x = (.valid, some (.resistance (.value x.loopOhm)))) ∧
    (4000 < x.loopOhm → x.loopOhm ≤ 20000 → measure .resistance x = (.outOfRange, some (.resistance .above4000))) ∧
    (20000 < x.loopOhm → measure .resistance x = (.outOfRange, some (.resistance .openLoop))) ∧
    measure .insulation x =
      (.valid, some (.insulation (min 10000 x.tipGround) (min 10000 x.ringGround) (min 10000 x.tipRing))) ∧
    (x.nanofarad ≤ 1000 → measure .capacitance x = (.valid, some (.capacitance x.nanofarad (x.nanofarad * 20)))) ∧
    (1000 < x.nanofarad → measure .capacitance x = (.outOfRange, some (.capacitance 1000 20000)))

/-- RESTORE_TIMER_EXPIRY, WAIT_TIMER_EXPIRY and TEST_RING_DETECTED: a request whose items have all ended is answered and
leaves, the line being IDLE or OUT again; after 60 s of waiting the items left end NOT_RUN; ringing aborts the item. The
model's choice here: that an expiry acts at the deadline of a running timer (log entry 4), that an automatic check, for
which an empty running slot may be all that is wanting, begins by a command of its own (log entry 11), and that the
answer of a request follows the LINE_STATUS of the line in the ROUTINE queue (log entry 104). -/
def Obligations.SurveyEnds : Prop :=
  (∀ (d n : Nat) (r : Survey) (s : State), s.now ≤ d → s.lth.restoreTimer = some d → s.lth.running = some r →
    r.remaining = [] → r.originator = some n → r.merged = [] → s.lth.pending = none → s.cct.deferred = [] →
    s.vsw.line = .test → s.lle.link ≠ .showtime → s.ybi.listenOnly = false → s.ybi.routine = [] → s.vsw.inBurst = false →
    ∃ t, exec .restoreTimerExpiry s = .next t ∧
      t = { s with now := t.now, ybi := t.ybi, vsw := t.vsw, lth := t.lth } ∧
      t.now = d ∧ t.vsw.line = s.restingLine ∧ t.lth.running = none ∧
      t.lth.stage = .none ∧ t.lth.restoreTimer = none ∧
      t.ybi = { s.ybi with routine := [lineStatusFrame false s.restingLine, r.originatorFrame n] }) ∧
  (∀ (d n : Nat) (r : Survey) (s : State), s.now ≤ d → s.lth.waitTimer = some d → s.lth.running = some r →
    r.originator = some n → r.merged = [] → s.lth.pending = none → s.routineRoom → s.lle.link ≠ .showtime →
    ∃ t, exec .waitTimerExpiry s = .next t ∧ t = { s with now := d, ybi := t.ybi, lth := t.lth } ∧
      t.lth = { s.lth with running := none, stage := .none, waitTimer := none } ∧
      t.ybi = { s.ybi with routine := s.ybi.routine ++ [(r.endAll r.remaining).originatorFrame n] }) ∧
  ∀ (d : Nat) (r : Survey) (s : State), s.now ≤ d → s.vsw.line = .test → s.vsw.burstOnTimer = some d →
    s.lth.stage = .item .foreignVoltage → s.lth.running = some r → s.lle.link ≠ .showtime →
    ∃ t, exec .testRingDetected s = .next t ∧ t = { s with now := d, lth := t.lth, vsw := t.vsw } ∧
      t.vsw = { s.vsw with burstOnTimer := none } ∧ t.lth.stage = .restoring ∧ t.lth.holdOff = true ∧
      t.lth.relay = .rest ∧ t.lth.restoreTimer = some (d + 200) ∧
      t.lth.foreignVoltage = { status := .aborted, results := none, stamp := t.uptime } ∧
      t.lth.running = some ((r.endItem .foreignVoltage .aborted).endAll (r.endItem .foreignVoltage .aborted).remaining)

/-- HOLD_OFF_EXPIRY, PERIODIC_CHECK_EXPIRY, RECHECK_TIMER_EXPIRY and LAMP_FLASH_TOGGLE. The model's choice here: that
an expiry acts at the deadline of a running timer (log entry 4), and that a check begins by a command of its own (log
entry 11). -/
def Obligations.SlowTimersExpire : Prop :=
  ∀ (d : Nat) (s : State), s.lth.stage = .none →
    (s.lth.holdOffTimer = some d →
      exec .holdOffExpiry s = .next ((s.reach d).onLth fun l => { l with holdOff := false, holdOffTimer := none })) ∧
    (s.lth.periodicTimer = some d →
      exec .periodicCheckExpiry s = .next
        ((s.reach d).onLth fun l => { l with voltageDue := true, periodicTimer := some (d + 21600000) })) ∧
    (s.lth.recheckTimer = some d →
      exec .recheckTimerExpiry s = .next
        ((s.reach d).onLth fun l => { l with voltageDue := true, recheckTimer := some (d + 600000) })) ∧
    (s.flt.flashTimer = some d →
      exec .lampFlashToggle s = .next ((s.reach d).onFlt fun f => { f with lit := !f.lit, flashTimer := some (d + 500) }))

/-! ### Rules that hold of the operations themselves -/

/-- R68: the headroom is a = s - G - m_e with G = 38, and the bits of a tone are 0 below a headroom of 24 and
min(bmax, floor(a / 12)) from there; so a tone carries 0 bits or 2 to bmax, and a larger effective margin never gives
it more; tones 0..47 carry none in a downstream table, and each tone from 48 on the bits of its own recorded SNR. -/
def Obligations.BitsOfATone : Prop :=
  ∀ (bmax m snr : Nat),
    headroom snr m = (snr : Int) - 38 - m ∧
    (headroom snr m < 24 → toneBits bmax m snr = 0) ∧
    (24 ≤ headroom snr m → (toneBits bmax m snr : Int) = min (bmax : Int) (headroom snr m / 12)) ∧
    (2 ≤ bmax → toneBits bmax m snr = 0 ∨ (2 ≤ toneBits bmax m snr ∧ toneBits bmax m snr ≤ bmax)) ∧
    (snr ≤ 255 → 12 ≤ m → m ≤ 168 → -206 ≤ headroom snr m ∧ headroom snr m ≤ 205) ∧
    (∀ m', m ≤ m' → 2 ≤ bmax → toneBits bmax m' snr ≤ toneBits bmax m snr) ∧
    (∀ (l : List Nat) (tone : Nat), tone < 48 → downBits l tone = 0) ∧
    ∀ (t : TableName) (r : ConfigRecord) (e leak i : Nat) (l : List Nat), i < l.length →
      downBits (tableBits t r e leak l) (48 + i) = toneBits r.bmax (effectiveMargin t r e leak) (l.getD i 0)

/-- R70: the tone margin is s - G - 12b for a tone that carries bits, and there is none otherwise; the smallest margin
of a set of tones is one of theirs and at most each of them; just after the bits are computed every loaded tone's
margin is at least the effective margin. -/
def Obligations.MarginsOfTones : Prop :=
  (∀ snr bits : Nat, toneMargin snr bits = if bits = 0 then none else some ((snr : Int) - 38 - 12 * bits)) ∧
  (∀ (snr bits : List Nat) (x : Int), smallestMargin snr bits = some x →
    some x ∈ List.zipWith toneMargin snr bits ∧ ∀ y, some y ∈ List.zipWith toneMargin snr bits → x ≤ y) ∧
  (∀ snr bits : List Nat, smallestMargin snr bits = none ↔ ∀ y, some y ∉ List.zipWith toneMargin snr bits) ∧
  (∀ (snr bits : Nat) (x : Int), snr ≤ 255 → bits ≤ 12 → 2 ≤ bits → toneMargin snr bits = some x → -182 ≤ x ∧ x ≤ 193) ∧
  ∀ (bmax m snr : Nat) (x : Int), toneMargin snr (toneBits bmax m snr) = some x → (m : Int) ≤ x

/-- R66: a tone's recorded SNR becomes floor((3 s + m + 2) / 4), with the measurement held to 0..255; from a value
within 0..255 the result is within it, and the change is floor((d + 2) / 4) of the difference d; a refresh of a group
replaces its 16 values so, at once, and computes the group's GUARD bits from the new values, whatever becomes of the
swap decision. -/
def Obligations.RecordedSnrIsSmoothed : Prop :=
  (∀ (regular : Bool) (m : List Int) (s : State),
    let g := s.lle.sync.pointer
    (s.refresh regular m).lle.snr = setGroup s.lle.snr g (List.zipWith smooth (groupOf s.lle.snr g) m) ∧
      (s.refresh regular m).lle.guard = setGroup s.lle.guard g
        (tableBits .guard s.cfl.record s.lle.e s.leakage (List.zipWith smooth (groupOf s.lle.snr g) m))) ∧
  ∀ (old : Nat) (m : Int), old ≤ 255 →
    smooth old m = (3 * old + saturate m + 2) / 4 ∧ smooth old m ≤ 255 ∧
    ((smooth old m : Int) - old = ((saturate m : Int) - old + 2) / 4) ∧
    (0 ≤ m → m ≤ 255 → (saturate m : Int) = m) ∧ (m < 0 → saturate m = 0) ∧ (255 < m → saturate m = 255)

/-- R72: the bit total of a table is the sum of its bits, at most 4032; the net rate is floor(4000 B (64 - C) / 64 /
1000), which is floor(B (64 - C) / 16), with C = 2 + 4 D; it does not rise when B falls or when D rises, and it is 0
for a table without bits; the net rate of the link is at every moment that of the downstream table in force at the D
in force, and the delivered rate is taken from it. -/
def Obligations.NetRateOfATable : Prop :=
  (∀ l : List Nat, bitTotal l = l.sum ∧ (l.length = 336 → (∀ b ∈ l, b ≤ 12) → bitTotal l ≤ 4032)) ∧
  (∀ b d : Nat,
    netRate b d = 4000 * b * (64 - (2 + 4 * d)) / 64 / 1000 ∧ netRate b d = b * (64 - (2 + 4 * d)) / 16 ∧
      netRate 0 d = 0 ∧ (∀ b', b ≤ b' → netRate b d ≤ netRate b' d) ∧ (∀ d', d ≤ d' → netRate b d' ≤ netRate b d)) ∧
  ∀ s : State, s.lle.rate = netRate (bitTotal (s.lle.table s.lle.downInForce)) s.lle.d ∧
    s.deliveredRate = min s.cfl.record.rateCap s.lle.rate

/-- Section 4.6: the lift chosen at LOAD is the smallest of 0, 4, 8 .. 64 whose net rate does not exceed the rate cap,
and 64 when none is. Section 4.7: the depth a SHIELD request asks for is the needed depth held to D_max; a lower one
is asked for at once; a higher one only as far as the net rate stays at the floor, and not at all when it is below it.
-/
def Obligations.LiftAndShieldDepth : Prop :=
  (∀ (r : ConfigRecord) (leak d : Nat) (snr : List Nat),
     let rate := fun e => netRate (bitTotal (tableBits .normal r e leak snr)) d
     let e := chooseLift r leak d snr
     (∃ k, k ≤ 16 ∧ e = 4 * k ∧ (∀ j, j < k → r.rateCap < rate (4 * j)) ∧ (rate e ≤ r.rateCap ∨ e = 64))) ∧
  (∀ (r : ConfigRecord) (l : Lle) (need : Nat), l.d ≤ r.dMax →
     requestedDepth r l need ≤ r.dMax ∧
       (min need r.dMax ≤ l.d → requestedDepth r l need = min need r.dMax) ∧
       (l.d < min need r.dMax → l.d ≤ requestedDepth r l need ∧ requestedDepth r l need ≤ need ∧
         (requestedDepth r l need ≠ l.d → r.rateFloor ≤ netRate (bitTotal l.inForce) (requestedDepth r l need)) ∧
         (r.rateFloor ≤ l.rate → ∀ x, requestedDepth r l need < x → x ≤ min need r.dMax →
           netRate (bitTotal l.inForce) x < r.rateFloor)))

/-- R181: the summary severity is the highest severity among the ACTIVE entries, or GOOD without one, and CLEAR_FAULTS
leaves it as it was; it is GOOD after device reset, and every step of a part within its capacities keeps it so. -/
def Obligations.SummaryIsTheHighestActive : Prop :=
  (∀ l : List FaultEntry,
    (∀ e ∈ l, e.active = true → e.key.code.severity.code ≤ (summaryOf l).code) ∧
      (summaryOf l = .good ∨ ∃ e ∈ l, e.active = true ∧ e.key.code.severity = summaryOf l) ∧
      summaryOf (l.filter (fun e => e.active)) = summaryOf l) ∧
  State.reset.flt.summary = .good ∧
  ∀ s t : State, s.fits = true → step s = .next t → t.flt.summary = summaryOf t.flt.entries

/-- Section 7.1: a new call takes an id that no record of the table holds. -/
def Obligations.NewCallIdIsFree : Prop :=
  ∀ c : Cct, c.calls.length ≤ 4 → c.newId ∉ c.calls.map (·.id)

/-- Section 1.1: the bytes that the part's receiver takes from the levels of bytes sent back to back are one frame of
those bytes, without a framing error; when the pair then stands recessive before more bytes, they are of the same frame
after less than 20 bit times, and a second frame after 20 bit times or more (log entry 86 says from where the model
counts them). Sections 11.1 and 11.2: what another station reads from the bytes of a frame of the part is
the frame: its destination, the part as its source, its kind and its body. Section 11.5: the image of a record in
force is a usable memory, and reading it gives the record back. -/
def Obligations.EncodingsReadBack : Prop :=
  (∀ bytes : List Byte, bytes ≠ [] → readWire (runsOf (bytes.flatMap byteLevels)) = [(bytes, false)]) ∧
  (∀ (bytes more : List Byte) (gap : Nat), bytes ≠ [] → more ≠ [] →
     readWire (runsOf (bytes.flatMap byteLevels) ++
         { dominant := false, micros := gap } :: runsOf (more.flatMap byteLevels)) =
       if gap < 1000 then [(bytes ++ more, false)] else [(bytes, false), (more, false)]) ∧
  (∀ (own other : Nat) (f : TxFrame), 1 ≤ own → own ≤ 24 → own ≠ other → f.dest ≤ 24 → f.body.length ≤ 24 →
     judgeFrame other (wireBytes own f) false =
         some { dest := f.dest, src := own, code := f.kind.code, body := f.body } ∧
       kindOf f.kind.code = some f.kind) ∧
  (∀ r : ConfigRecord, r.inRange = true → managementPlaces r.management = r.management →
     r.counterEvents.length = 6 → (∀ n ∈ r.counterEvents, n ≤ 255) →
     memoryUsable (recordImage r) = true ∧ clampRecord (recordImage r) = r)

/-! ### A full fault table, and what goes together -/

/-- Section 9.3: a raise of a fault without an entry in a table of 16. The oldest INACTIVE entry that is not protected
leaves, the overflow flag standing; without one, the oldest unprotected ACTIVE entry of the lowest severity below that
of the new fault, and the flag is set; without that, the fault is not entered, the table stands and the flag is set.
The evicted entry's owed notice goes with it, the new entry stands at the end, a protected entry never leaves, and a
fault of severity OUT always finds its place among entries of the catalogue. -/
def Obligations.FullTableMakesRoom : Prop :=
  ∀ (k : FaultKey) (now up : Nat) (f : Flt), f.sized = true → f.entries.length = 16 → f.find k = none →
    let t := (f.raised k now up).1
    let created : FaultEntry := { FaultEntry.created k up with notice := f.notices + 1 }
    let severity := fun e : FaultEntry => e.key.code.severity.code
    (∀ before e after, f.entries = before ++ e :: after → e.active = false → e.isProtected = false →
       (∀ x ∈ before, x.active = false → x.isProtected = false → e.lastChange < x.lastChange) →
       (∀ x ∈ after, x.active = false → x.isProtected = false → e.lastChange ≤ x.lastChange) →
       t.entries = before ++ after ++ [created] ∧ t.overflow = f.overflow ∧
         t.owed = f.owed.filter (fun o => !decide (o = e.key)) ∧ (f.raised k now up).2 = true) ∧
    (∀ before e after, f.entries = before ++ e :: after → (∀ x ∈ f.entries, x.isProtected = false → x.active = true) →
       e.isProtected = false → severity e < k.code.severity.code →
       (∀ x ∈ f.entries, x.isProtected = false → severity x < k.code.severity.code → severity e ≤ severity x) →
       (∀ x ∈ before, x.isProtected = false → severity x = severity e → e.lastChange < x.lastChange) →
       (∀ x ∈ after, x.isProtected = false → severity x = severity e → e.lastChange ≤ x.lastChange) →
       t.entries = before ++ after ++ [created] ∧ t.overflow = true ∧
         t.owed = f.owed.filter (fun o => !decide (o = e.key)) ∧ (f.raised k now up).2 = true) ∧
    ((∀ x ∈ f.entries, x.isProtected = false → x.active = true ∧ k.code.severity.code ≤ severity x) →
       t = { f with overflow := true } ∧ (f.raised k now up).2 = false) ∧
    (∀ e ∈ f.entries, e.isProtected = true → e ∈ t.entries) ∧
    ((∀ e ∈ f.entries, e.key.listed = true) → k.code.severity = .out → t.isActive k = true)

/-- Every step of a part within its capacities keeps the link in step with LINK_RETRAIN_LIMIT (LOCKOUT exactly while it
is ACTIVE), with its holders (there are some exactly in QUIET), with its timers and, outside SHOWTIME, with the start
values of section 5.1, the swap queue empty; and it keeps the outside line in step with the call table (SEIZED exactly
with one OUTSIDE call in ACTIVE or HELD), with its timers and with the survey, the records with their kinds and states
and their ids within 1..255, and the ringing episodes with the calls that ring. The model's choice here: the mark of a
lockout attempt held back, which goes with LOCKOUT (log entry 27). -/
def Obligations.EveryStepKeepsLinkAndLineInStep : Prop :=
  (∀ s t : State, s.fits = true → s.linkKept = true → step s = .next t → t.linkKept = true) ∧
  (∀ s t : State, s.fits = true → s.lineKept = true → step s = .next t → t.lineKept = true)
end

