-- ==== Sys2Proof/Laws/State.lean ====
section
/-! SUPPORT. What each modifier of the state does to each field: one lemma per field, true by definition, so that no
proof unfolds a record update. -/

set_option Elab.async false

namespace Sys2Proof.Machine

section onPins
variable (f : Pins → Pins) (s : State)
@[simp] theorem State.onPins_now : (s.onPins f).now = s.now := rfl
@[simp] theorem State.onPins_pins : (s.onPins f).pins = f s.pins := rfl
@[simp] theorem State.onPins_ybi : (s.onPins f).ybi = s.ybi := rfl
@[simp] theorem State.onPins_cfl : (s.onPins f).cfl = s.cfl := rfl
@[simp] theorem State.onPins_sup : (s.onPins f).sup = s.sup := rfl
@[simp] theorem State.onPins_lle : (s.onPins f).lle = s.lle := rfl
@[simp] theorem State.onPins_plp : (s.onPins f).plp = s.plp := rfl
@[simp] theorem State.onPins_vsw : (s.onPins f).vsw = s.vsw := rfl
@[simp] theorem State.onPins_cct : (s.onPins f).cct = s.cct := rfl
@[simp] theorem State.onPins_lth : (s.onPins f).lth = s.lth := rfl
@[simp] theorem State.onPins_flt : (s.onPins f).flt = s.flt := rfl
@[simp] theorem State.onPins_ctb : (s.onPins f).ctb = s.ctb := rfl
@[simp] theorem State.onPins_pending : (s.onPins f).pending = s.pending := rfl
end onPins

section onYbi
variable (f : Ybi → Ybi) (s : State)
@[simp] theorem State.onYbi_now : (s.onYbi f).now = s.now := rfl
@[simp] theorem State.onYbi_pins : (s.onYbi f).pins = s.pins := rfl
@[simp] theorem State.onYbi_ybi : (s.onYbi f).ybi = f s.ybi := rfl
@[simp] theorem State.onYbi_cfl : (s.onYbi f).cfl = s.cfl := rfl
@[simp] theorem State.onYbi_sup : (s.onYbi f).sup = s.sup := rfl
@[simp] theorem State.onYbi_lle : (s.onYbi f).lle = s.lle := rfl
@[simp] theorem State.onYbi_plp : (s.onYbi f).plp = s.plp := rfl
@[simp] theorem State.onYbi_vsw : (s.onYbi f).vsw = s.vsw := rfl
@[simp] theorem State.onYbi_cct : (s.onYbi f).cct = s.cct := rfl
@[simp] theorem State.onYbi_lth : (s.onYbi f).lth = s.lth := rfl
@[simp] theorem State.onYbi_flt : (s.onYbi f).flt = s.flt := rfl
@[simp] theorem State.onYbi_ctb : (s.onYbi f).ctb = s.ctb := rfl
@[simp] theorem State.onYbi_pending : (s.onYbi f).pending = s.pending := rfl
end onYbi

section onCfl
variable (f : Cfl → Cfl) (s : State)
@[simp] theorem State.onCfl_now : (s.onCfl f).now = s.now := rfl
@[simp] theorem State.onCfl_pins : (s.onCfl f).pins = s.pins := rfl
@[simp] theorem State.onCfl_ybi : (s.onCfl f).ybi = s.ybi := rfl
@[simp] theorem State.onCfl_cfl : (s.onCfl f).cfl = f s.cfl := rfl
@[simp] theorem State.onCfl_sup : (s.onCfl f).sup = s.sup := rfl
@[simp] theorem State.onCfl_lle : (s.onCfl f).lle = s.lle := rfl
@[simp] theorem State.onCfl_plp : (s.onCfl f).plp = s.plp := rfl
@[simp] theorem State.onCfl_vsw : (s.onCfl f).vsw = s.vsw := rfl
@[simp] theorem State.onCfl_cct : (s.onCfl f).cct = s.cct := rfl
@[simp] theorem State.onCfl_lth : (s.onCfl f).lth = s.lth := rfl
@[simp] theorem State.onCfl_flt : (s.onCfl f).flt = s.flt := rfl
@[simp] theorem State.onCfl_ctb : (s.onCfl f).ctb = s.ctb := rfl
@[simp] theorem State.onCfl_pending : (s.onCfl f).pending = s.pending := rfl
end onCfl

section onSup
variable (f : Sup → Sup) (s : State)
@[simp] theorem State.onSup_now : (s.onSup f).now = s.now := rfl
@[simp] theorem State.onSup_pins : (s.onSup f).pins = s.pins := rfl
@[simp] theorem State.onSup_ybi : (s.onSup f).ybi = s.ybi := rfl
@[simp] theorem State.onSup_cfl : (s.onSup f).cfl = s.cfl := rfl
@[simp] theorem State.onSup_sup : (s.onSup f).sup = f s.sup := rfl
@[simp] theorem State.onSup_lle : (s.onSup f).lle = s.lle := rfl
@[simp] theorem State.onSup_plp : (s.onSup f).plp = s.plp := rfl
@[simp] theorem State.onSup_vsw : (s.onSup f).vsw = s.vsw := rfl
@[simp] theorem State.onSup_cct : (s.onSup f).cct = s.cct := rfl
@[simp] theorem State.onSup_lth : (s.onSup f).lth = s.lth := rfl
@[simp] theorem State.onSup_flt : (s.onSup f).flt = s.flt := rfl
@[simp] theorem State.onSup_ctb : (s.onSup f).ctb = s.ctb := rfl
@[simp] theorem State.onSup_pending : (s.onSup f).pending = s.pending := rfl
end onSup

section onLle
variable (f : Lle → Lle) (s : State)
@[simp] theorem State.onLle_now : (s.onLle f).now = s.now := rfl
@[simp] theorem State.onLle_pins : (s.onLle f).pins = s.pins := rfl
@[simp] theorem State.onLle_ybi : (s.onLle f).ybi = s.ybi := rfl
@[simp] theorem State.onLle_cfl : (s.onLle f).cfl = s.cfl := rfl
@[simp] theorem State.onLle_sup : (s.onLle f).sup = s.sup := rfl
@[simp] theorem State.onLle_lle : (s.onLle f).lle = f s.lle := rfl
@[simp] theorem State.onLle_plp : (s.onLle f).plp = s.plp := rfl
@[simp] theorem State.onLle_vsw : (s.onLle f).vsw = s.vsw := rfl
@[simp] theorem State.onLle_cct : (s.onLle f).cct = s.cct := rfl
@[simp] theorem State.onLle_lth : (s.onLle f).lth = s.lth := rfl
@[simp] theorem State.onLle_flt : (s.onLle f).flt = s.flt := rfl
@[simp] theorem State.onLle_ctb : (s.onLle f).ctb = s.ctb := rfl
@[simp] theorem State.onLle_pending : (s.onLle f).pending = s.pending := rfl
end onLle

section onPlp
variable (f : Plp → Plp) (s : State)
@[simp] theorem State.onPlp_now : (s.onPlp f).now = s.now := rfl
@[simp] theorem State.onPlp_pins : (s.onPlp f).pins = s.pins := rfl
@[simp] theorem State.onPlp_ybi : (s.onPlp f).ybi = s.ybi := rfl
@[simp] theorem State.onPlp_cfl : (s.onPlp f).cfl = s.cfl := rfl
@[simp] theorem State.onPlp_sup : (s.onPlp f).sup = s.sup := rfl
@[simp] theorem State.onPlp_lle : (s.onPlp f).lle = s.lle := rfl
@[simp] theorem State.onPlp_plp : (s.onPlp f).plp = f s.plp := rfl
@[simp] theorem State.onPlp_vsw : (s.onPlp f).vsw = s.vsw := rfl
@[simp] theorem State.onPlp_cct : (s.onPlp f).cct = s.cct := rfl
@[simp] theorem State.onPlp_lth : (s.onPlp f).lth = s.lth := rfl
@[simp] theorem State.onPlp_flt : (s.onPlp f).flt = s.flt := rfl
@[simp] theorem State.onPlp_ctb : (s.onPlp f).ctb = s.ctb := rfl
@[simp] theorem State.onPlp_pending : (s.onPlp f).pending = s.pending := rfl
end onPlp

section onVsw
variable (f : Vsw → Vsw) (s : State)
@[simp] theorem State.onVsw_now : (s.onVsw f).now = s.now := rfl
@[simp] theorem State.onVsw_pins : (s.onVsw f).pins = s.pins := rfl
@[simp] theorem State.onVsw_ybi : (s.onVsw f).ybi = s.ybi := rfl
@[simp] theorem State.onVsw_cfl : (s.onVsw f).cfl = s.cfl := rfl
@[simp] theorem State.onVsw_sup : (s.onVsw f).sup = s.sup := rfl
@[simp] theorem State.onVsw_lle : (s.onVsw f).lle = s.lle := rfl
@[simp] theorem State.onVsw_plp : (s.onVsw f).plp = s.plp := rfl
@[simp] theorem State.onVsw_vsw : (s.onVsw f).vsw = f s.vsw := rfl
@[simp] theorem State.onVsw_cct : (s.onVsw f).cct = s.cct := rfl
@[simp] theorem State.onVsw_lth : (s.onVsw f).lth = s.lth := rfl
@[simp] theorem State.onVsw_flt : (s.onVsw f).flt = s.flt := rfl
@[simp] theorem State.onVsw_ctb : (s.onVsw f).ctb = s.ctb := rfl
@[simp] theorem State.onVsw_pending : (s.onVsw f).pending = s.pending := rfl
end onVsw

section onCct
variable (f : Cct → Cct) (s : State)
@[simp] theorem State.onCct_now : (s.onCct f).now = s.now := rfl
@[simp] theorem State.onCct_pins : (s.onCct f).pins = s.pins := rfl
@[simp] theorem State.onCct_ybi : (s.onCct f).ybi = s.ybi := rfl
@[simp] theorem State.onCct_cfl : (s.onCct f).cfl = s.cfl := rfl
@[simp] theorem State.onCct_sup : (s.onCct f).sup = s.sup := rfl
@[simp] theorem State.onCct_lle : (s.onCct f).lle = s.lle := rfl
@[simp] theorem State.onCct_plp : (s.onCct f).plp = s.plp := rfl
@[simp] theorem State.onCct_vsw : (s.onCct f).vsw = s.vsw := rfl
@[simp] theorem State.onCct_cct : (s.onCct f).cct = f s.cct := rfl
@[simp] theorem State.onCct_lth : (s.onCct f).lth = s.lth := rfl
@[simp] theorem State.onCct_flt : (s.onCct f).flt = s.flt := rfl
@[simp] theorem State.onCct_ctb : (s.onCct f).ctb = s.ctb := rfl
@[simp] theorem State.onCct_pending : (s.onCct f).pending = s.pending := rfl
end onCct

section onLth
variable (f : Lth → Lth) (s : State)
@[simp] theorem State.onLth_now : (s.onLth f).now = s.now := rfl
@[simp] theorem State.onLth_pins : (s.onLth f).pins = s.pins := rfl
@[simp] theorem State.onLth_ybi : (s.onLth f).ybi = s.ybi := rfl
@[simp] theorem State.onLth_cfl : (s.onLth f).cfl = s.cfl := rfl
@[simp] theorem State.onLth_sup : (s.onLth f).sup = s.sup := rfl
@[simp] theorem State.onLth_lle : (s.onLth f).lle = s.lle := rfl
@[simp] theorem State.onLth_plp : (s.onLth f).plp = s.plp := rfl
@[simp] theorem State.onLth_vsw : (s.onLth f).vsw = s.vsw := rfl
@[simp] theorem State.onLth_cct : (s.onLth f).cct = s.cct := rfl
@[simp] theorem State.onLth_lth : (s.onLth f).lth = f s.lth := rfl
@[simp] theorem State.onLth_flt : (s.onLth f).flt = s.flt := rfl
@[simp] theorem State.onLth_ctb : (s.onLth f).ctb = s.ctb := rfl
@[simp] theorem State.onLth_pending : (s.onLth f).pending = s.pending := rfl
end onLth

section onFlt
variable (f : Flt → Flt) (s : State)
@[simp] theorem State.onFlt_now : (s.onFlt f).now = s.now := rfl
@[simp] theorem State.onFlt_pins : (s.onFlt f).pins = s.pins := rfl
@[simp] theorem State.onFlt_ybi : (s.onFlt f).ybi = s.ybi := rfl
@[simp] theorem State.onFlt_cfl : (s.onFlt f).cfl = s.cfl := rfl
@[simp] theorem State.onFlt_sup : (s.onFlt f).sup = s.sup := rfl
@[simp] theorem State.onFlt_lle : (s.onFlt f).lle = s.lle := rfl
@[simp] theorem State.onFlt_plp : (s.onFlt f).plp = s.plp := rfl
@[simp] theorem State.onFlt_vsw : (s.onFlt f).vsw = s.vsw := rfl
@[simp] theorem State.onFlt_cct : (s.onFlt f).cct = s.cct := rfl
@[simp] theorem State.onFlt_lth : (s.onFlt f).lth = s.lth := rfl
@[simp] theorem State.onFlt_flt : (s.onFlt f).flt = f s.flt := rfl
@[simp] theorem State.onFlt_ctb : (s.onFlt f).ctb = s.ctb := rfl
@[simp] theorem State.onFlt_pending : (s.onFlt f).pending = s.pending := rfl
end onFlt

section onCtb
variable (f : Ctb → Ctb) (s : State)
@[simp] theorem State.onCtb_now : (s.onCtb f).now = s.now := rfl
@[simp] theorem State.onCtb_pins : (s.onCtb f).pins = s.pins := rfl
@[simp] theorem State.onCtb_ybi : (s.onCtb f).ybi = s.ybi := rfl
@[simp] theorem State.onCtb_cfl : (s.onCtb f).cfl = s.cfl := rfl
@[simp] theorem State.onCtb_sup : (s.onCtb f).sup = s.sup := rfl
@[simp] theorem State.onCtb_lle : (s.onCtb f).lle = s.lle := rfl
@[simp] theorem State.onCtb_plp : (s.onCtb f).plp = s.plp := rfl
@[simp] theorem State.onCtb_vsw : (s.onCtb f).vsw = s.vsw := rfl
@[simp] theorem State.onCtb_cct : (s.onCtb f).cct = s.cct := rfl
@[simp] theorem State.onCtb_lth : (s.onCtb f).lth = s.lth := rfl
@[simp] theorem State.onCtb_flt : (s.onCtb f).flt = s.flt := rfl
@[simp] theorem State.onCtb_ctb : (s.onCtb f).ctb = f s.ctb := rfl
@[simp] theorem State.onCtb_pending : (s.onCtb f).pending = s.pending := rfl
end onCtb

section onSync
variable (f : Showtime → Showtime) (s : State)
@[simp] theorem State.onSync_now : (s.onSync f).now = s.now := rfl
@[simp] theorem State.onSync_pins : (s.onSync f).pins = s.pins := rfl
@[simp] theorem State.onSync_ybi : (s.onSync f).ybi = s.ybi := rfl
@[simp] theorem State.onSync_cfl : (s.onSync f).cfl = s.cfl := rfl
@[simp] theorem State.onSync_sup : (s.onSync f).sup = s.sup := rfl
@[simp] theorem State.onSync_lle : (s.onSync f).lle = { s.lle with sync := f s.lle.sync } := rfl
@[simp] theorem State.onSync_plp : (s.onSync f).plp = s.plp := rfl
@[simp] theorem State.onSync_vsw : (s.onSync f).vsw = s.vsw := rfl
@[simp] theorem State.onSync_cct : (s.onSync f).cct = s.cct := rfl
@[simp] theorem State.onSync_lth : (s.onSync f).lth = s.lth := rfl
@[simp] theorem State.onSync_flt : (s.onSync f).flt = s.flt := rfl
@[simp] theorem State.onSync_ctb : (s.onSync f).ctb = s.ctb := rfl
@[simp] theorem State.onSync_pending : (s.onSync f).pending = s.pending := rfl
end onSync

end Sys2Proof.Machine
end

