-- ==== Sys2Proof/Laws/Keeps.lean ====
section
/-! SUPPORT. The frame of the shared operations: `Keeps s t` says that `t` has the connections, the configuration, the
queue of commands and the ring converter of `s`, and fits when `s` fits. One lemma per operation, in the form "what
keeps s, keeps s after the operation", so that a proof about a command applies them one after the other. -/

set_option Elab.async false

namespace Sys2Proof.Machine

open Sys2Proof

/-- What the converter, the plan and the episodes of a state are. -/
def State.ringPart (s : State) : SupplyState × Converter × RingPlan × List Episode :=
  (s.sup.supply, s.sup.converter, s.vsw.plan, s.vsw.episodes)

structure Keeps (s t : State) : Prop where
  cfl : t.cfl = s.cfl
  pins : t.pins = s.pins
  pending : t.pending = s.pending
  ring : t.ringPart = s.ringPart
  fits : s.fits = true → t.fits = true

theorem Keeps.refl (s : State) : Keeps s s := ⟨rfl, rfl, rfl, rfl, id⟩

theorem Keeps.trans {a b c : State} (h : Keeps a b) (g : Keeps b c) : Keeps a c :=
  ⟨g.cfl.trans h.cfl, g.pins.trans h.pins, g.pending.trans h.pending, g.ring.trans h.ring, fun x => g.fits (h.fits x)⟩

variable {s0 s : State}

/-! ### The modifiers -/

theorem Keeps.onYbi {f : Ybi → Ybi} (h : Keeps s0 s) (hf : s.ybi.fits = true → (f s.ybi).fits = true) :
    Keeps s0 (s.onYbi f) :=
  ⟨h.cfl, h.pins, h.pending, h.ring, fun x => by have := h.fits x; simp_all [State.fits]⟩

theorem Keeps.onLle {f : Lle → Lle} (h : Keeps s0 s) (hf : s.lle.fits = true → (f s.lle).fits = true) :
    Keeps s0 (s.onLle f) :=
  ⟨h.cfl, h.pins, h.pending, h.ring, fun x => by have := h.fits x; simp_all [State.fits]⟩

theorem Keeps.onSync {f : Showtime → Showtime} (h : Keeps s0 s)
    (hf : s.lle.fits = true → Lle.fits { s.lle with sync := f s.lle.sync } = true) : Keeps s0 (s.onSync f) :=
  ⟨h.cfl, h.pins, h.pending, h.ring, fun x => by have := h.fits x; simp_all [State.fits]⟩

theorem Keeps.onPlp {f : Plp → Plp} (h : Keeps s0 s) (hf : s.plp.fits = true → (f s.plp).fits = true) :
    Keeps s0 (s.onPlp f) :=
  ⟨h.cfl, h.pins, h.pending, h.ring, fun x => by have := h.fits x; simp_all [State.fits]⟩

theorem Keeps.onVsw {f : Vsw → Vsw} (h : Keeps s0 s) (hf : s.vsw.fits = true → (f s.vsw).fits = true)
    (hp : (f s.vsw).plan = s.vsw.plan) (he : (f s.vsw).episodes = s.vsw.episodes) : Keeps s0 (s.onVsw f) :=
  ⟨h.cfl, h.pins, h.pending, by rw [← h.ring]; simp [State.ringPart, hp, he],
    fun x => by have := h.fits x; simp_all [State.fits]⟩

theorem Keeps.onCct {f : Cct → Cct} (h : Keeps s0 s) (hf : s.cct.fits = true → (f s.cct).fits = true) :
    Keeps s0 (s.onCct f) :=
  ⟨h.cfl, h.pins, h.pending, h.ring, fun x => by have := h.fits x; simp_all [State.fits]⟩

theorem Keeps.onLth {f : Lth → Lth} (h : Keeps s0 s) : Keeps s0 (s.onLth f) :=
  ⟨h.cfl, h.pins, h.pending, h.ring, fun x => by have := h.fits x; simp_all [State.fits]⟩

theorem Keeps.onFlt {f : Flt → Flt} (h : Keeps s0 s) (hf : s.flt.fits = true → (f s.flt).fits = true) :
    Keeps s0 (s.onFlt f) :=
  ⟨h.cfl, h.pins, h.pending, h.ring, fun x => by have := h.fits x; simp_all [State.fits]⟩

theorem Keeps.onCtb {f : Ctb → Ctb} (h : Keeps s0 s) (hf : s.ctb.fits = true → (f s.ctb).fits = true) :
    Keeps s0 (s.onCtb f) :=
  ⟨h.cfl, h.pins, h.pending, h.ring, fun x => by have := h.fits x; simp_all [State.fits]⟩

theorem Keeps.onSup {f : Sup → Sup} (h : Keeps s0 s) (hs : (f s.sup).supply = s.sup.supply)
    (hc : (f s.sup).converter = s.sup.converter) : Keeps s0 (s.onSup f) :=
  ⟨h.cfl, h.pins, h.pending, by rw [← h.ring]; simp [State.ringPart, hs, hc],
    fun x => by have := h.fits x; simp_all [State.fits]⟩

/-- A fold of operations that keep. -/
theorem Keeps.foldl {α : Type} {f : State → α → State} (hf : ∀ s a, Keeps s0 s → Keeps s0 (f s a)) :
    ∀ (l : List α) {s : State}, Keeps s0 s → Keeps s0 (l.foldl f s)
  | [], _, h => h
  | a :: l, s, h => Keeps.foldl hf l (hf s a h)

/-- An operation repeated. -/
theorem Keeps.repeat {f : State → State} (hf : ∀ s, Keeps s0 s → Keeps s0 (f s)) :
    ∀ (n : Nat) {s : State}, Keeps s0 s → Keeps s0 (Nat.repeat f n s)
  | 0, _, h => h
  | n + 1, _, h => hf _ (Keeps.repeat hf n h)

/-! ### The fault table -/

theorem summaryOf_congr {l m : List FaultEntry}
    (h : l.map (fun e => (e.key, e.active)) = m.map (fun e => (e.key, e.active))) : summaryOf l = summaryOf m := by
  have hany : ∀ sev, l.any (fun e => e.active && decide (e.key.code.severity = sev)) =
      m.any (fun e => e.active && decide (e.key.code.severity = sev)) := by
    intro sev
    have e1 : ∀ k : List FaultEntry, k.any (fun e => e.active && decide (e.key.code.severity = sev)) =
        (k.map (fun e => (e.key, e.active))).any (fun p => p.2 && decide (p.1.code.severity = sev)) := by
      intro k; rw [List.any_map]; rfl
    rw [e1, e1, h]
  simp only [summaryOf, hany]

theorem summaryOf_active (l : List FaultEntry) : summaryOf (l.filter (fun e => e.active)) = summaryOf l := by
  have hany : ∀ sev, (l.filter (fun e => e.active)).any (fun e => e.active && decide (e.key.code.severity = sev)) =
      l.any (fun e => e.active && decide (e.key.code.severity = sev)) := by
    intro sev; induction l with
    | nil => rfl
    | cons e l ih => cases h : e.active <;> simp_all
  simp only [summaryOf, hany]

theorem setLamp_lamp (now : Nat) (l : Lamp) (f : Flt) : (f.setLamp now l).lamp = l := by
  unfold Flt.setLamp; split
  · assumption
  · split <;> rfl

theorem setLamp_entries (now : Nat) (l : Lamp) (f : Flt) : (f.setLamp now l).entries = f.entries := by
  unfold Flt.setLamp; split
  · rfl
  · split <;> rfl

theorem setLamp_summary (now : Nat) (l : Lamp) (f : Flt) : (f.setLamp now l).summary = f.summary := by
  unfold Flt.setLamp; split
  · rfl
  · split <;> rfl

theorem Flt.fits_sized {f : Flt} (h : f.fits = true) : f.sized = true := by
  simp_all [Flt.fits]

theorem resummarise_fits {f : Flt} (now : Nat) (h : f.sized = true) : (f.resummarise now).fits = true := by
  simp_all [Flt.resummarise, Flt.fits, Flt.sized, setLamp_lamp, setLamp_entries, setLamp_summary]

theorem update_sized {f : Flt} {k : FaultKey} {g : FaultEntry → FaultEntry} (h : f.sized = true)
    (hk : ∀ e : FaultEntry, (g e).key = e.key)
    (hg : ∀ e : FaultEntry, e.occurrences ≤ Config.occurrencesMax → (g e).occurrences ≤ Config.occurrencesMax) :
    (f.update k g).sized = true := by
  have hm : (f.update k g).entries.map (·.key) = f.entries.map (·.key) := by
    simp only [Flt.update, List.map_map]
    apply List.map_congr_left
    intro e _
    simp only [Function.comp]
    split <;> simp [hk]
  simp only [Flt.sized, Bool.and_eq_true, decide_eq_true_eq] at h ⊢
  refine ⟨⟨by simpa [Flt.update] using h.1.1, hm ▸ h.1.2⟩, ?_⟩
  have h2 := h.2
  simp only [Flt.update, List.all_eq_true, List.mem_map, decide_eq_true_eq] at h2 ⊢
  rintro e ⟨x, hx, rfl⟩
  split
  · exact hg x (h2 x hx)
  · exact h2 x hx

theorem callForNotice_sized {f : Flt} {k : FaultKey} (h : f.sized = true) : (f.callForNotice k).sized = true :=
  update_sized (f := { f with notices := f.notices + 1 }) h (fun _ => rfl) fun _ h => h

/-- An update that leaves keys and states leaves summary and lamp right. -/
theorem update_fits {f : Flt} {k : FaultKey} {g : FaultEntry → FaultEntry} (h : f.fits = true)
    (ho : ∀ e : FaultEntry, e.occurrences ≤ Config.occurrencesMax → (g e).occurrences ≤ Config.occurrencesMax)
    (hk : ∀ e : FaultEntry, (g e).key = e.key) (ha : ∀ e ∈ f.entries, e.key = k → (g e).active = e.active) :
    (f.update k g).fits = true := by
  have hs := update_sized (k := k) (Flt.fits_sized h) hk ho
  have hc : summaryOf (f.update k g).entries = summaryOf f.entries := by
    apply summaryOf_congr
    simp only [Flt.update, List.map_map]
    apply List.map_congr_left
    intro e he
    simp only [Function.comp]
    split
    · simp [hk, ha e he ‹_›]
    · rfl
  simp only [Flt.fits, Bool.and_eq_true, decide_eq_true_eq] at h ⊢
  refine ⟨⟨hs, ?_⟩, h.2⟩
  rw [hc]; exact h.1.2

theorem callForNotice_fits {f : Flt} {k : FaultKey} (h : f.fits = true) : (f.callForNotice k).fits = true :=
  update_fits (f := { f with notices := f.notices + 1 }) h (fun _ h => h) (fun _ => rfl) fun _ _ _ => rfl

theorem remove_sized {f : Flt} {k : FaultKey} (h : f.sized = true) : (f.remove k).sized = true := by
  simp only [Flt.sized, Bool.and_eq_true, decide_eq_true_eq] at h ⊢
  refine ⟨⟨le_trans (List.length_filter_le _ _) h.1.1, List.Nodup.sublist (List.filter_sublist.map _) h.1.2⟩, ?_⟩
  have h2 := h.2
  simp only [Flt.remove, List.all_eq_true] at h2 ⊢
  exact fun e he => h2 e (List.mem_of_mem_filter he)

theorem makeRoom_sized {f : Flt} {sev : Severity} (h : f.sized = true) : (f.makeRoom sev).sized = true := by
  unfold Flt.makeRoom
  split
  · exact h
  · split
    · exact remove_sized h
    · split
      · exact remove_sized (f := f) h
      · exact h

theorem oldestOf_some {p : FaultEntry → Bool} {l : List FaultEntry} {e : FaultEntry} (h : oldestOf p l = some e) :
    e ∈ l ∧ p e = true := by
  have key : ∀ (m : List FaultEntry) (b : Option FaultEntry) (e : FaultEntry),
      m.foldl (fun best e => match best with
        | none => some e
        | some b => if e.lastChange < b.lastChange then some e else some b) b = some e → b = some e ∨ e ∈ m := by
    intro m
    induction m with
    | nil => intro b e h; exact .inl h
    | cons x m ih =>
      intro b e h
      rcases ih _ _ h with h | h
      · cases b with
        | none => simp at h; subst h; simp
        | some b =>
          simp only at h
          split at h
          · simp at h; subst h; simp
          · exact .inl h
      · exact .inr (List.mem_cons_of_mem _ h)
  rcases key _ _ _ h with h | h
  · cases h
  · simpa using h

/-- A table that R178 leaves full is as it was, but for the overflow flag. -/
theorem makeRoom_full {f : Flt} {sev : Severity} (h : f.fits = true)
    (hf : ¬ (f.makeRoom sev).entries.length < Config.faultCapacity) : (f.makeRoom sev).fits = true := by
  have hle : f.entries.length ≤ Config.faultCapacity := by simp_all [Flt.fits, Flt.sized]
  have gone : ∀ (e : FaultEntry), e ∈ f.entries → (f.remove e.key).entries.length < Config.faultCapacity := by
    intro e he
    refine lt_of_lt_of_le ?_ hle
    refine List.length_filter_lt_length_iff_exists.mpr ⟨e, he, ?_⟩
    simp
  unfold Flt.makeRoom at hf ⊢
  split
  · exact h
  · rename_i hc
    simp only [hc, ↓reduceIte] at hf
    split
    · rename_i e he
      rw [he] at hf
      exact absurd (gone e (oldestOf_some he).1) hf
    · rename_i he
      rw [he] at hf
      split
      · rename_i e hl
        rw [hl] at hf
        refine absurd (gone e ?_) hf
        cases sev <;> simp only [lowestActive] at hl
        · cases hl
        · cases hl
        · exact (oldestOf_some hl).1
        · cases h1 : oldestOf (lowerActive .notice) f.entries with
          | none => rw [h1] at hl; exact (oldestOf_some hl).1
          | some x => rw [h1] at hl; cases hl; exact (oldestOf_some h1).1
      · simpa [Flt.fits, Flt.sized] using h

theorem append_sized {f : Flt} {e : FaultEntry} (h : f.sized = true) (hr : f.entries.length < Config.faultCapacity)
    (he : e.occurrences ≤ Config.occurrencesMax) (hk : ∀ x ∈ f.entries, x.key ≠ e.key) :
    Flt.sized { f with entries := f.entries ++ [e] } = true := by
  simp only [Flt.sized, Bool.and_eq_true, decide_eq_true_eq] at h ⊢
  refine ⟨⟨by simpa using hr, ?_⟩, ?_⟩
  · rw [List.map_append, List.nodup_append]
    refine ⟨h.1.2, by simp, ?_⟩
    intro a ha b hb hab
    simp only [List.map_cons, List.map_nil, List.mem_singleton] at hb
    obtain ⟨x, hx, rfl⟩ := List.mem_map.mp ha
    exact hk x hx (hab.trans hb)
  · have h2 := h.2
    simp only [List.all_eq_true, decide_eq_true_eq] at h2 ⊢
    intro x hx
    rcases List.mem_append.mp hx with h1 | h1
    · exact h2 x h1
    · simp at h1; subst h1; exact he

/-- Room is made by removing entries only. -/
theorem makeRoom_sub {f : Flt} {sev : Severity} {e : FaultEntry} (h : e ∈ (f.makeRoom sev).entries) : e ∈ f.entries := by
  unfold Flt.makeRoom at h
  split at h
  · exact h
  · split at h
    · exact List.mem_of_mem_filter h
    · split at h
      · exact List.mem_of_mem_filter h
      · exact h

theorem find_none {f : Flt} {k : FaultKey} (h : f.find k = none) : ∀ e ∈ f.entries, e.key ≠ k := by
  intro e he hk
  have := List.find?_eq_none.mp h e he
  simp [hk] at this

theorem find_some {f : Flt} {k : FaultKey} {e : FaultEntry} (h : f.find k = some e) : e ∈ f.entries ∧ e.key = k := by
  unfold Flt.find at h
  exact ⟨List.mem_of_find?_eq_some h, by simpa using List.find?_some h⟩

theorem raised_fits {f : Flt} {k : FaultKey} (now up : Nat) (h : f.fits = true) : (f.raised k now up).1.fits = true := by
  unfold Flt.raised
  split
  · rename_i e he
    have hs : (f.update k fun e =>
        { e with active := true, occurrences := min Config.occurrencesMax (e.occurrences + 1), lastChange := up }).sized = true :=
      update_sized (Flt.fits_sized h) (fun _ => rfl) fun _ _ => by simp
    have keeps : e.active = true → (f.update k fun e =>
        { e with active := true, occurrences := min Config.occurrencesMax (e.occurrences + 1), lastChange := up }).fits = true := by
      intro ha
      refine update_fits h (fun _ _ => by simp) (fun _ => rfl) fun x hx hk => ?_
      have hn : (f.entries.map (·.key)).Nodup := by simp_all [Flt.fits, Flt.sized]
      have := List.inj_on_of_nodup_map hn hx (find_some he).1 (by rw [hk, (find_some he).2])
      rw [this, ha]
    simp only
    split
    · exact resummarise_fits _ (callForNotice_sized hs)
    · rename_i ha
      split
      · exact callForNotice_fits (keeps (by simpa using ha))
      · exact keeps (by simpa using ha)
  · rename_i hn
    simp only
    split
    · rename_i hr
      exact resummarise_fits _ (callForNotice_sized (append_sized (makeRoom_sized (Flt.fits_sized h)) hr (by simp [FaultEntry.created, Config.occurrencesMax])
        fun x hx => find_none hn x (makeRoom_sub hx)))
    · exact makeRoom_full h ‹_›

theorem madeInactive_fits {f : Flt} {k : FaultKey} (now up : Nat) (h : f.fits = true) :
    (f.madeInactive k now up).1.fits = true := by
  unfold Flt.madeInactive
  split
  · exact resummarise_fits _ (callForNotice_sized (update_sized (Flt.fits_sized h) (fun _ => rfl) fun _ h => h))
  · exact h

theorem pulsed_fits {f : Flt} {k : FaultKey} (now up : Nat) (h : f.fits = true) : (f.pulsed k now up).1.fits = true := by
  unfold Flt.pulsed
  split
  · exact resummarise_fits _ (callForNotice_sized (update_sized (Flt.fits_sized h) (fun _ => rfl) fun _ _ => by simp))
  · rename_i hn
    simp only
    split
    · rename_i hr
      exact resummarise_fits _ (callForNotice_sized (append_sized (makeRoom_sized (Flt.fits_sized h)) hr (by simp [FaultEntry.created, Config.occurrencesMax])
        fun x hx => find_none hn x (makeRoom_sub hx)))
    · exact makeRoom_full h ‹_›

theorem cleared_fits {f : Flt} (h : f.fits = true) : f.cleared.fits = true := by
  simp only [Flt.fits, Bool.and_eq_true, decide_eq_true_eq] at h ⊢
  refine ⟨⟨?_, h.1.2.trans (summaryOf_active f.entries).symm⟩, h.2⟩
  have hs := h.1.1
  simp only [Flt.sized, Bool.and_eq_true, decide_eq_true_eq] at hs ⊢
  refine ⟨⟨le_trans (List.length_filter_le _ _) hs.1.1, List.Nodup.sublist (List.filter_sublist.map _) hs.1.2⟩, ?_⟩
  have h2 := hs.2
  simp only [Flt.cleared, List.all_eq_true] at h2 ⊢
  exact fun e he => h2 e (List.mem_of_mem_filter he)

theorem reportedBy_fits {f : Flt} {t : FaultTag} (h : f.fits = true) : (f.reportedBy t).fits = true := by
  refine update_fits h (fun e he => ?_) (fun e => ?_) fun e _ _ => ?_ <;> (split <;> first | exact he | rfl)

end Sys2Proof.Machine
end

