-- ==== Sys2Proof/Laws/Ops.lean ====
section
/-! SUPPORT. The frame of the shared operations of every block (Machine/Ops.lean). -/

set_option Elab.async false

namespace Sys2Proof.Machine

open Sys2Proof

variable {s0 s : State}

/-- One rewriting for the capacities of a block after a change of some of its fields. -/
theorem ybi_fits_iff (y : Ybi) : y.fits = true ↔
    y.urgent.length ≤ 4 ∧ y.call.length ≤ 8 ∧ y.routine.length ≤ 8 ∧ y.rxBuffer.length ≤ 4 ∧ y.presence.length ≤ 23 := by
  simp only [Ybi.fits, Bool.and_eq_true, decide_eq_true_eq, and_assoc]
  rfl

theorem lle_fits_iff (l : Lle) : l.fits = true ↔
    l.retry ≤ 12 ∧ l.sync.debt ≤ 8 ∧ l.sync.swapQueue.length ≤ 8 ∧ l.sync.impulses.length ≤ 8 := by
  simp only [Lle.fits, Bool.and_eq_true, decide_eq_true_eq, and_assoc]
  rfl

theorem cct_fits_iff (c : Cct) : c.fits = true ↔ c.calls.length ≤ 4 ∧ c.deferred.length ≤ 4 := by
  simp only [Cct.fits, Bool.and_eq_true, decide_eq_true_eq]
  rfl

theorem vsw_fits_iff (v : Vsw) : v.fits = true ↔ v.repeatQueue.length ≤ 16 := by
  simp only [Vsw.fits, decide_eq_true_eq]
  rfl

theorem plp_fits_iff (p : Plp) :
    p.fits = true ↔ p.queue.length ≤ 16 ∧ (p.ready = true → p.queue.length < 16) := by
  cases h : p.ready <;> simp only [Plp.fits, h, Bool.not_false, Bool.not_true, Bool.true_or, Bool.false_or,
    Bool.and_true, Bool.and_eq_true, decide_eq_true_eq]
  · exact ⟨fun a => ⟨a, fun x => by contradiction⟩, fun a => a.1⟩
  · exact ⟨fun a => ⟨a.1, fun _ => a.2⟩, fun a => ⟨a.1, a.2 trivial⟩⟩

/-! ### The clock -/

theorem Keeps.reach {t : Nat} (h : Keeps s0 s) : Keeps s0 (s.reach t) := by
  unfold State.reach
  split
  · exact h
  · refine h.trans ⟨rfl, rfl, rfl, rfl, fun x => ?_⟩
    split <;> simp_all [State.fits, Lle.fits]

theorem Keeps.onExpiry {t : Timer} {f : State → State} (h : Keeps s0 s) (hf : ∀ s, Keeps s0 s → Keeps s0 (f s)) :
    Keeps s0 (s.onExpiry t f) := by
  unfold State.onExpiry
  split
  · exact h
  · exact hf _ h.reach

/-! ### The queues -/

/-- The first frame a test picks, put in the place of another, leaves the length. -/
theorem replaceFirst_length (p : TxFrame → Bool) (f : TxFrame) : ∀ l : List TxFrame, l.any p = true →
    (l.takeWhile (fun x => !p x) ++ f :: (l.dropWhile (fun x => !p x)).drop 1).length = l.length
  | [], h => by simp at h
  | x :: l, h => by
    cases hp : p x
    · have := replaceFirst_length p f l (by simpa [hp] using h)
      simp [hp] at this ⊢
      omega
    · simp [hp]

theorem replaceUnsent_length {b : Bool} {p : TxFrame → Bool} {f : TxFrame} {q r : List TxFrame}
    (h : replaceUnsent b p f q = some r) : r.length = q.length := by
  unfold replaceUnsent at h
  cases b
  · by_cases ha : q.any p = true
    · simp only [Bool.false_eq_true, ↓reduceIte, ha, Option.some.injEq, List.nil_append] at h
      rw [← h, replaceFirst_length p f q ha]
    · simp [ha] at h
  · by_cases ha : (q.drop 1).any p = true
    · simp only [↓reduceIte, ha, Option.some.injEq] at h
      rw [← h, List.append_assoc, List.length_append, replaceFirst_length p f _ ha]
      simp; omega
    · simp only [↓reduceIte, ha] at h
      exact absurd h (by simp)

theorem dropOldestUnsent_length {b : Bool} {q : List TxFrame} : (dropOldestUnsent b q).length ≤ q.length - 1 ∨ q.length ≤ 1 := by
  unfold dropOldestUnsent
  cases b <;> simp
  omega

theorem Keeps.noticeRoutine {e : FaultEntry} (h : Keeps s0 s) : Keeps s0 (s.noticeRoutine e) := by
  unfold State.noticeRoutine
  simp only
  split
  · exact h
  · split
    · rename_i hq
      refine h.onYbi fun hy => ?_
      rw [ybi_fits_iff] at *
      simp only [replaceUnsent_length hq]; exact hy
    · split
      · refine h.onYbi fun hy => ?_
        rw [ybi_fits_iff] at *
        simp_all [Config.queueCapacity]
      · split
        · exact h
        · exact h.onFlt fun hf => hf

theorem Keeps.backlog (h : Keeps s0 s) : Keeps s0 s.backlog := by
  unfold State.backlog
  simp only
  have h1 : Keeps s0 ((s.onFlt fun _ => (s.flt.raised backlogKey s.now s.uptime).1).onYbi fun y =>
      { y with backlogTimer := some (s.now + Config.backlogMs) }) :=
    (h.onFlt fun hf => raised_fits _ _ hf).onYbi fun hy => by rw [ybi_fits_iff] at *; exact hy
  split
  · exact h1.noticeRoutine
  · exact h1

theorem Keeps.handWrap {dropped : State → State} {f : TxFrame} (h : Keeps s0 s)
    (hd : ∀ s, Keeps s0 s → Keeps s0 (dropped s)) : Keeps s0 (s.handWrap dropped f) := by
  unfold State.handWrap
  split
  · exact h
  · split
    · refine h.onYbi fun hy => ?_
      rw [ybi_fits_iff] at *
      simp_all [Config.queueCapacity]
    · exact hd _ h

theorem count_value {c : Counter} {code : Nat} (h : c.value ≤ Config.counterTop) :
    (c.count code).value ≤ Config.counterTop := by
  unfold Counter.count Counter.add
  split
  · split
    · simp
    · simp [Config.counterTop] at *; omega
  · exact h

@[simp] theorem count_selection (c : Counter) (code : Nat) : (c.count code).selection = c.selection := by
  unfold Counter.count Counter.add
  split
  · split <;> rfl
  · rfl

/-- A change of every counter that keeps values in range and selections. -/
theorem ctb_map_fits {b : Ctb} {f : Counter → Counter} (hv : ∀ c, c.value ≤ Config.counterTop → (f c).value ≤ Config.counterTop)
    (hs : ∀ c, (f c).selection = c.selection) (h : b.fits = true) :
    Ctb.fits { b with counters := b.counters.map f } = true := by
  simp only [Ctb.fits, Bool.and_eq_true, decide_eq_true_eq, List.length_map, List.all_eq_true, List.mem_map,
    List.getElem?_map, Option.map_map] at *
  refine ⟨⟨⟨h.1.1.1, ?_⟩, ?_⟩, ?_⟩
  · rintro c ⟨x, hx, rfl⟩; exact hv x (h.1.1.2 x hx)
  · rw [← h.1.2]; congr 1; funext c; exact hs c
  · rw [← h.2]; congr 1; funext c; exact hs c

theorem Keeps.signalFuel : ∀ (fuel : Nat) {e : Event} {s : State}, Keeps s0 s → Keeps s0 (State.signalFuel fuel e s)
  | 0, e, s, h => by
    unfold State.signalFuel
    exact h.onCtb fun hc => ctb_map_fits (fun _ => count_value) (fun _ => count_selection _ _) hc
  | fuel + 1, e, s, h => by
    unfold State.signalFuel
    refine Keeps.foldl (fun s p hs => ?_) _ (h.onCtb fun hc => ctb_map_fits (fun _ => count_value) (fun _ => count_selection _ _) hc)
    exact hs.handWrap fun s hs => (Keeps.signalFuel fuel hs).backlog

theorem Keeps.signal {e : Event} (h : Keeps s0 s) : Keeps s0 (s.signal e) := Keeps.signalFuel 9 h

theorem Keeps.signalTimes {e : Event} : ∀ (n : Nat) {s : State}, Keeps s0 s → Keeps s0 (State.signalTimes n e s)
  | 0, _, h => h
  | n + 1, _, h => Keeps.signalTimes n h.signal

theorem Keeps.frameDropped (h : Keeps s0 s) : Keeps s0 s.frameDropped := h.signal.backlog

/-! ### Nothing of these touches the URGENT queue -/

theorem noticeRoutine_urgent (e : FaultEntry) (s : State) : (s.noticeRoutine e).ybi.urgent = s.ybi.urgent := by
  unfold State.noticeRoutine
  simp only
  repeat' split
  all_goals rfl

theorem backlog_urgent (s : State) : s.backlog.ybi.urgent = s.ybi.urgent := by
  unfold State.backlog
  simp only
  split
  · rw [noticeRoutine_urgent]; rfl
  · rfl

theorem handWrap_urgent {dropped : State → State} (hd : ∀ s, (dropped s).ybi.urgent = s.ybi.urgent) (f : TxFrame) (s : State) :
    (s.handWrap dropped f).ybi.urgent = s.ybi.urgent := by
  unfold State.handWrap
  repeat' split
  · rfl
  · rfl
  · exact hd s

theorem signalFuel_urgent : ∀ (fuel : Nat) (e : Event) (s : State), (State.signalFuel fuel e s).ybi.urgent = s.ybi.urgent
  | 0, _, _ => rfl
  | fuel + 1, e, s => by
    unfold State.signalFuel
    have key : ∀ (l : List (Nat × Counter)) (s : State), (l.foldl (fun s p =>
        s.handWrap (fun s => (State.signalFuel fuel .busFrameDropped s).backlog)
          (counterWrapFrame (p.2.delegate.getD 0) p.1 p.2.selection)) s).ybi.urgent = s.ybi.urgent := by
      intro l
      induction l with
      | nil => intro s; rfl
      | cons p l ih =>
        intro s
        rw [List.foldl_cons, ih, handWrap_urgent]
        intro s
        rw [backlog_urgent, signalFuel_urgent fuel]
    rw [key]; rfl

theorem frameDropped_urgent (s : State) : s.frameDropped.ybi.urgent = s.ybi.urgent := by
  unfold State.frameDropped State.signal
  rw [backlog_urgent, signalFuel_urgent]

/-! ### Handing -/

theorem Keeps.handUrgent {f : TxFrame} (h : Keeps s0 s) : Keeps s0 (s.handUrgent f) := by
  unfold State.handUrgent
  split
  · exact h
  · by_cases hl : s.ybi.urgent.length < Config.urgentCapacity
    · simp only [hl, ↓reduceIte]
      refine h.onYbi fun hy => ?_
      rw [ybi_fits_iff] at *
      simp_all [Config.urgentCapacity]
    · simp only [hl, ↓reduceIte]
      set u := s.onYbi fun y => { y with urgent := dropOldestUnsent (s.isSending .urgent) y.urgent } with hu
      have hlen : s.ybi.urgent.length ≤ 4 → u.ybi.urgent.length ≤ 3 := by
        intro h4
        have := @dropOldestUnsent_length (s.isSending .urgent) s.ybi.urgent
        have e : u.ybi.urgent = dropOldestUnsent (s.isSending .urgent) s.ybi.urgent := rfl
        rw [e]
        simp [Config.urgentCapacity] at hl
        omega
      have h1 : Keeps s0 u := h.onYbi fun hy => by
        have h4 := (ybi_fits_iff _).mp hy
        have := hlen h4.1
        rw [ybi_fits_iff]
        refine ⟨?_, h4.2⟩
        have e : u.ybi.urgent = dropOldestUnsent (s.isSending .urgent) s.ybi.urgent := rfl
        show u.ybi.urgent.length ≤ 4
        omega
      refine ⟨h1.frameDropped.cfl, h1.frameDropped.pins, h1.frameDropped.pending, h1.frameDropped.ring, fun x => ?_⟩
      have h2 := h1.frameDropped.fits x
      have h4 := h.fits x
      simp only [State.fits, Bool.and_eq_true, State.onYbi_cfl, State.onYbi_lle, State.onYbi_plp, State.onYbi_vsw,
        State.onYbi_cct, State.onYbi_flt, State.onYbi_ctb, State.onYbi_ybi] at h2 h4 ⊢
      refine ⟨⟨⟨⟨⟨⟨⟨h2.1.1.1.1.1.1.1, ?_⟩, h2.1.1.1.1.1.2⟩, h2.1.1.1.1.2⟩, h2.1.1.1.2⟩, h2.1.1.2⟩, h2.1.2⟩, h2.2⟩
      have hy := (ybi_fits_iff _).mp h2.1.1.1.1.1.1.2
      have hy0 := (ybi_fits_iff _).mp h4.1.1.1.1.1.1.2
      rw [ybi_fits_iff]
      refine ⟨?_, hy.2⟩
      have := hlen hy0.1
      simp only [List.length_append, List.length_cons, List.length_nil, frameDropped_urgent]
      omega

theorem Keeps.handCall {f : TxFrame} (h : Keeps s0 s) : Keeps s0 (s.handCall f) := by
  unfold State.handCall
  split
  · exact h
  · split
    · refine h.onYbi fun hy => ?_
      rw [ybi_fits_iff] at *
      simp_all [Config.queueCapacity]
    · exact h.frameDropped

theorem Keeps.handRoutine {f : TxFrame} (h : Keeps s0 s) : Keeps s0 (s.handRoutine f) := by
  unfold State.handRoutine
  split
  · exact h
  · split
    · rename_i q hq
      split at hq
      · refine h.onYbi fun hy => ?_
        rw [ybi_fits_iff] at *
        simp only [replaceUnsent_length hq]; exact hy
      · cases hq
    · split
      · refine h.onYbi fun hy => ?_
        rw [ybi_fits_iff] at *
        simp_all [Config.queueCapacity]
      · exact h.frameDropped

/-! ### Faults -/

theorem Keeps.notice {k : FaultKey} (h : Keeps s0 s) : Keeps s0 (s.notice k) := by
  unfold State.notice
  split
  · exact h
  · split
    · exact h.handUrgent
    · exact h.noticeRoutine

theorem Keeps.applyFault {k : FaultKey} {r : Flt × Bool} (h : Keeps s0 s) (hr : s.flt.fits = true → r.1.fits = true) :
    Keeps s0 (s.applyFault k r) := by
  unfold State.applyFault
  simp only
  split
  · exact (h.onFlt hr).notice
  · exact h.onFlt hr

theorem Keeps.raise {c : FaultCode} {x : FaultSource} (h : Keeps s0 s) : Keeps s0 (s.raise c x) :=
  h.applyFault (raised_fits _ _)

theorem Keeps.makeInactive {c : FaultCode} {x : FaultSource} (h : Keeps s0 s) : Keeps s0 (s.makeInactive c x) :=
  h.applyFault (madeInactive_fits _ _)

theorem Keeps.protocolFault {n : Nat} (h : Keeps s0 s) : Keeps s0 (s.protocolFault n) :=
  h.applyFault (pulsed_fits _ _)

theorem Keeps.raiseUnlessActive {c : FaultCode} {x : FaultSource} (h : Keeps s0 s) : Keeps s0 (s.raiseUnlessActive c x) := by
  unfold State.raiseUnlessActive
  split
  · exact h
  · exact h.raise

/-! ### Reply streams, replies, small changes -/

theorem Keeps.pumpStream (h : Keeps s0 s) : Keeps s0 s.pumpStream := by
  unfold State.pumpStream
  repeat' split
  · exact h
  · exact h
  · exact h.onYbi fun hy => by rw [ybi_fits_iff] at *; exact hy
  · refine h.onYbi fun hy => ?_
    rw [ybi_fits_iff] at *
    simp_all [Config.queueCapacity]
  · exact h

theorem Keeps.startStream {l : List TxFrame} (h : Keeps s0 s) : Keeps s0 (s.startStream l) := by
  unfold State.startStream
  split
  · exact h
  · exact (h.onYbi fun hy => by rw [ybi_fits_iff] at *; exact hy).pumpStream

theorem Keeps.handOwed (h : Keeps s0 s) : Keeps s0 s.handOwed := by
  unfold State.handOwed
  simp only
  split
  · exact h
  · split
    · have h1 : ∀ m, Keeps s0 (s.onFlt fun f => { f with owed := m }) := fun m => h.onFlt fun hf => hf
      split
      · exact h1 _
      · exact (h1 _).noticeRoutine
    · exact h

theorem Keeps.refuse {d : Nat} {k : Kind} {r : RefuseReason} {t : Nat} (h : Keeps s0 s) : Keeps s0 (s.refuse d k r t) :=
  h.handCall

theorem Keeps.done {d : Nat} {k : Kind} (h : Keeps s0 s) : Keeps s0 (s.done d k) := h.handRoutine

theorem Keeps.report {d : Nat} {b : List Byte} (h : Keeps s0 s) : Keeps s0 (s.report d b) := h.handRoutine

theorem Keeps.lineStatus (h : Keeps s0 s) : Keeps s0 s.lineStatus := h.handRoutine

theorem Keeps.onEntry {n : Nat} {g : PresenceEntry → PresenceEntry} (h : Keeps s0 s) : Keeps s0 (s.onEntry n g) :=
  h.onYbi fun hy => by rw [ybi_fits_iff] at *; simpa using hy

theorem Keeps.clearExpectation {n : Nat} (h : Keeps s0 s) : Keeps s0 (s.clearExpectation n) := h.onEntry

theorem Keeps.onPort {p : Port} {f : PortRec → PortRec} (h : Keeps s0 s) : Keeps s0 (s.onPort p f) := by
  unfold State.onPort
  split <;> exact h.onVsw (fun hv => hv) rfl rfl

theorem Keeps.popRequest (h : Keeps s0 s) : Keeps s0 s.popRequest :=
  h.onYbi fun hy => by rw [ybi_fits_iff] at *; simp; omega

end Sys2Proof.Machine
end

