-- ==== Sys2Proof/WellFormed.lean ====
section
/-! DEFINITION. Which commands can come from the connections of the part: the range of every operand. `exec`
is defined on all commands; an ill-formed one is a term no connection can produce. -/

namespace Sys2Proof

/-- An address of a station, 1..24 (section 1.1). -/
def stationOk (n : Nat) : Bool := 1 ≤ n && n ≤ 24

/-- A call id, 1..255 (R130). -/
def callIdOk (n : Nat) : Bool := 1 ≤ n && n ≤ 255

/-- A request number of the overhead exchange, 1..15 (R57); the far end's own are taken to have the same range (log
entry 100). -/
def requestNumberOk (n : Nat) : Bool := 1 ≤ n && n ≤ 15

/-- The measurement of one group: 16 tones (R66). -/
def groupMeasureOk (m : List Int) : Bool := m.length == 16

/-- The measurement of PROBE: the 336 downstream tones (R44). -/
def probeMeasureOk (m : List Int) : Bool := m.length == Config.downTones

/-- An upstream table of the far end: bits for at most the 384 tones; a tone not listed carries none (R45). -/
def farTableOk (t : List Nat) : Bool := t.length ≤ 384

/-- A readout of the configuration memory: at most 64 bytes, fewer when it stopped acknowledging (R26). -/
def memoryOk : Option (List Byte) → Bool
  | none => true
  | some m => m.length ≤ 64

/-- The ranges of the survey's readings (R159, R160): the voltages and leakages as they saturate. -/
def readingsOk (r : LoopReadings) : Bool :=
  r.acTip ≤ 250 && r.dcTip ≤ 250 && r.acRing ≤ 250 && r.dcRing ≤ 250 && r.feed ≤ 100 &&
    r.tipGround ≤ 10000 && r.ringGround ≤ 10000 && r.tipRing ≤ 10000

/-- Every operand of the command lies in its range. -/
def Instr.wellFormed : Instr → Bool
  | .configReadDone m => memoryOk m
  | .stationAbsent n => stationOk n
  | .grantDeadlineExpiry n => stationOk n
  | .pendingAnyExpiry n => stationOk n
  | .intercomRingExpiry c => callIdOk c
  | .holdAgeRecall c => callIdOk c
  | .recallRetryExpiry c => callIdOk c
  | .holdAgeRelease c => callIdOk c
  | .clearingGuardExpiry c => callIdOk c
  | .cadencePhaseExpiry c => callIdOk c
  | .probeEnd m => probeMeasureOk m
  | .farTablesReceived n g => farTableOk n && farTableOk g
  | .overheadAgree n => requestNumberOk n
  | .overheadDecline n => requestNumberOk n
  | .farEndSwap n _ _ b => requestNumberOk n && b.length == 16
  | .farEndSwitch n _ => requestNumberOk n
  | .farEndRetrain n => requestNumberOk n
  | .refreshTimerExpiry m => groupMeasureOk m
  | .catchUpExpiry m => groupMeasureOk m
  | .impulseEvent _ l => decide (1 ≤ l)
  | .itemTimerExpiry r => readingsOk r
  | .deviceReset _ _ _ => true
  | .listenTimerExpiry => true
  | .frameReceived low wire => decide (0 < low) && wire.all (fun r => decide (0 < r.micros))
  | .ownSlotBegins _ => true
  | .frameSent => true
  | .collision => true
  | .yieldEnd => true
  | .backlogTimerExpiry => true
  | .presenceTimerExpiry => true
  | .presenceAgeing => true
  | .hookOn => true
  | .hookFlash => true
  | .claimOutside => true
  | .claimOutsideAny => true
  | .claimAnswer => true
  | .claimIntercom => true
  | .claimJoin => true
  | .take => true
  | .hold => true
  | .retrieve => true
  | .release => true
  | .overheardGrant => true
  | .overheardTake => true
  | .queryLink => true
  | .queryLoopRecord => true
  | .queryFaultSummary => true
  | .queryFaultAll => true
  | .queryFaultActive => true
  | .queryPresenceTable => true
  | .queryConfiguration => true
  | .test => true
  | .linkControlHold => true
  | .linkControlRelease => true
  | .linkControlRetrain => true
  | .clearRetry => true
  | .clearFaults => true
  | .counterRead => true
  | .counterReadClear => true
  | .counterSet => true
  | .counterDelegate => true
  | .mainsOkChange _ => true
  | .mainsOkDebounced => true
  | .battLowChange _ => true
  | .battLowDebounced => true
  | .railSettleEnd => true
  | .converterSettleEnd => true
  | .converterIdleExpiry => true
  | .handshakeStart => true
  | .farEndAnswer => true
  | .handshakeTimeout => true
  | .probeSignalLoss => true
  | .loadTimeout => true
  | .backoffExpiry => true
  | .lockoutExpiry => true
  | .overheadTimerExpiry => true
  | .payloadFrameOffered _ => true
  | .payloadFrameSent => true
  | .guardExit => true
  | .switchRetryExpiry => true
  | .predictionMiss => true
  | .correctedCodeword => true
  | .uncorrectedCodeword => true
  | .secondTimerExpiry => true
  | .signalAbsent => true
  | .signalPresent => true
  | .lossOfSignalExpiry => true
  | .marginWatchExpiry => true
  | .portLoopClosed _ => true
  | .portLoopOpened _ => true
  | .portOnHook _ => true
  | .digitPauseExpiry _ => true
  | .dtmfDigit _ _ => true
  | .firstDigitWindowExpiry _ => true
  | .interDigitExpiry _ => true
  | .postFlashWindowExpiry _ => true
  | .offHookTimerExpiry _ => true
  | .howlerTimerExpiry _ => true
  | .noLoadTimerExpiry _ => true
  | .noLoadCheckDone _ _ => true
  | .loopCurrentChange _ _ => true
  | .lowCurrentExpiry _ => true
  | .lineVoltageChange _ => true
  | .offHookBandHeld => true
  | .onHookBandHeld => true
  | .noFeedExpiry => true
  | .feedRestored => true
  | .ringingVoltageChange _ => true
  | .ringBurstDetected => true
  | .ringBurstEnd => true
  | .ringEndTimeout => true
  | .releaseGuardExpiry => true
  | .outpulseTimerExpiry => true
  | .testRingDetected => true
  | .surveyPhaseStart => true
  | .automaticCheckStart => true
  | .restoreTimerExpiry => true
  | .waitTimerExpiry => true
  | .holdOffExpiry => true
  | .periodicCheckExpiry => true
  | .recheckTimerExpiry => true
  | .lampFlashToggle => true
  | .anotherStationStartBit => true

end Sys2Proof
end

