-- ==== Sys2Proof/Laws/PerInstr.lean ====
section
/-! SUPPORT. For every command, what its well-formedness says of its operands. -/

set_option Elab.async false

namespace Sys2Proof.Laws.Ranges

open Sys2Proof

/-- The ranges of the operands of a command, as propositions. -/
def inRange : Instr → Prop
  | .deviceReset _ _ _ => True
  | .configReadDone m => ∀ l, m = some l → l.length ≤ 64
  | .listenTimerExpiry => True
  | .frameReceived low wire => 0 < low ∧ ∀ r ∈ wire, 0 < r.micros
  | .ownSlotBegins _ => True
  | .frameSent => True
  | .collision => True
  | .yieldEnd => True
  | .backlogTimerExpiry => True
  | .presenceTimerExpiry => True
  | .presenceAgeing => True
  | .stationAbsent n => 1 ≤ n ∧ n ≤ 24
  | .hookOn => True
  | .hookFlash => True
  | .claimOutside => True
  | .claimOutsideAny => True
  | .claimAnswer => True
  | .claimIntercom => True
  | .claimJoin => True
  | .take => True
  | .hold => True
  | .retrieve => True
  | .release => True
  | .overheardGrant => True
  | .overheardTake => True
  | .grantDeadlineExpiry n => 1 ≤ n ∧ n ≤ 24
  | .pendingAnyExpiry n => 1 ≤ n ∧ n ≤ 24
  | .intercomRingExpiry c => 1 ≤ c ∧ c ≤ 255
  | .holdAgeRecall c => 1 ≤ c ∧ c ≤ 255
  | .recallRetryExpiry c => 1 ≤ c ∧ c ≤ 255
  | .holdAgeRelease c => 1 ≤ c ∧ c ≤ 255
  | .clearingGuardExpiry c => 1 ≤ c ∧ c ≤ 255
  | .queryLink => True
  | .queryLoopRecord => True
  | .queryFaultSummary => True
  | .queryFaultAll => True
  | .queryFaultActive => True
  | .queryPresenceTable => True
  | .queryConfiguration => True
  | .test => True
  | .linkControlHold => True
  | .linkControlRelease => True
  | .linkControlRetrain => True
  | .clearRetry => True
  | .clearFaults => True
  | .counterRead => True
  | .counterReadClear => True
  | .counterSet => True
  | .counterDelegate => True
  | .mainsOkChange _ => True
  | .mainsOkDebounced => True
  | .battLowChange _ => True
  | .battLowDebounced => True
  | .railSettleEnd => True
  | .converterSettleEnd => True
  | .converterIdleExpiry => True
  | .handshakeStart => True
  | .farEndAnswer => True
  | .handshakeTimeout => True
  | .probeEnd m => m.length = 336
  | .probeSignalLoss => True
  | .farTablesReceived n g => n.length ≤ 384 ∧ g.length ≤ 384
  | .loadTimeout => True
  | .backoffExpiry => True
  | .lockoutExpiry => True
  | .overheadAgree n => 1 ≤ n ∧ n ≤ 15
  | .overheadDecline n => 1 ≤ n ∧ n ≤ 15
  | .overheadTimerExpiry => True
  | .farEndSwap n _ _ b => (1 ≤ n ∧ n ≤ 15) ∧ b.length = 16
  | .farEndSwitch n _ => 1 ≤ n ∧ n ≤ 15
  | .farEndRetrain n => 1 ≤ n ∧ n ≤ 15
  | .payloadFrameOffered _ => True
  | .payloadFrameSent => True
  | .refreshTimerExpiry m => m.length = 16
  | .catchUpExpiry m => m.length = 16
  | .guardExit => True
  | .switchRetryExpiry => True
  | .impulseEvent _ l => 1 ≤ l
  | .predictionMiss => True
  | .correctedCodeword => True
  | .uncorrectedCodeword => True
  | .secondTimerExpiry => True
  | .signalAbsent => True
  | .signalPresent => True
  | .lossOfSignalExpiry => True
  | .marginWatchExpiry => True
  | .portLoopClosed _ => True
  | .portLoopOpened _ => True
  | .portOnHook _ => True
  | .digitPauseExpiry _ => True
  | .dtmfDigit _ _ => True
  | .firstDigitWindowExpiry _ => True
  | .interDigitExpiry _ => True
  | .postFlashWindowExpiry _ => True
  | .offHookTimerExpiry _ => True
  | .howlerTimerExpiry _ => True
  | .noLoadTimerExpiry _ => True
  | .noLoadCheckDone _ _ => True
  | .loopCurrentChange _ _ => True
  | .lowCurrentExpiry _ => True
  | .lineVoltageChange _ => True
  | .offHookBandHeld => True
  | .onHookBandHeld => True
  | .noFeedExpiry => True
  | .feedRestored => True
  | .ringingVoltageChange _ => True
  | .ringBurstDetected => True
  | .ringBurstEnd => True
  | .ringEndTimeout => True
  | .releaseGuardExpiry => True
  | .outpulseTimerExpiry => True
  | .cadencePhaseExpiry c => 1 ≤ c ∧ c ≤ 255
  | .testRingDetected => True
  | .surveyPhaseStart => True
  | .automaticCheckStart => True
  | .itemTimerExpiry r => r.acTip ≤ 250 ∧ r.dcTip ≤ 250 ∧ r.acRing ≤ 250 ∧ r.dcRing ≤ 250 ∧ r.feed ≤ 100 ∧ r.tipGround ≤ 10000 ∧
      r.ringGround ≤ 10000 ∧ r.tipRing ≤ 10000
  | .restoreTimerExpiry => True
  | .waitTimerExpiry => True
  | .holdOffExpiry => True
  | .periodicCheckExpiry => True
  | .recheckTimerExpiry => True
  | .lampFlashToggle => True
  | .anotherStationStartBit => True

/-- A command is well-formed exactly when its operands lie in their ranges. -/
def Statement (i : Instr) : Prop := i.wellFormed = true ↔ inRange i

theorem memoryOk_iff (m : Option (List Byte)) : memoryOk m = true ↔ ∀ l, m = some l → l.length ≤ 64 := by
  cases m <;> simp [memoryOk]

theorem station_iff (n : Nat) : stationOk n = true ↔ 1 ≤ n ∧ n ≤ 24 := by simp [stationOk]

theorem callId_iff (n : Nat) : callIdOk n = true ↔ 1 ≤ n ∧ n ≤ 255 := by simp [callIdOk]

theorem requestNumber_iff (n : Nat) : requestNumberOk n = true ↔ 1 ≤ n ∧ n ≤ 15 := by simp [requestNumberOk]

theorem deviceReset (straps : Fin 32) (mainsOk battLow : Bool) : Statement (.deviceReset straps mainsOk battLow) := iff_of_true rfl trivial

theorem configReadDone (memory : Option (List Byte)) : Statement (.configReadDone memory) := memoryOk_iff _

theorem listenTimerExpiry : Statement .listenTimerExpiry := iff_of_true rfl trivial

theorem frameReceived (low : Nat) (wire : List WireRun) : Statement (.frameReceived low wire) := by
  simp [Statement, inRange, Instr.wellFormed]

theorem ownSlotBegins (cls : UrgencyClass) : Statement (.ownSlotBegins cls) := iff_of_true rfl trivial

theorem frameSent : Statement .frameSent := iff_of_true rfl trivial

theorem collision : Statement .collision := iff_of_true rfl trivial

theorem yieldEnd : Statement .yieldEnd := iff_of_true rfl trivial

theorem backlogTimerExpiry : Statement .backlogTimerExpiry := iff_of_true rfl trivial

theorem presenceTimerExpiry : Statement .presenceTimerExpiry := iff_of_true rfl trivial

theorem presenceAgeing : Statement .presenceAgeing := iff_of_true rfl trivial

theorem stationAbsent (station : Nat) : Statement (.stationAbsent station) := station_iff _

theorem hookOn : Statement .hookOn := iff_of_true rfl trivial

theorem hookFlash : Statement .hookFlash := iff_of_true rfl trivial

theorem claimOutside : Statement .claimOutside := iff_of_true rfl trivial

theorem claimOutsideAny : Statement .claimOutsideAny := iff_of_true rfl trivial

theorem claimAnswer : Statement .claimAnswer := iff_of_true rfl trivial

theorem claimIntercom : Statement .claimIntercom := iff_of_true rfl trivial

theorem claimJoin : Statement .claimJoin := iff_of_true rfl trivial

theorem take : Statement .take := iff_of_true rfl trivial

theorem hold : Statement .hold := iff_of_true rfl trivial

theorem retrieve : Statement .retrieve := iff_of_true rfl trivial

theorem release : Statement .release := iff_of_true rfl trivial

theorem overheardGrant : Statement .overheardGrant := iff_of_true rfl trivial

theorem overheardTake : Statement .overheardTake := iff_of_true rfl trivial

theorem grantDeadlineExpiry (station : Nat) : Statement (.grantDeadlineExpiry station) := station_iff _

theorem pendingAnyExpiry (station : Nat) : Statement (.pendingAnyExpiry station) := station_iff _

theorem intercomRingExpiry (callId : Nat) : Statement (.intercomRingExpiry callId) := callId_iff _

theorem holdAgeRecall (callId : Nat) : Statement (.holdAgeRecall callId) := callId_iff _

theorem recallRetryExpiry (callId : Nat) : Statement (.recallRetryExpiry callId) := callId_iff _

theorem holdAgeRelease (callId : Nat) : Statement (.holdAgeRelease callId) := callId_iff _

theorem clearingGuardExpiry (callId : Nat) : Statement (.clearingGuardExpiry callId) := callId_iff _

theorem queryLink : Statement .queryLink := iff_of_true rfl trivial

theorem queryLoopRecord : Statement .queryLoopRecord := iff_of_true rfl trivial

theorem queryFaultSummary : Statement .queryFaultSummary := iff_of_true rfl trivial

theorem queryFaultAll : Statement .queryFaultAll := iff_of_true rfl trivial

theorem queryFaultActive : Statement .queryFaultActive := iff_of_true rfl trivial

theorem queryPresenceTable : Statement .queryPresenceTable := iff_of_true rfl trivial

theorem queryConfiguration : Statement .queryConfiguration := iff_of_true rfl trivial

theorem test : Statement .test := iff_of_true rfl trivial

theorem linkControlHold : Statement .linkControlHold := iff_of_true rfl trivial

theorem linkControlRelease : Statement .linkControlRelease := iff_of_true rfl trivial

theorem linkControlRetrain : Statement .linkControlRetrain := iff_of_true rfl trivial

theorem clearRetry : Statement .clearRetry := iff_of_true rfl trivial

theorem clearFaults : Statement .clearFaults := iff_of_true rfl trivial

theorem counterRead : Statement .counterRead := iff_of_true rfl trivial

theorem counterReadClear : Statement .counterReadClear := iff_of_true rfl trivial

theorem counterSet : Statement .counterSet := iff_of_true rfl trivial

theorem counterDelegate : Statement .counterDelegate := iff_of_true rfl trivial

theorem mainsOkChange (level : Bool) : Statement (.mainsOkChange level) := iff_of_true rfl trivial

theorem mainsOkDebounced : Statement .mainsOkDebounced := iff_of_true rfl trivial

theorem battLowChange (asserted : Bool) : Statement (.battLowChange asserted) := iff_of_true rfl trivial

theorem battLowDebounced : Statement .battLowDebounced := iff_of_true rfl trivial

theorem railSettleEnd : Statement .railSettleEnd := iff_of_true rfl trivial

theorem converterSettleEnd : Statement .converterSettleEnd := iff_of_true rfl trivial

theorem converterIdleExpiry : Statement .converterIdleExpiry := iff_of_true rfl trivial

theorem handshakeStart : Statement .handshakeStart := iff_of_true rfl trivial

theorem farEndAnswer : Statement .farEndAnswer := iff_of_true rfl trivial

theorem handshakeTimeout : Statement .handshakeTimeout := iff_of_true rfl trivial

theorem probeEnd (snr : List Int) : Statement (.probeEnd snr) := by
  simp [Statement, inRange, Instr.wellFormed, probeMeasureOk, Config.downTones]

theorem probeSignalLoss : Statement .probeSignalLoss := iff_of_true rfl trivial

theorem farTablesReceived (normal guard : List Nat) : Statement (.farTablesReceived normal guard) := by
  simp [Statement, inRange, Instr.wellFormed, farTableOk]

theorem loadTimeout : Statement .loadTimeout := iff_of_true rfl trivial

theorem backoffExpiry : Statement .backoffExpiry := iff_of_true rfl trivial

theorem lockoutExpiry : Statement .lockoutExpiry := iff_of_true rfl trivial

theorem overheadAgree (number : Nat) : Statement (.overheadAgree number) := requestNumber_iff _

theorem overheadDecline (number : Nat) : Statement (.overheadDecline number) := requestNumber_iff _

theorem overheadTimerExpiry : Statement .overheadTimerExpiry := iff_of_true rfl trivial

theorem farEndSwap (number : Nat) (table : TableName) (group : Nat) (bits : List Nat) : Statement (.farEndSwap number table group bits) := by
  simp [Statement, inRange, Instr.wellFormed, requestNumberOk]

theorem farEndSwitch (number : Nat) (table : TableName) : Statement (.farEndSwitch number table) := requestNumber_iff _

theorem farEndRetrain (number : Nat) : Statement (.farEndRetrain number) := requestNumber_iff _

theorem payloadFrameOffered (payload : List Byte) : Statement (.payloadFrameOffered payload) := iff_of_true rfl trivial

theorem payloadFrameSent : Statement .payloadFrameSent := iff_of_true rfl trivial

theorem refreshTimerExpiry (measured : List Int) : Statement (.refreshTimerExpiry measured) := by
  simp [Statement, inRange, Instr.wellFormed, groupMeasureOk]

theorem catchUpExpiry (measured : List Int) : Statement (.catchUpExpiry measured) := by
  simp [Statement, inRange, Instr.wellFormed, groupMeasureOk]

theorem guardExit : Statement .guardExit := iff_of_true rfl trivial

theorem switchRetryExpiry : Statement .switchRetryExpiry := iff_of_true rfl trivial

theorem impulseEvent (start length : Nat) : Statement (.impulseEvent start length) := by
  simp [Statement, inRange, Instr.wellFormed]

theorem predictionMiss : Statement .predictionMiss := iff_of_true rfl trivial

theorem correctedCodeword : Statement .correctedCodeword := iff_of_true rfl trivial

theorem uncorrectedCodeword : Statement .uncorrectedCodeword := iff_of_true rfl trivial

theorem secondTimerExpiry : Statement .secondTimerExpiry := iff_of_true rfl trivial

theorem signalAbsent : Statement .signalAbsent := iff_of_true rfl trivial

theorem signalPresent : Statement .signalPresent := iff_of_true rfl trivial

theorem lossOfSignalExpiry : Statement .lossOfSignalExpiry := iff_of_true rfl trivial

theorem marginWatchExpiry : Statement .marginWatchExpiry := iff_of_true rfl trivial

theorem portLoopClosed (port : Port) : Statement (.portLoopClosed port) := iff_of_true rfl trivial

theorem portLoopOpened (port : Port) : Statement (.portLoopOpened port) := iff_of_true rfl trivial

theorem portOnHook (port : Port) : Statement (.portOnHook port) := iff_of_true rfl trivial

theorem digitPauseExpiry (port : Port) : Statement (.digitPauseExpiry port) := iff_of_true rfl trivial

theorem dtmfDigit (port : Port) (key : DtmfKey) : Statement (.dtmfDigit port key) := iff_of_true rfl trivial

theorem firstDigitWindowExpiry (port : Port) : Statement (.firstDigitWindowExpiry port) := iff_of_true rfl trivial

theorem interDigitExpiry (port : Port) : Statement (.interDigitExpiry port) := iff_of_true rfl trivial

theorem postFlashWindowExpiry (port : Port) : Statement (.postFlashWindowExpiry port) := iff_of_true rfl trivial

theorem offHookTimerExpiry (port : Port) : Statement (.offHookTimerExpiry port) := iff_of_true rfl trivial

theorem howlerTimerExpiry (port : Port) : Statement (.howlerTimerExpiry port) := iff_of_true rfl trivial

theorem noLoadTimerExpiry (port : Port) : Statement (.noLoadTimerExpiry port) := iff_of_true rfl trivial

theorem noLoadCheckDone (port : Port) (ringerFound : Bool) : Statement (.noLoadCheckDone port ringerFound) := iff_of_true rfl trivial

theorem loopCurrentChange (port : Port) (milliamp : Nat) : Statement (.loopCurrentChange port milliamp) := iff_of_true rfl trivial

theorem lowCurrentExpiry (port : Port) : Statement (.lowCurrentExpiry port) := iff_of_true rfl trivial

theorem lineVoltageChange (millivolt : Nat) : Statement (.lineVoltageChange millivolt) := iff_of_true rfl trivial

theorem offHookBandHeld : Statement .offHookBandHeld := iff_of_true rfl trivial

theorem onHookBandHeld : Statement .onHookBandHeld := iff_of_true rfl trivial

theorem noFeedExpiry : Statement .noFeedExpiry := iff_of_true rfl trivial

theorem feedRestored : Statement .feedRestored := iff_of_true rfl trivial

theorem ringingVoltageChange (present : Bool) : Statement (.ringingVoltageChange present) := iff_of_true rfl trivial

theorem ringBurstDetected : Statement .ringBurstDetected := iff_of_true rfl trivial

theorem ringBurstEnd : Statement .ringBurstEnd := iff_of_true rfl trivial

theorem ringEndTimeout : Statement .ringEndTimeout := iff_of_true rfl trivial

theorem releaseGuardExpiry : Statement .releaseGuardExpiry := iff_of_true rfl trivial

theorem outpulseTimerExpiry : Statement .outpulseTimerExpiry := iff_of_true rfl trivial

theorem cadencePhaseExpiry (callId : Nat) : Statement (.cadencePhaseExpiry callId) := callId_iff _

theorem testRingDetected : Statement .testRingDetected := iff_of_true rfl trivial

theorem surveyPhaseStart : Statement .surveyPhaseStart := iff_of_true rfl trivial

theorem automaticCheckStart : Statement .automaticCheckStart := iff_of_true rfl trivial

theorem itemTimerExpiry (readings : LoopReadings) : Statement (.itemTimerExpiry readings) := by
  simp [Statement, inRange, Instr.wellFormed, readingsOk, and_assoc]

theorem restoreTimerExpiry : Statement .restoreTimerExpiry := iff_of_true rfl trivial

theorem waitTimerExpiry : Statement .waitTimerExpiry := iff_of_true rfl trivial

theorem holdOffExpiry : Statement .holdOffExpiry := iff_of_true rfl trivial

theorem periodicCheckExpiry : Statement .periodicCheckExpiry := iff_of_true rfl trivial

theorem recheckTimerExpiry : Statement .recheckTimerExpiry := iff_of_true rfl trivial

theorem lampFlashToggle : Statement .lampFlashToggle := iff_of_true rfl trivial

theorem anotherStationStartBit : Statement .anotherStationStartBit := iff_of_true rfl trivial

end Sys2Proof.Laws.Ranges
end

