-- ==== Sys2Proof/Laws/Settle.lean ====
section
/-! SUPPORT. When an event leaves everything the other blocks look at as it was, nothing more follows from it:
`State.settle` is the identity, part by part and as a whole. -/

set_option Elab.async false

namespace Sys2Proof.Machine

open Sys2Proof

theorem settlePortB_same {s before : State} (h1 : s.sup.supply = before.sup.supply) (h2 : s.cct.calls = before.cct.calls)
    (h3 : s.cfl.state = before.cfl.state) : s.settlePortB before = s := by
  simp [State.settlePortB, h1, h2, h3]

theorem settleRecall_same {s before : State} (h1 : s.cct.calls = before.cct.calls)
    (h2 : s.ybi.presence = before.ybi.presence) (h3 : s.vsw.portA.state = before.vsw.portA.state)
    (h4 : s.vsw.portB.state = before.vsw.portB.state) : s.settleRecall before = s := by
  simp [State.settleRecall, h1, h2, h3, h4]

/-- Without HELD calls no recall rings. -/
theorem settleRecall_noHeld {s before : State} (h : ∀ c ∈ s.cct.calls, c.state ≠ .held) :
    s.settleRecall before = s := by
  have : s.cct.calls.filter (fun c => decide (c.state = .held)) = [] := by
    simp [List.filter_eq_nil_iff]; exact h
  unfold State.settleRecall
  split
  · rfl
  · rw [this]; rfl

theorem settleRinging_same {s before : State} (h1 : s.cct.calls = before.cct.calls)
    (h2 : s.sup.supply = before.sup.supply) (h3 : s.vsw.portA.state = before.vsw.portA.state)
    (h4 : s.vsw.portB.state = before.vsw.portB.state) (h5 : ringFields s.ybi.presence = ringFields before.ybi.presence)
    (h6 : s.vsw.inBurst = before.vsw.inBurst) (h7 : s.vsw.episodes = before.vsw.episodes) :
    s.settleRinging before = s := by
  simp [State.settleRinging, State.planDue, h1, h2, h3, h4, h5, h6, h7]

/-- While nothing rings and the call table, the supply state and the ports are as they were, nothing of the ringing
changes. -/
theorem settleRinging_silent {s before : State} (h1 : s.cct.calls = before.cct.calls)
    (h2 : s.sup.supply = before.sup.supply) (h3 : s.vsw.portA.state = before.vsw.portA.state)
    (h4 : s.vsw.portB.state = before.vsw.portB.state) (h7 : s.vsw.episodes = []) :
    s.settleRinging before = s := by
  simp [State.settleRinging, State.planDue, h1, h2, h3, h4, h7]

theorem settlePair_same {s before : State} (h1 : s.cct.calls = before.cct.calls)
    (h2 : s.sup.converter.burst = before.sup.converter.burst) : s.settlePair before = s := by
  simp [State.settlePair, h1, h2]

theorem settleGuard_same {s before : State} (h1 : s.vsw.line = before.vsw.line)
    (h2 : s.lle.link = .showtime → before.lle.link = .showtime) : s.settleGuard before = s := by
  simp only [State.settleGuard, h1, ne_eq, not_true_eq_false, false_or, ite_eq_right_iff, and_imp]
  intro a b; exact absurd (h2 a) b

theorem settleLink_same {s before : State} (h : s.linkStill before = true) : s.settleLink before = s := by
  simp [State.settleLink, h]

theorem settleWait_same {s before : State} (h1 : s.lth.stage = before.lth.stage) (h2 : s.lth.running = before.lth.running)
    (h3 : before.phaseReady = true → s.phaseReady = true) : s.settleWait before = s := by
  cases hb : before.phaseReady with
  | true =>
    have hs := h3 hb
    unfold State.settleWait
    split <;> simp [hs]
  | false =>
    unfold State.settleWait
    split <;> simp [h1, h2, hb]

/-- A survey that does not wait starts no wait timer. -/
theorem settleWait_notWaiting {s before : State} (h1 : s.lth.stage ≠ .waitVoltage) (h2 : s.lth.stage ≠ .waitMetallic) :
    s.settleWait before = s := by
  unfold State.settleWait
  split
  · exact absurd ‹_› h1
  · exact absurd ‹_› h2
  · rfl

/-- What `settle` compares is as the command found it. -/
structure Undisturbed (s before : State) : Prop where
  supply : s.sup.supply = before.sup.supply
  calls : s.cct.calls = before.cct.calls
  ready : s.cfl.state = before.cfl.state
  presence : s.ybi.presence = before.ybi.presence
  portA : s.vsw.portA.state = before.vsw.portA.state
  portB : s.vsw.portB.state = before.vsw.portB.state
  burst : s.vsw.inBurst = before.vsw.inBurst
  episodes : s.vsw.episodes = before.vsw.episodes
  driven : s.sup.converter.burst = before.sup.converter.burst
  line : s.vsw.line = before.vsw.line
  link : s.linkStill before = true
  stage : s.lth.stage = before.lth.stage
  running : s.lth.running = before.lth.running
  phase : before.phaseReady = true → s.phaseReady = true

/-- Nothing follows an event that leaves all this as it was. -/
theorem settle_undisturbed {s before : State} (h : Undisturbed s before) : s.settle before = s := by
  have hl : s.lle.link = before.lle.link := by
    have := h.link
    simp only [State.linkStill, Bool.and_eq_true, decide_eq_true_eq] at this
    tauto
  unfold State.settle
  simp only [settlePortB_same h.supply h.calls h.ready, settleRecall_same h.calls h.presence h.portA h.portB,
    settleRinging_same h.calls h.supply h.portA h.portB (by rw [h.presence]) h.burst h.episodes,
    settlePair_same h.calls h.driven, settleGuard_same h.line (fun a => hl ▸ a), settleLink_same h.link,
    settleWait_same h.stage h.running h.phase]

/-- Time alone disturbs nothing. -/
theorem reach_undisturbed (t : Nat) (s : State) : Undisturbed (s.reach t) s := by
  unfold State.reach
  split
  · constructor <;> simp [State.linkStill]
  · constructor <;> first | rfl | skip
    · simp only [State.linkStill]; split <;> simp
    · intro h
      have : (State.phaseReady s) = true := h
      simp only [State.phaseReady] at this ⊢
      split at this <;> simp_all [State.voltageReady, State.metallicReady, State.faultActive]
      split <;> simp_all

/-! ### What leaves the rest alone, modifier by modifier -/

section calculus
variable {s before : State}

theorem Undisturbed.refl (s : State) : Undisturbed s s := by
  constructor <;> first | rfl | exact id | simp [State.linkStill]

theorem Undisturbed.onYbi {f : Ybi → Ybi} (h : Undisturbed s before) (hp : (f s.ybi).presence = s.ybi.presence) :
    Undisturbed (s.onYbi f) before :=
  ⟨h.supply, h.calls, h.ready, hp.trans h.presence, h.portA, h.portB, h.burst, h.episodes, h.driven, h.line, h.link,
    h.stage, h.running, h.phase⟩

theorem Undisturbed.onPins {f : Pins → Pins} (h : Undisturbed s before) : Undisturbed (s.onPins f) before :=
  ⟨h.supply, h.calls, h.ready, h.presence, h.portA, h.portB, h.burst, h.episodes, h.driven, h.line, h.link, h.stage,
    h.running, h.phase⟩

theorem Undisturbed.onPlp {f : Plp → Plp} (h : Undisturbed s before) : Undisturbed (s.onPlp f) before :=
  ⟨h.supply, h.calls, h.ready, h.presence, h.portA, h.portB, h.burst, h.episodes, h.driven, h.line, h.link, h.stage,
    h.running, h.phase⟩

theorem Undisturbed.onCtb {f : Ctb → Ctb} (h : Undisturbed s before) : Undisturbed (s.onCtb f) before :=
  ⟨h.supply, h.calls, h.ready, h.presence, h.portA, h.portB, h.burst, h.episodes, h.driven, h.line, h.link, h.stage,
    h.running, h.phase⟩

/-- The fault table decides a survey's phase through FOREIGN_VOLTAGE_HIGH alone (R165). -/
theorem Undisturbed.onFlt {f : Flt → Flt} (h : Undisturbed s before)
    (hf : (f s.flt).isActive { code := .foreignVoltageHigh, source := .line } =
      s.flt.isActive { code := .foreignVoltageHigh, source := .line }) : Undisturbed (s.onFlt f) before := by
  refine ⟨h.supply, h.calls, h.ready, h.presence, h.portA, h.portB, h.burst, h.episodes, h.driven, h.line, h.link, h.stage,
    h.running, fun x => ?_⟩
  have := h.phase x
  simp only [State.phaseReady, State.voltageReady, State.metallicReady, State.faultActive, State.onFlt_lth, State.onFlt_cfl,
    State.onFlt_vsw, State.onFlt_cct, State.onFlt_lle, State.onFlt_flt, hf] at this ⊢
  exact this

theorem Undisturbed.onCct {f : Cct → Cct} (h : Undisturbed s before) (hc : (f s.cct).calls = s.cct.calls)
    (hd : (f s.cct).deferred = s.cct.deferred) : Undisturbed (s.onCct f) before := by
  refine ⟨h.supply, hc.trans h.calls, h.ready, h.presence, h.portA, h.portB, h.burst, h.episodes, h.driven, h.line, h.link,
    h.stage, h.running, fun x => ?_⟩
  have := h.phase x
  simp only [State.phaseReady, State.voltageReady, State.metallicReady, State.faultActive, State.onCct_lth, State.onCct_cfl,
    State.onCct_vsw, State.onCct_cct, State.onCct_lle, State.onCct_flt, hc, hd] at this ⊢
  exact this

theorem Undisturbed.onVsw {f : Vsw → Vsw} (h : Undisturbed s before) (ha : (f s.vsw).portA.state = s.vsw.portA.state)
    (hb : (f s.vsw).portB.state = s.vsw.portB.state) (hi : (f s.vsw).inBurst = s.vsw.inBurst)
    (he : (f s.vsw).episodes = s.vsw.episodes) (hl : (f s.vsw).line = s.vsw.line) : Undisturbed (s.onVsw f) before := by
  refine ⟨h.supply, h.calls, h.ready, h.presence, ha.trans h.portA, hb.trans h.portB, hi.trans h.burst, he.trans h.episodes,
    h.driven, hl.trans h.line, h.link, h.stage, h.running, fun x => ?_⟩
  have := h.phase x
  simp only [State.phaseReady, State.voltageReady, State.metallicReady, State.faultActive, State.onVsw_lth, State.onVsw_cfl,
    State.onVsw_vsw, State.onVsw_cct, State.onVsw_lle, State.onVsw_flt, hl] at this ⊢
  exact this

/-- A port that stays in its state. -/
theorem Undisturbed.onPort {p : Port} {f : PortRec → PortRec} (h : Undisturbed s before)
    (hf : (f (s.port p)).state = (s.port p).state) : Undisturbed (s.onPort p f) before := by
  cases p
  · exact Undisturbed.onVsw (f := fun v => { v with portA := f v.portA }) h hf rfl rfl rfl rfl
  · exact Undisturbed.onVsw (f := fun v => { v with portB := f v.portB }) h rfl hf rfl rfl rfl

theorem Undisturbed.onLth {f : Lth → Lth} (h : Undisturbed s before) (h1 : (f s.lth).stage = s.lth.stage)
    (h2 : (f s.lth).running = s.lth.running) (h3 : s.lth.holdOff = false → (f s.lth).holdOff = false) :
    Undisturbed (s.onLth f) before := by
  refine ⟨h.supply, h.calls, h.ready, h.presence, h.portA, h.portB, h.burst, h.episodes, h.driven, h.line, h.link,
    h1.trans h.stage, h2.trans h.running, fun x => ?_⟩
  have := h.phase x
  simp only [State.phaseReady, State.onLth_lth, h1, h2] at this ⊢
  have hv : s.voltageReady = true → (s.onLth f).voltageReady = true := by
    simp only [State.voltageReady, State.onLth_cfl, State.onLth_vsw, State.onLth_cct, State.onLth_lth, Bool.and_eq_true,
      Bool.not_eq_true']
    exact fun y => ⟨y.1, h3 y.2⟩
  split at this
  · exact hv this
  · simp only [State.metallicReady, Bool.and_eq_true] at this ⊢
    exact ⟨⟨⟨hv this.1.1.1, this.1.1.2⟩, this.1.2⟩, this.2⟩
  · cases this

/-- A change of the link that nothing waits for. -/
theorem Undisturbed.onLle {f : Lle → Lle} (h : Undisturbed s before) (hl : (f s.lle).link = s.lle.link)
    (hs : (s.onLle f).linkStill s = true) : Undisturbed (s.onLle f) before := by
  refine ⟨h.supply, h.calls, h.ready, h.presence, h.portA, h.portB, h.burst, h.episodes, h.driven, h.line, ?_, h.stage,
    h.running, fun x => ?_⟩
  · have := h.link
    simp only [State.linkStill, Bool.and_eq_true, decide_eq_true_eq] at this hs ⊢
    simp_all
  · have := h.phase x
    simp only [State.phaseReady, State.voltageReady, State.metallicReady, State.faultActive, State.onLle_lth, State.onLle_cfl,
      State.onLle_vsw, State.onLle_cct, State.onLle_lle, State.onLle_flt, hl] at this ⊢
    exact this

theorem Undisturbed.onSync {f : Showtime → Showtime} (h : Undisturbed s before) (hs : (s.onSync f).linkStill s = true) :
    Undisturbed (s.onSync f) before :=
  Undisturbed.onLle (f := fun l => { l with sync := f l.sync }) h rfl hs

theorem Undisturbed.reach (t : Nat) (h : Undisturbed s before) : Undisturbed (s.reach t) before := by
  have r := reach_undisturbed t s
  refine ⟨r.supply.trans h.supply, r.calls.trans h.calls, r.ready.trans h.ready, r.presence.trans h.presence,
    r.portA.trans h.portA, r.portB.trans h.portB, r.burst.trans h.burst, r.episodes.trans h.episodes,
    r.driven.trans h.driven, r.line.trans h.line, ?_, r.stage.trans h.stage, r.running.trans h.running,
    fun x => r.phase (h.phase x)⟩
  have a := r.link
  have b := h.link
  simp only [State.linkStill, Bool.and_eq_true, decide_eq_true_eq] at a b ⊢
  simp_all

end calculus

/-- A command that disturbs nothing ends in the state its effect gives. -/
theorem finish_undisturbed {s before : State} (h : Undisturbed s before) : finish before s = .next s := by
  unfold finish; rw [settle_undisturbed h]

/-! ### When only the link, the rail or the start of the part has moved -/

/-- All that settling looks at outside the link and the configuration is as the command found it, and no survey waits.
-/
structure Aside (s before : State) : Prop where
  supply : s.sup.supply = before.sup.supply
  calls : s.cct.calls = before.cct.calls
  presence : s.ybi.presence = before.ybi.presence
  portA : s.vsw.portA.state = before.vsw.portA.state
  portB : s.vsw.portB.state = before.vsw.portB.state
  burst : s.vsw.inBurst = before.vsw.inBurst
  episodes : s.vsw.episodes = before.vsw.episodes
  driven : s.sup.converter.burst = before.sup.converter.burst
  line : s.vsw.line = before.vsw.line
  voltage : s.lth.stage ≠ .waitVoltage
  metallic : s.lth.stage ≠ .waitMetallic

theorem driveRail_lle (s : State) : s.driveRail.lle = s.lle := rfl
theorem driveRail_lth (s : State) : s.driveRail.lth = s.lth := rfl

theorem driveRail_twice (s : State) : s.driveRail.driveRail = s.driveRail := by
  have ht : s.driveRail.targetOfRail = s.targetOfRail := rfl
  unfold State.driveRail at ht ⊢
  simp only [State.onSup, ht] at ht ⊢
  split <;> simp_all

/-- Outside SHOWTIME, with the catch-up timer stopped, a change of the link drives the rail and nothing else. -/
theorem settleLink_idle {s : State} (before : State) (hl : s.lle.link ≠ .showtime) (hc : s.lle.sync.catchUpTimer = none) :
    s.settleLink before = if s.linkStill before then s else s.driveRail := by
  unfold State.settleLink
  split
  · rfl
  · have h1 : s.driveRail.controlPower = s.driveRail := by
      unfold State.controlPower; rw [driveRail_lle, if_neg hl]
    have h2 : s.driveRail.pumpOverhead = s.driveRail := by
      unfold State.pumpOverhead; rw [driveRail_lle, if_neg (fun h => hl h.1)]
    rw [h1, h2, driveRail_twice]
    unfold State.catchUp
    rw [driveRail_lle, if_neg (fun h => hl h.1), hc]; rfl

theorem settle_aside {s before : State} (h : Aside s before) (hb : s.servePortB = s ∨ s.cfl.state = before.cfl.state)
    (hl : s.lle.link ≠ .showtime) (hc : s.lle.sync.catchUpTimer = none) :
    s.settle before = if s.linkStill before then s else s.driveRail := by
  have h1 : s.settlePortB before = s := by
    rcases hb with hb | hb
    · unfold State.settlePortB; split
      · rfl
      · exact hb
    · exact settlePortB_same h.supply h.calls hb
  unfold State.settle
  simp only [h1, settleRecall_same h.calls h.presence h.portA h.portB,
    settleRinging_same h.calls h.supply h.portA h.portB (by rw [h.presence]) h.burst h.episodes,
    settlePair_same h.calls h.driven, settleGuard_same h.line (fun a => absurd a hl), settleLink_idle before hl hc]
  split
  · exact settleWait_notWaiting h.voltage h.metallic
  · exact settleWait_notWaiting h.voltage h.metallic

theorem finish_aside {s before : State} (h : Aside s before) (hb : s.servePortB = s ∨ s.cfl.state = before.cfl.state)
    (hl : s.lle.link ≠ .showtime) (hc : s.lle.sync.catchUpTimer = none) :
    finish before s = .next (if s.linkStill before then s else s.driveRail) := by
  unfold finish; rw [settle_aside h hb hl hc]

/-- When only the survey has moved, the wait timer is all that follows. -/
structure Still (s before : State) : Prop where
  supply : s.sup.supply = before.sup.supply
  calls : s.cct.calls = before.cct.calls
  ready : s.cfl.state = before.cfl.state
  presence : s.ybi.presence = before.ybi.presence
  portA : s.vsw.portA.state = before.vsw.portA.state
  portB : s.vsw.portB.state = before.vsw.portB.state
  burst : s.vsw.inBurst = before.vsw.inBurst
  episodes : s.vsw.episodes = before.vsw.episodes
  driven : s.sup.converter.burst = before.sup.converter.burst
  line : s.vsw.line = before.vsw.line
  link : s.linkStill before = true

theorem settle_still {s before : State} (h : Still s before) : s.settle before = s.settleWait before := by
  have hl : s.lle.link = before.lle.link := by
    have := h.link
    simp only [State.linkStill, Bool.and_eq_true, decide_eq_true_eq] at this
    tauto
  unfold State.settle
  simp only [settlePortB_same h.supply h.calls h.ready, settleRecall_same h.calls h.presence h.portA h.portB,
    settleRinging_same h.calls h.supply h.portA h.portB (by rw [h.presence]) h.burst h.episodes,
    settlePair_same h.calls h.driven, settleGuard_same h.line (fun a => hl ▸ a), settleLink_same h.link]

/-- What a change of the call table alone leads to while nothing rings: the pair follows it (R132). -/
theorem settle_calls {s before : State} (hx : s.sup.supply = before.sup.supply)
    (hpa : s.vsw.portA.state = before.vsw.portA.state) (hpb : s.vsw.portB.state = before.vsw.portB.state) (hb : s.servePortB = s) (hh : ∀ c ∈ s.cct.calls, c.state = .held → c.rung = none)
    (he : s.vsw.episodes = []) (hc : s.cct.episodes = []) (hd : s.sup.converter.burst = before.sup.converter.burst)
    (hl : s.lle.link ≠ .showtime) (hk : s.linkStill before = true) (hv : s.lth.stage ≠ .waitVoltage)
    (hm : s.lth.stage ≠ .waitMetallic) (hn : s.cct.calls ≠ before.cct.calls) :
    s.settle before = s.onVsw fun v => { v with pairSpeech := s.cct.pairCall } := by
  have h1 : s.settlePortB before = s := by
    unfold State.settlePortB; split
    · rfl
    · exact hb
  have h2 : s.settleRecall before = s := by
    unfold State.settleRecall
    split
    · rfl
    · have : ∀ (l : List CallRec), (∀ c ∈ l, c.rung = none) → l.foldl (fun s c =>
          match c.rung with
          | some t => if s.busy (some c.id) t || s.absent t then s.recallWaits c.id else s
          | none => s) s = s := by
        intro l; induction l with
        | nil => intro _; rfl
        | cons c l ih =>
          intro h
          simp only [List.foldl_cons, h c (by simp)]
          exact ih fun x hx => h x (by simp [hx])
      apply this
      intro c hx
      rw [List.mem_filter] at hx
      exact hh c hx.1 (by simpa using hx.2)
  have hs : s.syncEpisodes = (s, []) := by
    simp only [State.syncEpisodes, hc, he, List.filter_nil, List.map_nil, List.foldl_nil, List.append_nil]
    have : (s.onVsw fun v => { v with episodes := v.episodes.filter (fun e => [].contains (e.callId, e.kind)) }) = s := by
      unfold State.onVsw; simp only [he, List.filter_nil]; rw [← he]
    congr 1
  have h3 : s.settleRinging before = s := by
    unfold State.settleRinging
    simp [hn, hs, State.planDue, he, hx, hpa, hpb]
  have h4 : s.settlePair before = s.onVsw fun v => { v with pairSpeech := s.cct.pairCall } := by
    unfold State.settlePair
    rw [if_neg hn]
    exact if_pos hd
  unfold State.settle
  simp only [h1, h2, h3, h4]
  have h5 : State.settleGuard (s.onVsw fun v => { v with pairSpeech := s.cct.pairCall }) before =
      s.onVsw fun v => { v with pairSpeech := s.cct.pairCall } := if_neg (fun h => hl h.1)
  have h6 : State.settleLink (s.onVsw fun v => { v with pairSpeech := s.cct.pairCall }) before =
      s.onVsw fun v => { v with pairSpeech := s.cct.pairCall } := if_pos hk
  rw [h5, h6]
  exact settleWait_notWaiting hv hm

/-! ### The payload port at a departure, and the second of two port answers -/

@[simp] theorem Plp.cutShort_ready (p : Plp) : p.cutShort.ready = false := rfl
@[simp] theorem Plp.cutShort_queue (p : Plp) : p.cutShort.queue = [] := rfl
@[simp] theorem Plp.cutShort_departures (p : Plp) : p.cutShort.departures = p.departures + 1 := rfl

/-- Marking the other port's answer touches that mark alone. -/
theorem State.markCoAnswer_eq (p : Port) (id : Nat) (s : State) :
    s.markCoAnswer p id = s.onVsw fun v => { v with coAnswer := (s.markCoAnswer p id).vsw.coAnswer } := rfl

end Sys2Proof.Machine
end

