-- ==== Sys2Proof/Laws/Requests.lean ====
section
/-! SUPPORT. What the operations that a request goes through do in the plain case: a frame of a station that awaits
nothing is taken in, a queue with room takes a frame, an event that wraps no counter is counted; and the frames that
stood on the pair are taken in one after the other. -/

set_option Elab.async false

namespace Sys2Proof.Machine

open Sys2Proof

variable {s : State} {d : Delivered} {rest : List Delivered}

theorem withdraw_none {n : Nat} {a b : Bool} (h : s.expectation n = none) : s.withdraw n a b = s := by
  simp [State.withdraw, h]

theorem dropDeferred_none {n : Nat} (h : ∀ c ∈ s.cct.deferred, c.endpoint ≠ .station n) : s.dropDeferred n = s := by
  have : s.cct.deferred.filter (fun x => !decide (x.endpoint = .station n)) = s.cct.deferred := by
    rw [List.filter_eq_self]; intro c hc; simp [h c hc]
  unfold State.dropDeferred State.onCct
  beta_reduce
  rw [this]

/-- Taking in a frame of a station that awaits nothing and claims nothing changes nothing (R137, R140). -/
theorem takeFrame_unclaimed {n : Nat} (h : s.unclaimed n = true) : s.takeFrame n = s := by
  simp only [State.unclaimed, Bool.and_eq_true, Option.isNone_iff_eq_none, List.all_eq_true, Bool.not_eq_true',
    decide_eq_false_iff_not] at h
  unfold State.takeFrame
  rw [withdraw_none h.1, dropDeferred_none h.2]

/-- A command that finds its request at the head of the buffer serves it on the state with the request taken in. -/
theorem serve_heads {pick : Delivered → Bool} {f : Delivered → State → State} (h : s.heads d rest) (hp : pick d = true) :
    s.serve pick f = f d (s.taken rest) := by
  obtain ⟨hb, hu⟩ := h
  have hpop : s.popRequest = s.taken rest := by
    simp [State.popRequest, State.taken, State.onYbi, hb]
  have : (s.taken rest).unclaimed d.src = true := hu
  simp only [State.serve, State.requestFor, hb, hp, if_true, hpop, takeFrame_unclaimed this]

theorem handRoutine_room {f : TxFrame} (h : s.routineRoom) (hk : f.kind ≠ .presence) :
    s.handRoutine f = s.onYbi fun y => { y with routine := y.routine ++ [f] } := by
  simp [State.handRoutine, h.1, hk, h.2]

theorem handCall_room {f : TxFrame} (h : s.callRoom) :
    s.handCall f = s.onYbi fun y => { y with call := y.call ++ [f] } := by
  simp [State.handCall, h.1, h.2]

theorem report_room {dest : Nat} {body : List Byte} (h : s.routineRoom) :
    (s.taken rest).report dest body = s.routined rest (plainFrame dest .report body) := by
  unfold State.report
  rw [handRoutine_room (s := s.taken rest) h (by simp [plainFrame])]; rfl

theorem done_room {dest : Nat} {k : Kind} (h : s.routineRoom) :
    (s.taken rest).done dest k = s.routined rest (doneFrame dest k) := by
  unfold State.done
  rw [handRoutine_room (s := s.taken rest) h (by simp [doneFrame, plainFrame])]; rfl

theorem refuse_room {dest : Nat} {k : Kind} {r : RefuseReason} {tag : Nat} (h : s.callRoom) :
    (s.taken rest).refuse dest k r tag = s.called rest (refuseFrame dest k r tag) := by
  unfold State.refuse
  rw [handCall_room (s := s.taken rest) h]; rfl

/-- A stream that finds room puts its first frame in the queue and keeps the others (R11). -/
theorem startStream_room {f : TxFrame} {fs : List TxFrame} (h : s.routineRoom) :
    s.startStream (f :: fs) = s.onYbi fun y =>
      { y with
        routine := y.routine ++ [{ f with streamed := true }]
        stream := some { rest := fs.map (fun f => { f with streamed := true }), inQueue := true } } := by
  simp [State.startStream, h.1, State.pumpStream, State.onYbi, h.2]

/-- An event that wraps no counter is counted, and nothing else comes of it (R193). -/
theorem signal_plain {e : Event} (h : s.ctb.wrapping e.code = []) :
    s.signal e = s.onCtb fun b => { b with counters := b.counters.map (Counter.count e.code) } := by
  simp [State.signal, State.signalFuel, h]

theorem undisturbed_routined {f : TxFrame} : Undisturbed (s.routined rest f) s :=
  (Undisturbed.refl s).onYbi rfl

theorem undisturbed_called {f : TxFrame} : Undisturbed (s.called rest f) s :=
  (Undisturbed.refl s).onYbi rfl

theorem undisturbed_taken : Undisturbed (s.taken rest) s :=
  (Undisturbed.refl s).onYbi rfl

/-- FRAME_RECEIVED takes in the frames it holds one after the other, and does nothing else. -/
theorem execFrameReceived_eq (low : Nat) (wire : List WireRun) (s : State) :
    ∃ frames : List (List Byte × Bool), execFrameReceived low wire s = .next (frames.foldl State.hear s) := by
  unfold execFrameReceived
  split
  · exact ⟨[], finish_undisturbed (Undisturbed.refl s)⟩
  · exact ⟨_, rfl⟩
  · exact ⟨_, rfl⟩

/-- What every frame taken in keeps, FRAME_RECEIVED keeps. -/
theorem execFrameReceived_keeps {P : State → Prop} {low : Nat} {wire : List WireRun} {s t : State}
    (hear : ∀ (s : State) (f : List Byte × Bool), P s → P (s.hear f)) (hs : P s)
    (h : execFrameReceived low wire s = .next t) : P t := by
  obtain ⟨frames, e⟩ := execFrameReceived_eq low wire s
  obtain rfl : frames.foldl State.hear s = t := by simpa [e] using h
  clear e h
  induction frames generalizing s with
  | nil => exact hs
  | cons f l ih => exact ih (hear s f hs)

end Sys2Proof.Machine
end

