-- ==== Sys2Proof/Laws/Ringing.lean ====
section
/-! SUPPORT. The ring plan while nothing rings (R126): it is empty, it makes RING_OVERLOAD inactive, and it asks the
converter for no load; and this is all that follows a change of a port's state alone. -/

set_option Elab.async false

namespace Sys2Proof.Machine

open Sys2Proof

variable {s before : State}

/-! ### Making an entry of the ROUTINE class inactive -/

@[simp] theorem resummarise_entries (now : Nat) (f : Flt) : (f.resummarise now).entries = f.entries := by
  unfold Flt.resummarise Flt.setLamp
  split
  · rfl
  · split <;> rfl

/-- A making-inactive touches no other entry. -/
theorem madeInactive_isActive {k j : FaultKey} (h : j ≠ k) (now up : Nat) (f : Flt) :
    ((f.madeInactive k now up).1).isActive j = f.isActive j := by
  unfold Flt.madeInactive
  split
  · simp only [Flt.isActive, resummarise_entries, Flt.callForNotice, Flt.update, List.any_map]
    congr 1
    funext e
    by_cases he : e.key = k
    · simp [he, Ne.symm h]
    · simp [he]
  · rfl

/-- A notice of the ROUTINE class touches the ROUTINE queue and the owed-notice list. -/
theorem noticeRoutine_frame (e : FaultEntry) (s : State) :
    ∃ q o, s.noticeRoutine e = { s with ybi := { s.ybi with routine := q }, flt := { s.flt with owed := o } } := by
  unfold State.noticeRoutine
  simp only
  repeat' split
  · exact ⟨s.ybi.routine, s.flt.owed, rfl⟩
  · rename_i q _; exact ⟨q, s.flt.owed, rfl⟩
  · exact ⟨s.ybi.routine ++ [faultFrame e s.flt.summary s.flt.overflow], s.flt.owed, rfl⟩
  · exact ⟨s.ybi.routine, s.flt.owed, rfl⟩
  · exact ⟨s.ybi.routine, s.flt.owed ++ [e.key], rfl⟩

/-- RING_OVERLOAD made inactive: the ROUTINE queue and the fault table follow, and no other entry. -/
theorem ringOverload_frame (s : State) :
    ∃ q f, (s.makeInactive .ringOverload .pair = { s with ybi := { s.ybi with routine := q }, flt := f }) ∧
      ∀ j : FaultKey, j ≠ { code := .ringOverload, source := .pair } → f.isActive j = s.flt.isActive j := by
  unfold State.makeInactive State.applyFault
  have hk := fun j hj => madeInactive_isActive (k := { code := .ringOverload, source := .pair }) (j := j) hj s.now s.uptime s.flt
  generalize s.flt.madeInactive { code := .ringOverload, source := .pair } s.now s.uptime = r at hk ⊢
  have hr : FaultCode.ringOverload.severity ≠ .out := by decide
  simp only [State.notice, if_neg hr]
  split
  · split
    · exact ⟨s.ybi.routine, r.1, rfl, hk⟩
    · obtain ⟨q, o, h⟩ := noticeRoutine_frame ‹_› (s.onFlt fun _ => r.1)
      exact ⟨q, { r.1 with owed := o }, h, hk⟩
  · exact ⟨s.ybi.routine, r.1, rfl, hk⟩

/-! ### The plan without an episode -/

/-- R38: a demand without loads. -/
theorem Converter.demand_nothing (x : SupplyState) (now : Nat) (c : Converter) :
    c.demand x now [] = c.askedNothing now := by
  unfold Converter.demand Converter.askedNothing
  split <;> rename_i h <;> simp [h, Converter.idleFrom, Config.converterIdleMs]

/-- Nobody is a candidate without an episode (R126). -/
theorem computePlan_silent (h : s.vsw.episodes = []) : s.computePlan = RingPlan.empty := by
  have ht : ∀ e ok, s.targetEpisode e ok = none := by simp [State.targetEpisode, h]
  have hi : ∀ ok, s.incomingEpisode ok = none := by simp [State.incomingEpisode, h]
  simp [State.computePlan, State.candidates, State.namedStations, State.portCandidate, State.stationCandidate, ht, hi,
    fitLoads, RingPlan.empty]

/-- A port that does not ring is not moved by a plan that is empty. -/
theorem followPlan_silent {p : Port} (hp : s.vsw.plan = RingPlan.empty) (h : (s.port p).state ≠ .ringing) :
    s.followPlan p = s := by
  unfold State.followPlan
  split
  · rename_i hr; simp [hp, RingPlan.empty, RingPlan.ringsFor] at hr
  · exact absurd ‹_› h
  · rfl

@[simp] theorem ringOverload_vsw (s : State) : (s.makeInactive .ringOverload .pair).vsw = s.vsw := by
  obtain ⟨q, f, h, -⟩ := ringOverload_frame s
  rw [h]

@[simp] theorem ringOverload_sup (s : State) : (s.makeInactive .ringOverload .pair).sup = s.sup := by
  obtain ⟨q, f, h, -⟩ := ringOverload_frame s
  rw [h]

@[simp] theorem ringOverload_now (s : State) : (s.makeInactive .ringOverload .pair).now = s.now := by
  obtain ⟨q, f, h, -⟩ := ringOverload_frame s
  rw [h]

/-- What a plan without an episode touches. -/
theorem askedSilent_frame (s : State) :
    ∃ q f, s.askedSilent = { s with
      ybi := { s.ybi with routine := q }, flt := f, vsw := { s.vsw with plan := RingPlan.empty }
      sup := { s.sup with converter := s.sup.converter.askedNothing s.now } } := by
  obtain ⟨q, f, h, -⟩ := ringOverload_frame (s.onVsw fun v => { v with plan := RingPlan.empty })
  exact ⟨q, f, by unfold State.askedSilent; rw [h]; rfl⟩

/-- The pair follows an empty demand: a burst that it ends takes the ringing off it. -/
theorem plannedSilent_eq (s : State) :
    s.plannedSilent = if s.askedSilent.sup.converter.burst = s.sup.converter.burst then s.askedSilent
      else s.askedSilent.onVsw fun v => { v with pairRinging := false } := rfl

theorem askedSilent_vsw (s : State) : s.askedSilent.vsw = { s.vsw with plan := RingPlan.empty } :=
  ringOverload_vsw (s.onVsw fun v => { v with plan := RingPlan.empty })

/-- Without an episode a demand names no load (R127). -/
theorem demandRing_silent (h : s.vsw.episodes = []) :
    s.demandRing = s.onSup fun p => { p with converter := s.sup.converter.askedNothing s.now } := by
  unfold State.demandRing
  simp only [h, List.filter_nil, List.map_nil, List.contains_nil, List.filter_false, Converter.demand_nothing]
  rfl

theorem planOnce_silent (began : List Episode) (h : s.vsw.episodes = []) (hp : s.portsSilent) :
    s.planOnce began = s.askedSilent := by
  have hu := ringOverload_vsw (s.onVsw fun v => { v with plan := RingPlan.empty })
  have hj : State.judgePlan s.vsw.plan (s.onVsw fun v => { v with plan := RingPlan.empty }) =
      (s.onVsw fun v => { v with plan := RingPlan.empty }).makeInactive .ringOverload .pair := rfl
  have he := (congrArg Vsw.episodes hu).trans h
  unfold State.planOnce
  simp only [computePlan_silent h, hj]
  rw [followPlan_silent (p := .a) (congrArg Vsw.plan hu) (by unfold State.port; simp only [hu]; exact hp.1),
    followPlan_silent (p := .b) (congrArg Vsw.plan hu) (by unfold State.port; simp only [hu]; exact hp.2), he,
    List.foldl_nil, demandRing_silent he, ringOverload_sup, ringOverload_now]
  rfl

/-- Without an episode, and with no port in RINGING, the plan is computed once. -/
theorem replan_silent (began : List Episode) (h : s.vsw.episodes = []) (hp : s.portsSilent) :
    s.replan began = s.askedSilent := by
  unfold State.replan State.planUntil
  simp only [planOnce_silent began h hp, askedSilent_vsw, and_self, ↓reduceIte]

/-- The converter drives nothing, or what it drove, after an empty demand. -/
theorem askedNothing_burst (now : Nat) (c : Converter) :
    (c.askedNothing now).burst = c.burst ∨ (c.askedNothing now).burst = none := by
  unfold Converter.askedNothing
  split
  · exact .inl rfl
  · exact .inl rfl
  · exact .inr rfl

/-- When a port has gone to another state while nothing rings and nothing else that settling looks at has moved, the
ring plan of R126 is all that follows. -/
theorem settle_portMoved (h2 : s.sup.supply = before.sup.supply) (h3 : s.cct.calls = before.cct.calls)
    (h4 : s.cfl.state = before.cfl.state) (hh : ∀ c ∈ s.cct.calls, c.state ≠ .held) (he : s.vsw.episodes = [])
    (hp : s.portsSilent) (hd : s.sup.converter.burst = before.sup.converter.burst) (hl : s.vsw.line = before.vsw.line)
    (hk : s.linkStill before = true) (hv : s.lth.stage ≠ .waitVoltage) (hm : s.lth.stage ≠ .waitMetallic)
    (hn : s.vsw.portA.state ≠ before.vsw.portA.state ∨ s.vsw.portB.state ≠ before.vsw.portB.state) :
    s.settle before = s.plannedSilent := by
  have hll : s.lle.link = before.lle.link := by
    have := hk
    simp only [State.linkStill, Bool.and_eq_true, decide_eq_true_eq] at this
    tauto
  have hr : s.settleRinging before = s.replan [] := by
    have hdue : s.planDue before s.vsw.episodes = true := by
      simp only [State.planDue, Bool.or_eq_true, decide_eq_true_eq]
      tauto
    simp only [State.settleRinging, if_pos h3, hdue, ↓reduceIte]
  unfold State.settle
  simp only [settlePortB_same h2 h3 h4, settleRecall_noHeld hh, hr, replan_silent [] he hp]
  obtain ⟨q, f, hf⟩ := askedSilent_frame s
  have pair : s.askedSilent.settlePair before = s.plannedSilent := by
    rw [plannedSilent_eq]
    unfold State.settlePair
    have hc : s.askedSilent.cct.calls = before.cct.calls := by rw [hf]; exact h3
    have hq : s.askedSilent.sup.converter = s.sup.converter.askedNothing s.now := by rw [hf]
    simp only [hc, ↓reduceIte, hq, ← hd, Converter.ringsPair]
    split
    · rfl
    · rw [(askedNothing_burst s.now s.sup.converter).resolve_left ‹_›]; rfl
  have frame : s.plannedSilent.linkStill before = true ∧ s.plannedSilent.vsw.line = before.vsw.line ∧
      s.plannedSilent.lle = s.lle ∧ s.plannedSilent.lth = s.lth := by
    rw [plannedSilent_eq, hf]
    split <;> exact ⟨hk, hl, rfl, rfl⟩
  have hg : s.plannedSilent.lle.link = .showtime → before.lle.link = .showtime := fun a => by
    rw [frame.2.2.1] at a; exact hll ▸ a
  rw [← frame.2.2.2] at hv hm
  rw [pair, settleGuard_same frame.2.1 hg, settleLink_same frame.1, settleWait_notWaiting hv hm]

end Sys2Proof.Machine
end

