-- ==== Sys2Proof/Laws/Wire.lean ====
section
/-! SUPPORT. The bytes that stand on the pair back to back are read one after the other, and an idle point parts
frames (R1, R2). -/

set_option Elab.async false

namespace Sys2Proof.Machine

open Sys2Proof

/-- A recessive level before a byte is passed over. -/
theorem readRuns_recessive (n m : Nat) (w : List WireRun) :
    readRuns n ({ dominant := false, micros := m } :: w) = readRuns n w := by
  cases n <;> simp [readRuns, fromLevel]

/-- The runs of a byte, one for each of its 10 bit times. -/
theorem runsOf_byteLevels (b : Byte) : runsOf (byteLevels b) =
    [⟨true, 50⟩, ⟨!b.getLsbD 0, 50⟩, ⟨!b.getLsbD 1, 50⟩, ⟨!b.getLsbD 2, 50⟩, ⟨!b.getLsbD 3, 50⟩, ⟨!b.getLsbD 4, 50⟩,
      ⟨!b.getLsbD 5, 50⟩, ⟨!b.getLsbD 6, 50⟩, ⟨!b.getLsbD 7, 50⟩, ⟨false, 50⟩] := rfl

/-- The bits of a byte, taken with the least significant one first, give the byte. -/
theorem byte_of_bits : ∀ b : Byte,
    byte ((List.range 8).foldl (fun n i => if (!b.getLsbD i) = true then n else n + 2 ^ i) 0) = b := by
  decide +kernel

/-- The byte that the samples of a byte's levels give is that byte. -/
theorem sampleByte_runsOf (b : Byte) (w : List WireRun) : sampleByte (runsOf (byteLevels b) ++ w) = b := by
  refine Eq.trans ?_ (byte_of_bits b)
  simp [sampleByte, runsOf_byteLevels, dominantAt, dropMicros, Config.bitMicros, Config.halfBitMicros, List.range,
    List.range.loop]

/-- Runs one after the other stand the sum of what they stand. -/
@[simp] theorem runsMicros_append (v w : List WireRun) : runsMicros (v ++ w) = runsMicros v + runsMicros w := by
  simp [runsMicros]

/-- A byte stands 10 bit times. -/
@[simp] theorem runsMicros_byteLevels (b : Byte) : runsMicros (runsOf (byteLevels b)) = Config.byteMicros := by
  simp [runsMicros, runsOf_byteLevels, Config.byteMicros]

/-- A byte at the head of the runs is read, and the reading goes on behind it. -/
theorem readRuns_byte (n : Nat) (b : Byte) (w : List WireRun) :
    readRuns (n + 1) (runsOf (byteLevels b) ++ w) =
      { value := b, broken := false, left := Config.byteMicros + runsMicros w } :: readRuns n w := by
  have h : fromLevel true (runsOf (byteLevels b) ++ w) = runsOf (byteLevels b) ++ w := by
    simp [fromLevel, runsOf_byteLevels]
  rw [readRuns, h, sampleByte_runsOf, runsMicros_append, runsMicros_byteLevels]
  simp [runsOf_byteLevels, staysDominant, dropMicros, fromLevel, Config.bitMicros, Config.halfBitMicros,
    readRuns_recessive]

/-- What the receiver takes of bytes sent back to back, before runs that stand some microseconds more. -/
def heardBefore (more : Nat) : List Byte → List HeardByte
  | [] => []
  | b :: l =>
    { value := b, broken := false, left := Config.byteMicros * (l.length + 1) + more } :: heardBefore more l

/-- The levels of bytes stand 10 bit times for each. -/
theorem runsMicros_bytes (l : List Byte) : runsMicros (runsOf (l.flatMap byteLevels)) = Config.byteMicros * l.length := by
  induction l with
  | nil => rfl
  | cons b l ih =>
    have h : runsOf ((b :: l).flatMap byteLevels) = runsOf (byteLevels b) ++ runsOf (l.flatMap byteLevels) := by
      simp [runsOf]
    rw [h, runsMicros_append, runsMicros_byteLevels, ih, List.length_cons, Nat.mul_succ, Nat.add_comm]

/-- Bytes sent back to back are read one after the other, and the reading goes on behind them. -/
theorem readRuns_bytes (n : Nat) (l : List Byte) (w : List WireRun) :
    readRuns (l.length + n) (runsOf (l.flatMap byteLevels) ++ w) = heardBefore (runsMicros w) l ++ readRuns n w := by
  induction l with
  | nil => simp [runsOf, heardBefore]
  | cons b l ih =>
    have h : runsOf ((b :: l).flatMap byteLevels) ++ w = runsOf (byteLevels b) ++ (runsOf (l.flatMap byteLevels) ++ w) := by
      simp [runsOf]
    have e : (b :: l).length + n = l.length + n + 1 := by simp only [List.length_cons]; omega
    rw [h, e, readRuns_byte, ih, runsMicros_append, runsMicros_bytes]
    simp only [heardBefore, List.cons_append, Nat.mul_succ]
    congr 2
    omega

/-- A byte joins the frame of the byte that follows it before an idle point. -/
theorem framesOf_cons_meets {b c : HeardByte} {f rest : List HeardByte} {fs : List (List HeardByte)}
    (h : framesOf rest = (c :: f) :: fs) (m : b.meets c = true) : framesOf (b :: rest) = (b :: c :: f) :: fs := by
  simp [framesOf, h, m]

/-- A byte is a frame of its own when an idle point follows it. -/
theorem framesOf_cons_apart {b c : HeardByte} {f rest : List HeardByte} {fs : List (List HeardByte)}
    (h : framesOf rest = (c :: f) :: fs) (m : b.meets c = false) : framesOf (b :: rest) = [b] :: (c :: f) :: fs := by
  simp [framesOf, h, m]

/-- No idle point stands between two bytes sent back to back. -/
theorem meets_of_heardBefore (more : Nat) (b d : Byte) (l : List Byte) :
    HeardByte.meets { value := b, broken := false, left := Config.byteMicros * ((d :: l).length + 1) + more }
      { value := d, broken := false, left := Config.byteMicros * (l.length + 1) + more } = true := by
  refine decide_eq_true ?_
  simp only [List.length_cons, Config.byteMicros, Config.idleMicros]
  omega

/-- Bytes sent back to back join the frame that follows them before an idle point. -/
theorem framesOf_bytes_meet {more : Nat} {c : HeardByte} {f rest : List HeardByte} {fs : List (List HeardByte)}
    (l : List Byte) (h : framesOf rest = (c :: f) :: fs) (m : more < c.left + Config.idleMicros) :
    framesOf (heardBefore more l ++ rest) = (heardBefore more l ++ c :: f) :: fs := by
  induction l with
  | nil => exact h
  | cons b l ih =>
    cases l with
    | nil => exact framesOf_cons_meets h (by simp [HeardByte.meets]; omega)
    | cons d l => exact framesOf_cons_meets ih (meets_of_heardBefore more b d l)

/-- Bytes sent back to back are a frame when an idle point follows them. -/
theorem framesOf_bytes_apart {more : Nat} {c : HeardByte} {f rest : List HeardByte} {fs : List (List HeardByte)}
    (b : Byte) (l : List Byte) (h : framesOf rest = (c :: f) :: fs) (m : c.left + Config.idleMicros ≤ more) :
    framesOf (heardBefore more (b :: l) ++ rest) = heardBefore more (b :: l) :: (c :: f) :: fs := by
  induction l generalizing b with
  | nil => exact framesOf_cons_apart h (by simp [HeardByte.meets]; omega)
  | cons d l ih =>
    exact framesOf_cons_meets (ih d) (meets_of_heardBefore more b d l)

/-- Bytes sent back to back, with none behind them, are one frame. -/
theorem framesOf_bytes (more : Nat) (b : Byte) (l : List Byte) :
    framesOf (heardBefore more (b :: l)) = [heardBefore more (b :: l)] := by
  induction l generalizing b with
  | nil => rfl
  | cons d l ih =>
    exact framesOf_cons_meets (ih d) (meets_of_heardBefore more b d l)

/-- The frame of bytes sent back to back: those bytes, without a framing error. -/
theorem frameBytes_heardBefore (more : Nat) (l : List Byte) : frameBytes (heardBefore more l) = (l, false) := by
  induction l with
  | nil => rfl
  | cons b l ih => simp_all [frameBytes, heardBefore]

end Sys2Proof.Machine
end

