-- ==== Sys2Proof/Tests/Slice0.lean ====
section
/-! SUPPORT. Small tests: what the manual works out, the checks of WellFormed, and for every statement with hypotheses a
state and operands that meet them (`witness_<Name>`; where a statement has several clauses, those of each clause). -/

set_option maxRecDepth 20000
set_option Elab.async false

namespace Sys2Proof.Tests
open Sys2Proof Sys2Proof.Machine

/-- A PRESENT extension with a handset. -/
def station (n : Nat) : PresenceEntry where
  address := n
  role := .extension
  handset := true
  ringMode := .pair
  units := 1
  present := true
  age := 3
  grant := none
  lineStatus := none

/-- A fault entry that stands since long. -/
def oldFault (k : FaultKey) (active : Bool) : FaultEntry where
  key := k
  active := active
  firstSeen := 10
  lastChange := 20
  occurrences := 2
  reported := true
  notice := 1

/-- The fault table with these entries, and the summary and lamp that follow. -/
def table (l : List FaultEntry) : Flt :=
  { Flt.reset with entries := l, summary := summaryOf l, lamp := lampOf (summaryOf l), notices := 1 }

/-- The part at address 2, READY since long, with stations 5 (the manager), 7 and the line unit 9 about it. -/
def base : State :=
  { State.reset with
    now := 100000
    ybi := { Ybi.reset with
      ownAddress := 2, presence := [station 5, station 7, { station 9 with role := .lineUnit }]
      presenceTimer := some 105000, ageingTimer := some 100900
      call := [heldFrame 7 1 2 3], routine := [doneFrame 7 .query] }
    cfl := { Cfl.reset with state := .ready, rank := 2, record := { ConfigRecord.default with management := [5, 0, 0, 0] } }
    flt := table [oldFault { code := .stationLost, source := .station 11 } true,
      oldFault { code := .configDefaulted, source := .config } false]
    ctb := Ctb.reset.takeEvents [4, 5, 6, 10, 14, 17] }

/-- The same part with the presence table, the queues and the fault table empty. -/
def bare : State :=
  ((base.onYbi fun y => { y with presence := [], call := [], routine := [] }).onFlt fun _ => Flt.reset)

/-- A call with the fields of `CallRec.fresh`. -/
def outsideCall (id : Nat) (st : CallState) (l : List Party) : CallRec := CallRec.fresh id .outside .outgoing st l

/-- The part with one call, in a line state. -/
def withCall (c : CallRec) (x : LineState) (s : State) : State :=
  (s.onCct fun t => { t with calls := [c], nextCallId := 8, nextToken := 4 }).onVsw fun v => { v with line := x }

def inLink (x : LinkState) (s : State) : State := s.onLle fun l => { l with link := x }

/-- In SHOWTIME since 40 s, with 100 of SNR in every tone and the tables that fit. -/
def showing : State :=
  let snr := List.replicate 336 100
  (base.onLle fun l =>
    { l with
      link := .showtime, snr := snr, upInForce := some .normal
      normal := tableBits .normal base.cfl.record 0 0 snr, guard := tableBits .guard base.cfl.record 0 0 snr
      nextNumber := 15, power := .full
      sync := { Showtime.start with
        began := 60000, refreshTimer := some 100200, secondTimer := some 100500, symbolCount := 160000, pointer := 23 } }).onPlp fun p => { p with ready := true }


/-! ### What the manual works out -/

/-- Section 11.1: the nine bytes 31h to 39h give 29B1h. -/
theorem test_crc_of_the_nine_digits :
    crc [0x31, 0x32, 0x33, 0x34, 0x35, 0x36, 0x37, 0x38, 0x39] = 0x29B1#16 := by decide

/-- Section 11.5: the image of the defaults, with the check byte 50h. -/
theorem test_image_of_the_defaults :
    recordImage ConfigRecord.default =
      [0x5C, 24, 8, 0x3A, 0x98, 0x01, 0x00, 12, 1, 2, 16, 3, 0, 1, 1, 0, 0, 1, 1, 1, 2, 0, 0, 0, 0, 4, 5, 6, 10, 14, 17] ++
        List.replicate 32 0 ++ [0x50] := by decide

/-- The memory of the worked example of section 2.1: M 70, M_min 40, D_max 6, D_init 5, bmax 1, cap 2000, R_min 5000, no
detector named, management list 0, 6, 31, 6. -/
def readMemory : List Byte :=
  (recordImage
    { ConfigRecord.default with
      targetMargin := 70, minMargin := 40, dMax := 6, dInit := 5, bmax := 1, rateCap := 2000, rateFloor := 5000
      management := [0, 6, 31, 6] }).set 11 0

/-- Section 2.1, worked example: clamping a record. -/
theorem test_clamped_record :
    clampRecord readMemory =
      { ConfigRecord.default with
        targetMargin := 64, minMargin := 40, dMax := 4, dInit := 4, bmax := 2, rateCap := 2000, rateFloor := 2000
        guardSelection := .both, management := [0, 6, 0, 0] } := by decide

/-- Section 4, worked case at LOAD: the bits of tones 80, 89 and 95 at E = 0, and of tone 80 at E = 8. -/
theorem test_bits_of_the_worked_case :
    [toneBits 12 24 182, toneBits 12 24 131, toneBits 12 24 86, toneBits 12 32 182] = [10, 5, 2, 9] := by decide

/-- The same case: the tone margins there, and the smallest of them. -/
theorem test_margins_of_the_worked_case :
    (toneMargin 182 10, toneMargin 131 5, smallestMargin [182, 131, 0] [10, 5, 0]) = (some 24, some 33, some 24) := by decide

/-- Section 4, smoothing in showtime: tones 80, 85, 88, 91, 93 and 94. -/
theorem test_smoothing_of_the_worked_case :
    [smooth 182 150, smooth 154 120, smooth 138 110, smooth 118 116, smooth 101 80, smooth 93 94] =
      [174, 146, 131, 118, 96, 93] := by decide

/-- Section 4, the shield raise held at the rate floor: the rates of B = 512, and B = 500 at D = 2. -/
theorem test_rates_of_the_worked_case :
    [netRate 512 1, netRate 512 2, netRate 512 3, netRate 512 4, netRate 500 2] = [1856, 1728, 1600, 1472, 1687] := by
  decide

/-- The same case: D_need 3 asks for SHIELD 2; with B = 500 and D = 2, D_need 4 asks for nothing and D_need 1 for 1. -/
theorem test_shield_of_the_worked_case :
    let r := { ConfigRecord.default with dMax := 4, rateFloor := 1700 }
    let l (b d : Nat) := { Lle.reset with normal := [b], d := d }
    [requestedDepth r (l 512 1) 3, requestedDepth r (l 500 2) 4, requestedDepth r (l 500 2) 1] = [2, 2, 1] := by decide

/-- Section 3, failures to lockout: the backoffs of the first failures. -/
theorem test_backoffs : [backoffMs 1, backoffMs 2, backoffMs 3, backoffMs 4, backoffMs 5, backoffMs 6, backoffMs 11] =
    [2000, 4000, 8000, 16000, 30000, 30000, 30000] := by decide

/-! ### The checks of WellFormed, one ill-formed command for each -/

theorem test_wellFormed_memory : (Instr.configReadDone (some (List.replicate 65 0))).wellFormed = false := by decide
theorem test_wellFormed_edge : (Instr.frameReceived 0 []).wellFormed = false := by decide
theorem test_wellFormed_wire : (Instr.frameReceived 50 [⟨false, 0⟩]).wellFormed = false := by decide
theorem test_wellFormed_station : (Instr.stationAbsent 25).wellFormed = false := by decide
theorem test_wellFormed_grant : (Instr.grantDeadlineExpiry 0).wellFormed = false := by decide
theorem test_wellFormed_pending : (Instr.pendingAnyExpiry 25).wellFormed = false := by decide
theorem test_wellFormed_intercom : (Instr.intercomRingExpiry 0).wellFormed = false := by decide
theorem test_wellFormed_recall : (Instr.holdAgeRecall 256).wellFormed = false := by decide
theorem test_wellFormed_retry : (Instr.recallRetryExpiry 0).wellFormed = false := by decide
theorem test_wellFormed_release : (Instr.holdAgeRelease 0).wellFormed = false := by decide
theorem test_wellFormed_guard : (Instr.clearingGuardExpiry 0).wellFormed = false := by decide
theorem test_wellFormed_cadence : (Instr.cadencePhaseExpiry 256).wellFormed = false := by decide
theorem test_wellFormed_probe : (Instr.probeEnd [1]).wellFormed = false := by decide
theorem test_wellFormed_tables : (Instr.farTablesReceived [] (List.replicate 385 0)).wellFormed = false := by decide
theorem test_wellFormed_agree : (Instr.overheadAgree 0).wellFormed = false := by decide
theorem test_wellFormed_decline : (Instr.overheadDecline 16).wellFormed = false := by decide
theorem test_wellFormed_swap : (Instr.farEndSwap 1 .normal 0 [2]).wellFormed = false := by decide
theorem test_wellFormed_switch : (Instr.farEndSwitch 0 .guard).wellFormed = false := by decide
theorem test_wellFormed_retrain : (Instr.farEndRetrain 16).wellFormed = false := by decide
theorem test_wellFormed_refresh : (Instr.refreshTimerExpiry []).wellFormed = false := by decide
theorem test_wellFormed_catchUp : (Instr.catchUpExpiry []).wellFormed = false := by decide
theorem test_wellFormed_impulse : (Instr.impulseEvent 5 0).wellFormed = false := by decide
theorem test_wellFormed_readings :
    (Instr.itemTimerExpiry
      { acTip := 251, dcTip := 0, acRing := 0, dcRing := 0, feed := 0, loopOhm := 0, tipGround := 0, ringGround := 0,
        tipRing := 0, nanofarad := 0 }).wellFormed = false := by decide

/-! ### The fixed interface -/

/-- No row of the table has bits, so no word spells a command, and placing one leaves the state. -/
theorem test_no_word_spells_a_command : decodeTableWord 8 0 = none ∧ State.reset.withFetchWord 8 0 = State.reset :=
  ⟨rfl, rfl⟩

/-- The command at the front of the queue is taken from it. -/
theorem test_step_takes_the_front :
    step { State.reset with pending := [.yieldEnd, .frameSent] } = .next { State.reset with pending := [.frameSent] } := rfl

/-- R1: a byte is read from its levels; one whose stop bit is dominant has a framing error; a dominant pulse shorter
than half a bit time begins no byte. -/
theorem test_bytes_on_the_pair :
    readWire (runsOf (byteLevels 0xA5)) = [([0xA5], false)] ∧
      readWire (runsOf ((byteLevels 0xA5).take 9 ++ [false, true])) = [([0xA5], true)] ∧
      readWire [{ dominant := true, micros := 20 }, { dominant := false, micros := 500 }] = [] ∧
      readWire (afterEdge 10 ({ dominant := false, micros := 10 } :: runsOf (byteLevels 0xA5))) = [([0xA5], false)] := by
  decide +kernel

/-- R2: two bytes 20 bit times apart are two frames, and a microsecond less makes them one; a short pulse within the 20
bit times is no start bit. What follows an aborted frame after its idle point is a frame of its own. -/
theorem test_idle_point_parts_frames :
    readWire (runsOf (byteLevels 0xA5) ++ ⟨false, 1000⟩ :: runsOf (byteLevels 0x3C)) = [([0xA5], false), ([0x3C], false)] ∧
      readWire (runsOf (byteLevels 0xA5) ++ ⟨false, 999⟩ :: runsOf (byteLevels 0x3C)) = [([0xA5, 0x3C], false)] ∧
      readWire (runsOf (byteLevels 0xA5) ++ ⟨false, 500⟩ :: ⟨true, 20⟩ :: ⟨false, 480⟩ :: runsOf (byteLevels 0x3C)) =
        [([0xA5], false), ([0x3C], false)] ∧
      readAfterAbort (afterEdge 20 (⟨false, 980⟩ :: runsOf (byteLevels 0x3C))) = [([], false), ([0x3C], false)] ∧
      readAfterAbort (afterEdge 20 (⟨false, 900⟩ :: runsOf (byteLevels 0x3C))) = [([0x3C], false)] := by
  decide +kernel

/-- R1: least significant bit first. -/
theorem test_levels_of_a_byte :
    byteLevels 0x01 = [false, true, false, false, false, false, false, false, false, true] := by decide

/-! ### States and operands of the witnesses -/

def p5c : Party := { who := .station 5, mark := .connected }
def p5h : Party := { who := .station 5, mark := .holder }
def pAc : Party := { who := .port .a, mark := .connected }
def pAh : Party := { who := .port .a, mark := .holder }
def p8h : Party := { who := .station 8, mark := .holder }
def stepMid : RailStep := { goal := .mid, ends := 100003 }
def loadA : Load := { who := .port .a, units := 1 }
def load5 : Load := { who := .station 5, units := 1 }
def old7 : PresenceEntry := { station 7 with age := 35, lineStatus := some { linkUp := true, outsideLine := 1 } }
def unit9 : PresenceEntry := { station 9 with role := .lineUnit }
def pend7 : PendingAny := { station := 7, tag := 9, deadline := 100100 }
def gotTake : RxFrame := { dest := 2, src := 7, code := Kind.take.code, body := [4] }
def gotPresence : RxFrame := { dest := 0, src := 12, code := Kind.presence.code, body := [2, 1, 1, 2] }
def dig0 : RepeatDigit := { port := .a, digit := 0 }
def dig4 : RepeatDigit := { port := .a, digit := 4 }
def noRest : ReplyStream := { rest := [], inQueue := true }
def recB : ConfigRecord := { ConfigRecord.default with dInit := 2, management := [5, 9, 0, 0] }
def recC : ConfigRecord :=
  { ConfigRecord.default with management := [24, 3, 0, 1], minMargin := 24, rateCap := 300, rateFloor := 300, ringA := false, startHeld := true, counterEvents := [255, 0, 1, 2, 3, 4] }
def longest : TxFrame :=
  { dest := 0, kind := .presence, body := List.replicate 24 255, fault := none, streamed := false }
def sStep_front : State := { base with pending := [.mainsOkChange false, .frameSent] }
def sLoading : State := { State.reset with ybi := { Ybi.reset with ownAddress := 24 }, now := 40 }
def sListen : State := { bare with cfl := { bare.cfl with state := .listen, listenTimer := some 100500 } }
def sMainsOff : State :=
  (base.onPins fun p => { p with mainsOk := false }).onSup fun p => { p with mainsTimer := some 100100 }
def onBattery : State :=
  { base with sup := { base.sup with mainsOk := false, supply := .battery }, pins := { base.pins with mainsOk := false }, flt := table [oldFault { code := .supplyOnBattery, source := .supply } true] }
def sMainsOn : State :=
  (onBattery.onPins fun p => { p with mainsOk := true }).onSup fun p => { p with mainsTimer := some 100100 }
def sBattLow : State :=
  (onBattery.onPins fun p => { p with battLow := true }).onSup fun p => { p with battTimer := some 104000 }
def onLow : State :=
  { inLink .quiet base with
    sup := { base.sup with mainsOk := false, battLow := true, supply := .batteryLow }
    pins := { base.pins with mainsOk := false, battLow := true }
    flt := table [oldFault { code := .supplyOnBattery, source := .supply } true,
      oldFault { code := .supplyBatteryLow, source := .supply } true] }.onLle fun l =>
    { l with holders := { management := false, supply := true, voltage := false, survey := false } }
def sToLow : State := sMainsOff.onSup fun p => { p with battLow := true }
def sLowToMains : State :=
  (onLow.onPins fun p => { p with mainsOk := true }).onSup fun p => { p with mainsTimer := some 100100 }
def sLowToBattery : State :=
  (onLow.onPins fun p => { p with battLow := false }).onSup fun p => { p with battTimer := some 104000 }
def sLowUnderMains : State :=
  (base.onPins fun p => { p with battLow := true }).onSup fun p => { p with battTimer := some 104000 }
def sRail : State := base.onSup fun p => { p with railTarget := .mid, railStep := some stepMid }
def sConv : State :=
  base.onSup fun p =>
    { p with converter := { state := .settling, held := some [loadA, load5], burst := none, settleTimer := some 100010, idleTimer := none } }
def sConvIdle : State :=
  base.onSup fun p =>
    { p with converter := { state := .on, held := none, burst := none, settleTimer := none, idleTimer := some 130000 } }
def sSlot (cls : UrgencyClass) : State := base.onYbi fun y => y.setQueue cls [grantFrame 5 1 2 3, releaseFrame 7 9]
def sSlot1 : State := sSlot .urgent
def sSlot3 : State := (sSlot .routine).onYbi fun y => { y with yielding := true, slot := 3 }
def sSlot4 : State := (sSlot .urgent).onYbi fun y => { y with yielding := true, slot := 1 }
def sYield : State := base.onYbi fun y => { y with yielding := true, slot := 3, bus := .sent }
def sSending (cls : UrgencyClass) (n : Nat) : State :=
  (base.onYbi fun y => y.setQueue cls [grantFrame 5 1 2 3, releaseFrame 7 9]).onYbi fun y =>
    { y with bus := .sending cls, driving := [false, true], slot := 4, collisions := n }
def sSend1 : State := sSending .call 1
def sSend3 : State := sSending .routine 2
def sTimers : State :=
  base.onYbi fun y => { y with backlogTimer := some 101000, presenceTimer := some 101000, ageingTimer := some 101000 }
def sBt1 : State := { sTimers with flt := table [oldFault { code := .busBacklog, source := .bus } true] }
def sAbsent : State :=
  (({ base with cct := { base.cct with pendingAny := [{ station := 7, tag := 3, deadline := 100100 }] } } : State).onYbi fun y => { y with presence := [station 5, old7] }).onCtb
    fun b => { b with counters := b.counters.map fun c => { c with delegate := some 7 } }
/-- Bytes sent back to back, as they stand on the pair. -/
def onWire (l : List Byte) : List WireRun := runsOf (l.flatMap byteLevels)
def sReceiving : State := base.onYbi fun y => { y with bus := .receiving }
def rest : List Delivered := [{ dest := 2, src := 7, message := .query .link }]
def dl (n : Nat) (m : Message) : Delivered := { dest := 2, src := n, message := m }
def req (n : Nat) (m : Message) (s : State) : State := s.onYbi fun y => { y with rxBuffer := dl n m :: rest }
def c5 (st : CallState) : CallRec := outsideCall 6 st [p5c]
def sOnHook : State := req 5 (.hook 1) (withCall (c5 .active) .seized base)
def sRel : State := req 5 (.release 6) (withCall (c5 .active) .seized base)
def k4 (r : Option Endpoint) : Hold :=
  { token := 3, retriever := r, age := 1000, ageAt := 90000, recallState := .none, recallTimer := some 390000, retryTimer := none, releaseTimer := some 510000 }
def kE : Hold := { k4 none with releaseTimer := some 100500, recallTimer := none }
def c5h : CallRec := { outsideCall 6 .held [p5h] with hold := some (k4 none), everConnected := true }
def sRelH : State := req 5 (.release 6) (withCall c5h .seized base)
def sFlash : State := req 5 (.hook 2) (withCall (c5 .active) .seized base)
def sHold : State := req 5 (.hold 6) (withCall (c5 .active) .seized base)
def sClaim : State := req 5 (.claim 9 .outside 0) base
def sClaimAny : State := req 5 (.claim 255 .outsideAny 0) { base with cfl := { base.cfl with rank := 1 } }
def lineAt (x : LineState) (s : State) : State := s.onVsw fun v => { v with line := x }
def sOc3 : State := lineAt .out sClaim
def sOc4 : State := lineAt .parallel sClaim
def svV : Survey :=
  { originator := some 7, items := [.lineVoltage, .resistance], allowDrop := false, merged := [], ended := [] }
def sOc5 : State :=
  (lineAt .test sClaim).onLth fun l => { l with stage := .restoring, running := some svV, restoreTimer := some 100150 }
def sOc5i : State :=
  (lineAt .test sClaim).onLth fun l =>
    { l with stage := .item .resistance, running := some svV, itemTimer := some 100150, relay := .separate }
def sAny2 : State :=
  req 5 (.claim 1 .outsideAny 0)
    { base with cct := { base.cct with pendingAny := [{ station := 5, tag := 3, deadline := 100100 }, { station := 7, tag := 3, deadline := 100100 }] } }
def cIn : CallRec := CallRec.fresh 6 .outside .incoming .setup []
def sAnswer (a : Nat) : State :=
  req 5 (.claim 9 .answer a)
    ((withCall cIn .ringIn base).onVsw fun v => { v with episodes := [{ callId := 6, kind := .outside, phase := 0, timer := none }], inBurst := true, plan := { loads := [{ load := loadA, callId := 6 }], named := [], skipped := [] } })
def sAn1 : State := sAnswer 0
def sAn2 : State := sAnswer 6
def sIcom : State := req 5 (.claim 9 .intercom 25) base
def cA : CallRec := outsideCall 6 .active [pAc]
def sJoin : State :=
  req 5 (.claim 9 .join 6) ((withCall cA .seized base).onVsw fun v => { v with pairSpeech := some 6 })
def sRetr : State := req 5 (.retrieve 9 6 3) (withCall c5h .seized base)
def xg : GrantExpectation := { tag := 9, callId := 6, deadline := 101000 }
def cT : CallRec := outsideCall 6 .active [{ who := .station 5, mark := .awaitingTake }]
def sTake : State :=
  req 5 (.take 9)
    ((withCall cT .seized base).onYbi fun y => { y with presence := [{ station 5 with grant := some xg }, station 7] })
def d9 (m : Message) : Delivered := { dest := 7, src := 9, message := m }
def pend : List PendingAny := [pend7, { station := 5, tag := 3, deadline := 100100 }]
def sOver (d : Delivered) : State :=
  ({ base with cct := { base.cct with pendingAny := pend } } : State).onYbi fun y => { y with rxBuffer := d :: rest }
def sOv1 : State := sOver (d9 (.grant 9 3))
def d79 : Delivered := { dest := 9, src := 7, message := .take 9 }
def sOv2 : State := sOver d79
def sGd : State :=
  (withCall cT .seized base).onYbi fun y => { y with presence := [{ station 5 with grant := some xg }, station 7] }
def sPa : State := { base with cct := { base.cct with pendingAny := pend } }
def sPa1 : State := lineAt .out sPa
def cI : CallRec :=
  { CallRec.fresh 6 .intercom .outgoing .setup [p5c] with rung := some (.port .a), ringTimer := some 100500, originator := some (.station 5), target := some (.port .a), everConnected := true }
def ringing6 (k : EpisodeKind) (s : State) : State :=
  s.onVsw fun v =>
    { v with
      episodes := [{ callId := 6, kind := k, phase := 0, timer := none }]
      plan := { loads := [{ load := loadA, callId := 6 }], named := [], skipped := [] }
      portA := { v.portA with state := .ringing } }
def sCt1 : State := ringing6 .intercom (withCall cI .idle base)
def epI : Episode := { callId := 6, kind := .intercom, phase := 0, timer := none }
def epO : Episode := { callId := 6, kind := .outside, phase := 0, timer := none }
def c5old : CallRec := { c5h with hold := some kE }
def sCt2 : State := withCall c5old .seized base
def cC : CallRec := { outsideCall 6 .clearing [] with guardTimer := some 100500 }
def sCt3 : State := withCall cC .idle base
def kR : Hold := { k4 none with recallTimer := some 100500 }
def cHa : CallRec := { outsideCall 6 .held [pAh] with hold := some kR, everConnected := true }
def sCt4 : State := withCall cHa .seized base
def cHs : CallRec := { outsideCall 6 .held [p8h] with hold := some kR, everConnected := true }
def sCt5 : State := withCall cHs .seized base
def kRr : Hold := { k4 none with recallTimer := none, retryTimer := some 100500, recallState := .waiting }
def cHar : CallRec := { cHa with hold := some kRr }
def sCt6 : State := withCall cHar .seized base
def sQ1 : State := req 5 (.query .link) base
def sQ2 : State := req 5 (.query (.loopRecord 1 1)) base
def sQ2b : State := req 5 (.query (.loopRecord 1 2)) base
def sQ2c : State := req 5 (.query (.loopRecord 6 9)) base
def sQ2d : State := req 5 (.query (.loopRecord 7 0)) base
def sQ3 : State := req 5 (.query (.faultTable 1)) base
def sQ3b : State := req 5 (.query (.faultTable 4)) base
def sQ4 : State := req 5 (.query (.configuration 3)) base
def sQ4b : State := req 5 (.query (.configuration 4)) base
def sQ (m : Message) : State := req 5 m base
def sQ5 : State := sQ (.query (.faultTable 2))
def sQ6 : State := sQ (.query (.faultTable 3))
def sQ7 : State := sQ (.query (.faultTable 3)) |>.onFlt fun _ => Flt.reset
def sStream (m : Message) : State := (sQ m).onYbi fun y => { y with stream := some noRest }
def sQ8 : State := sStream (.query (.faultTable 2))
def sQ9 : State := sQ (.query .presenceTable)
def sQ11 : State := sStream (.query .presenceTable)
def sQ10 : State := (sQ (.query .presenceTable)).onYbi fun y => { y with presence := [] }
def sTe1 : State := sQ (.test 1 true)
def sTe2 : State := sQ (.test 4 false)
def sLC (n : Nat) (x : LinkState) : State := inLink x (sQ (.linkControl n))
def sLm1 : State := sLC 1 .down
def sLR : State :=
  (sLC 2 .quiet).onLle fun l =>
    { l with holders := { management := true, supply := false, voltage := false, survey := false } }
def sLm3 : State := (sLC 3 .retrainWait).onLle fun l => { l with backoffTimer := some 101000, e := 8 }
def sLm4 : State := sLC 3 .down
def sLm5 : State := (sQ .clearRetry).onLle fun l => { l with retry := 5 }
def sNM (m : Message) : State := req 7 m base
def sNm1 : State := sNM (.linkControl 1)
def sNm2 : State := sNM (.linkControl 2)
def sNm3 : State := sNM (.linkControl 3)
def sNm4 : State := sNM .clearRetry
def sNm5 : State := sNM .clearFaults
def sNm6 : State := sNM (.counterDelegate 3 5)
def sCf : State :=
  (sQ .clearFaults).onFlt fun f =>
    { f with overflow := true, owed := [{ code := .configDefaulted, source := .config }, { code := .stationLost, source := .station 11 }] }
def cnt3 (s : State) : Counter := (s.ctb.counter 3).getD (Counter.reset 0)
def c7 (m : Message) : State :=
  (sQ m).onCtb fun b => { b with counters := b.counters.map fun c => { c with value := 77, wrapped := true } }
def sCn1 : State := c7 (.counterRead 3 false)
def sCn2 : State := c7 (.counterRead 3 true)
def sCn3 : State := c7 (.counterSet 3 (some 9) (some true))
def sCn4 : State := c7 (.counterDelegate 3 7)
def sCn4b : State := c7 (.counterDelegate 3 0)
def sTr2 : State := inLink .handshake base
def sProbe : State := (inLink .probe base).onLle fun l => { l with probeTimer := some 101000 }
def ms : List Int := List.replicate 336 120
def sHs : State := (inLink .handshake base).onLle fun l => { l with handshakeTimer := some 101000, retry := 2 }
def sLoad : State :=
  (inLink .load base).onLle fun l =>
    { l with loadTimer := some 101000, retry := 0, loadE := 8, normal := List.replicate 336 2, guard := List.replicate 336 2, snr := List.replicate 336 99 }
def sTf5 : State := sHs.onLle fun l => { l with retry := 11 }
def upT : List Nat := List.replicate 8 0 ++ List.replicate 40 2
def sWe1 : State :=
  (inLink .retrainWait base).onLle fun l =>
    { l with backoffTimer := some 101000, e := 8, d := 0 , snr := List.replicate 336 99}
def sWe2 : State :=
  { (inLink .lockout base) with flt := table [oldFault { code := .linkRetrainLimit, source := .line } true] }.onLle
    fun l => { l with lockoutTimer := some 1000000, e := 8, d := 0, retry := 12 }
def sWe3 : State :=
  (inLink .lockout base).onLle (fun l => { l with lockoutTimer := some 1000000 }) |>.onLth fun l =>
    { l with stage := .item .resistance, running := some { originator := none, items := [.resistance], allowDrop := false, merged := [], ended := [] } }
def outs (r : OverheadRequest) (a : Nat) : Outstanding :=
  { request := r, number := 7, attempt := a, deadline := 100100 }
def sOut (r : OverheadRequest) (a : Nat) : State := showing.onLle fun l => { l with slot := some (outs r a) }
def sRo1 : State := sOut (.switch .guard) 1
def sRo2 : State := sOut (.power .cutback) 1
def sRo3 : State := sOut (.power .restore) 1
def sRo4 : State := sOut (.shield 2) 1
def sRo5 : State := sOut (.swap 4 (List.replicate 16 3)) 1
def sRo6 : State := (sOut (.swap 4 (List.replicate 16 3)) 2).onSync fun y => { y with swapAbandons := 1 }
def sRo7 : State := { sOut (.power .cutback) 1 with sup := { showing.sup with mainsOk := false, supply := .battery } }
def sRo8 : State := (sOut (.swap 4 (List.replicate 16 3)) 2).onSync fun y => { y with swapAbandons := 2 }
def sRo9 : State := sOut (.switch .normal) 2
def sFe4 : State := showing.onLle fun l => { l with lastFar := some (9, .decline) }
def sPl2 : State := showing.onPlp fun p => { p with queue := List.replicate 15 [1] }
def sPl3 : State := showing.onPlp fun p => { p with ready := false, queue := List.replicate 16 [1] }
def sPl4 : State := showing.onPlp fun p => { p with ready := false, queue := List.replicate 16 [1] }
def sWr2 : State := showing.onSync fun y => { y with guard := .active, debt := 7 }
def sWr3 : State := showing.onSync fun y => { y with catchUpTimer := some 100100, debt := 7, pointer := 4 }
def sGl1 : State :=
  showing.onLle fun l =>
    { l with downInForce := .guard, sync := { l.sync with guard := .exiting, guardTimer := some 100100, debt := 4 } }
def sGl2 : State :=
  showing.onLle fun l =>
    { l with downInForce := .guard, sync := { l.sync with switchRetryTimer := some 100100, debt := 4 } }
def imps : List Impulse :=
  [{ start := 400, length := 3 }, { start := 300, length := 3 }, { start := 200, length := 3 }, { start := 100, length := 3 }]
def lk (n : Nat) : FenceLock := { period := 100, predicted := 500, windowEnd := 505, misses := n }
def sIm2 : State := showing.onSync fun y => { y with impulses := imps, lock := some (lk 1), symbolCount := 505 }
def sIm3 : State :=
  showing.onSync fun y => { y with impulses := imps, lock := some (lk 2), symbolCount := 700, neededDepth := 2 }
def sSe2 : State := showing.onSync fun y => { y with marginTimer := some 130000, marginWatch := .falling }
def sSe3 : State :=
  { showing with flt := table [oldFault { code := .linkLowMargin, source := .line } true] }.onSync fun y =>
    { y with marginTimer := some 130000, marginWatch := .rising }
def sDr1 : State := showing.onSync fun y => { y with uncorrected := 50, severeRun := 9 }
def sDr2 : State := showing.onSync fun y => { y with signalTimer := some 100600, signalAbsent := true }
def onPins (f : Pins → Pins) (s : State) : State := s.onPins f
def sHk1 : State := base.onPins (Pins.setCurrent .a 20)
def sHk1b : State := (base.onPins (Pins.setCurrent .b 18)).onPort .b fun r => { r with noLoadTimer := some 200000 }
def offA : State :=
  base.onPort .a fun r =>
    { r with state := .dialtone, tone := .dial, offHook := true, pauseTimer := some 100100, pulses := 8, window := .first, firstDigitTimer := some 103000, offHookTimer := some 110000 }
def offB : State :=
  base.onPort .b fun r =>
    { r with state := .dialtone, tone := .dial, offHook := true, pauseTimer := some 100100, pulses := 8, window := .first, firstDigitTimer := some 103000, offHookTimer := some 110000 }
def sHk3 : State := offA.onPort .a fun r => { r with breakStart := some 99900 }
def sPt1 : State := offA.onPort .a fun r => { r with pulses := 0 }
def sPt2 : State :=
  offB.onPort .b fun r => { r with state := .collecting, interDigitTimer := some 103000, digits := [2] }
def sPt4 : State := offA.onPort .a fun r => { r with state := .howler, howlerTimer := some 110000 }
def kp : Hold :=
  { token := 3, retriever := none, age := 1000, ageAt := 90000, recallState := .none, recallTimer := some 390000, retryTimer := none, releaseTimer := some 510000 }
def cP (p : Port) : CallRec :=
  { outsideCall 6 .held [{ who := .port p, mark := .holder }] with hold := some kp, everConnected := true }
def sPf1 : State :=
  withCall (cP .a) .seized
    (offA.onPort .a fun r => { r with window := .postFlash, postFlash := true, postFlashTimer := some 100300, pulses := 0 })
def sPf2 : State :=
  withCall (cP .b) .seized
    (offB.onPort .b fun r => { r with window := .postFlash, postFlash := true, postFlashTimer := some 100300, pulses := 0 })
def sPc1 : State := base.onPort .a fun r => { r with noLoadTimer := some 100200 }
def sPc2 : State := base.onPort .b fun r => { r with noLoadCheck := some 100200 }
def sPc4 : State := offA.onPins (Pins.setCurrent .a 18)
def sPc5 : State := offA.onPort .a fun r => { r with lowCurrentTimer := some 101000 }
def sLs3 : State := base.onVsw fun v => { v with offHookBandTimer := some 100050 }
def sLs5 : State := base.onVsw fun v => { v with burstOnTimer := some 100050 }
def sLn1 : State := base.onVsw fun v => { v with offHookBandTimer := some 100100 }
def sLn2 : State := base.onVsw fun v => { v with onHookBandTimer := some 100100, line := .parallel }
def sLn3 : State := base.onVsw fun v => { v with releaseTimer := some 100100, line := .releasing }
def sLn4 : State := base.onVsw fun v => { v with noFeedTimer := some 100100 }
def sLn5 : State :=
  (base.onFlt fun _ => table [oldFault { code := .loopOpen, source := .line } true]).onVsw fun v =>
    { v with feedTimer := some 100100, line := .out }
def sIr1 : State := base.onVsw fun v => { v with burstOnTimer := some 100100 }
def sIr2 : State := base.onVsw fun v => { v with burstOffTimer := some 100100, inBurst := true, line := .ringIn }
def sIr3 : State :=
  (ringing6 .outside (withCall cIn .ringIn base)).onVsw fun v => { v with ringEndTimer := some 100100 }
def sIg1 : State := showing.onVsw fun v => { v with burstOnTimer := some 100100 }
def sIg2 : State :=
  ((ringing6 .outside (withCall cIn .ringIn showing)).onVsw fun v => { v with ringEndTimer := some 100100 }).onSync
    fun y => { y with guard := .active }
def sLg1 : State := showing.onVsw fun v => { v with offHookBandTimer := some 100100 }
def sLg2 : State := sLg1.onSync fun y => { y with guard := .exiting, guardTimer := some 102000 }
def sLg3 : State :=
  (showing.onVsw fun v => { v with onHookBandTimer := some 100100, line := .parallel }).onSync fun y =>
    { y with guard := .active }
def op (n : Nat) (ph : PulsePhase) : Outpulse := { pulsesLeft := n, phase := ph, ends := 100050 }
def sOp (n : Nat) (ph : PulsePhase) (q : List RepeatDigit) : State :=
  base.onVsw fun v => { v with outpulse := some (op n ph), repeatQueue := q, line := .seized }
def q2 : List RepeatDigit := [dig0, dig4]
def sOp1 : State := sOp 3 .opened q2
def sOp3 : State := sOp 3 .make q2
def sOp5 : State := sOp 0 .pause []
def sOp6 : State := sOp 0 .pause q2
def ep (k : EpisodeKind) (n : Nat) : Episode := { callId := 6, kind := k, phase := n, timer := some 100100 }
def sEp (k : EpisodeKind) (n : Nat) (c : Converter) : State :=
  (base.onVsw fun v => { v with episodes := [ep k n], plan := { loads := [{ load := loadA, callId := 6 }, { load := load5, callId := 6 }], named := [], skipped := [] } }).onSup
    fun p => { p with converter := c }
def sCd2 : State := sEp .intercom 1 Converter.reset
def sv (l : List Item) (o : Option Nat) : Survey :=
  { originator := o, items := l, allowDrop := false, merged := [], ended := [] }
def sSv (g : Stage) (r : Survey) : State :=
  (base.onVsw fun v => { v with line := .test }).onLth fun l => { l with stage := g, running := some r }
def sWait (g : Stage) (r : Survey) : State :=
  base.onLth fun l => { l with stage := g, running := some r, waitTimer := some 120000 }
def sSp1 : State := sWait .waitVoltage (sv [.foreignVoltage, .lineVoltage, .resistance] (some 5))
def sSp2 : State := (sWait .waitMetallic (sv [.resistance, .capacitance] (some 5)))
def sSp3 : State := base.onLth fun l => { l with voltageDue := true }
def rd : LoopReadings :=
  { acTip := 1, dcTip := 2, acRing := 3, dcRing := 4, feed := 148, loopOhm := 800, tipGround := 100, ringGround := 100, tipRing := 1000, nanofarad := 700 }
def sIt1 : State :=
  (sSv (.item .lineVoltage) (sv [.lineVoltage] (some 5))).onLth fun l =>
    { l with itemTimer := some 100900, lineVoltageDue := true, relay := .monitor }
def sIt2 : State :=
  (sSv (.item .capacitance) (sv [.capacitance] (some 5))).onLth fun l =>
    { l with itemTimer := some 100900, relay := .separate }
def svE : Survey := { (sv [.lineVoltage] (some 5)) with ended := [(.lineVoltage, .valid)] }
def sSd1 : State :=
  ((sSv .restoring svE).onLth fun l => { l with restoreTimer := some 100200 }).onYbi fun y => { y with routine := [] }
def sSd2 : State := sWait .waitVoltage (sv [.lineVoltage, .resistance] (some 5))
def sSd3 : State :=
  ((sSv (.item .foreignVoltage) (sv [.foreignVoltage, .lineVoltage] (some 5))).onLth fun l => { l with itemTimer := some 100900, relay := .monitor }).onVsw
    fun v => { v with burstOnTimer := some 100100 }
def sSl1 : State := base.onLth fun l => { l with holdOff := true, holdOffTimer := some 300000 }
def sSl2 : State := base.onLth fun l => { l with periodicTimer := some 300000 }
def sSl3 : State := base.onLth fun l => { l with recheckTimer := some 300000 }
def sSl4 : State := base.onFlt fun f => { f with flashTimer := some 100300, lit := true }

/-- A ringing call that station 5 answers by its id. -/
abbrev sAnswer6 : State := sAnswer 6

/-! ### The hypotheses of the statements can be met -/

theorem witness_StepRunsFrontCommand :
    sStep_front.pending = [Instr.mainsOkChange false, Instr.frameSent] := by
  decide +kernel

theorem witness_EmptyQueuePassesAMillisecond :
    base.pending = [] ∧
    base.lle.link ≠ LinkState.showtime ∧
    showing.pending = [] ∧
    showing.lle.link = LinkState.showtime := by
  repeat' apply And.intro
  all_goals decide +kernel

theorem witness_LoadingEnds :
    memoryUsable (recordImage recB) = true ∧
    sLoading.cfl.state = ConfigState.loading ∧
    1 ≤ sLoading.ybi.ownAddress ∧
    sLoading.ybi.ownAddress ≤ 24 ∧
    (clampRecord (recordImage recB)).startHeld = false ∧
    sLoading.linkIdle ∧
    sLoading.sup.railLevel = RailLevel.low ∧
    sLoading.sup.railTarget = RailLevel.low ∧
    sLoading.sup.railStep = none ∧
    usableMemory none = none := by
  repeat' apply And.intro
  all_goals decide +kernel

theorem witness_ReadyBegins :
    sListen.cfl.listenTimer = some 100500 ∧
    sListen.now ≤ 100500 ∧
    sListen.calm ∧
    sListen.linkIdle ∧
    sListen.ybi.listenOnly = false ∧
    sListen.ybi.routine = [] := by
  repeat' apply And.intro
  all_goals decide +kernel

theorem witness_SupplyInputsAndState :
    base.sup.mainsTimer = none ∧
    base.sup.battTimer = none ∧
    sMainsOff.sup.mainsTimer = some 100100 ∧
    sMainsOff.sup.supply = SupplyState.mains ∧
    sMainsOff.pins.mainsOk = false ∧
    sMainsOff.sup.battLow = false ∧
    sMainsOff.flt.entries.length < 16 ∧
    sMainsOff.linkIdle ∧
    sMainsOff.vsw.episodes = [] ∧
    sMainsOn.sup.mainsTimer = some 100100 ∧
    sMainsOn.sup.supply = SupplyState.battery ∧
    sMainsOn.pins.mainsOk = true ∧
    sMainsOn.lle.holders.supply = false ∧
    sMainsOn.linkIdle ∧
    sMainsOn.vsw.episodes = [] ∧
    sBattLow.sup.battTimer = some 104000 ∧
    sBattLow.sup.supply = SupplyState.battery ∧
    sBattLow.sup.mainsOk = false ∧
    sBattLow.pins.battLow = true ∧
    sBattLow.lle.holders.supply = false ∧
    sBattLow.linkIdle ∧
    sBattLow.lle.link ≠ LinkState.lockout ∧
    sBattLow.flt.entries.length < 16 ∧
    sToLow.sup.mainsTimer = some 100100 ∧ sToLow.sup.supply = .mains ∧ sToLow.pins.mainsOk = false ∧
    sToLow.sup.battLow = true ∧ sToLow.lle.holders.supply = false ∧ sToLow.linkIdle ∧ sToLow.lle.link ≠ .lockout ∧
    sToLow.flt.entries.length < 15 ∧
    sLowToMains.sup.mainsTimer = some 100100 ∧ sLowToMains.sup.supply = .batteryLow ∧ sLowToMains.pins.mainsOk = true ∧
    sLowToMains.linkIdle ∧ sLowToMains.lle.link = .quiet ∧
    sLowToMains.lle.holders = { management := false, supply := true, voltage := false, survey := false } ∧
    sLowToMains.vsw.episodes = [] ∧
    sLowToBattery.sup.battTimer = some 104000 ∧ sLowToBattery.sup.supply = .batteryLow ∧
    sLowToBattery.sup.mainsOk = false ∧ sLowToBattery.pins.battLow = false ∧ sLowToBattery.linkIdle ∧
    sLowToBattery.lle.link = .quiet ∧
    sLowToBattery.lle.holders = { management := false, supply := true, voltage := false, survey := false } ∧
    sLowToBattery.vsw.episodes = [] ∧
    sLowUnderMains.sup.battTimer = some 104000 ∧ sLowUnderMains.sup.supply = .mains ∧ sLowUnderMains.sup.mainsOk = true ∧
    sMainsOff.cct.episodes = [] ∧ sMainsOn.cct.episodes = [] ∧ sLowToMains.cct.episodes = [] ∧
    sLowToBattery.cct.episodes = [] := by
  repeat' apply And.intro
  all_goals decide +kernel

theorem witness_RailAndConverterSettle :
    sRail.sup.railStep = some stepMid ∧
    sRail.now ≤ stepMid.ends ∧
    sRail.linkIdle ∧
    sConv.sup.converter.settleTimer = some 100010 ∧
    sConv.now ≤ 100010 ∧
    sConv.sup.converter.held = some [loadA, load5] ∧
    sConv.sup.converter.burst = none ∧
    sConv.sup.supply = SupplyState.mains ∧
    sConvIdle.sup.converter.idleTimer = some 130000 ∧
    sConvIdle.sup.converter.burst = none := by
  repeat' apply And.intro
  all_goals decide +kernel

theorem witness_SlotsAndYield :
    sSlot1.cfl.state = ConfigState.ready ∧
    sSlot1.ybi.bus = BusState.idle ∧
    1 ≤ sSlot1.ybi.ownAddress ∧
    sSlot1.ybi.ownAddress ≤ 24 ∧
    sSlot1.ybi.queue UrgencyClass.urgent = [grantFrame 5 1 2 3, releaseFrame 7 9] ∧
    sSlot1.ybi.yielding = false ∧
    sSlot3.cfl.state = ConfigState.ready ∧
    sSlot3.ybi.bus = BusState.idle ∧
    1 ≤ sSlot3.ybi.ownAddress ∧
    sSlot3.ybi.ownAddress ≤ 24 ∧
    sSlot3.ybi.queue UrgencyClass.routine = [grantFrame 5 1 2 3, releaseFrame 7 9] ∧
    sSlot3.ybi.yielding = true ∧
    sSlot3.ybi.slot < sSlot3.ybi.ownAddress + baseSlot UrgencyClass.routine ∧
    UrgencyClass.routine ≠ UrgencyClass.urgent ∧
    sSlot4.cfl.state = ConfigState.ready ∧
    sSlot4.ybi.bus = BusState.idle ∧
    1 ≤ sSlot4.ybi.ownAddress ∧
    sSlot4.ybi.ownAddress ≤ 24 ∧
    sSlot4.ybi.queue UrgencyClass.urgent = [grantFrame 5 1 2 3, releaseFrame 7 9] ∧
    sSlot4.ybi.yielding = true ∧
    sSlot4.ybi.slot < sSlot4.ybi.ownAddress + baseSlot UrgencyClass.urgent ∧
    UrgencyClass.urgent = UrgencyClass.urgent ∧
    (sYield.ybi.bus = BusState.idle ∨ sYield.ybi.bus = BusState.sent) ∧
    sYield.ybi.yielding = true := by
  repeat' apply And.intro
  all_goals decide +kernel

def lost11 : FaultEntry := oldFault { code := .stationLost, source := .station 11 } true
def lostFrame : TxFrame := faultFrame { lost11 with reported := false } .degraded false
def sSentFault : State :=
  { (base.onYbi fun y => { y with bus := .sending .urgent, urgent := [lostFrame, lineStatusFrame true .idle] }) with
    flt := table [{ lost11 with reported := false }] }
def part (n : Nat) : TxFrame := { plainFrame 5 .report [1, byte n] with streamed := true }
def sStreamed : State :=
  base.onYbi fun y =>
    { y with
      bus := .sending .routine, routine := [part 1, doneFrame 7 .query]
      stream := some { rest := [part 2, part 3], inQueue := true } }
def sStreamEnds : State := sStreamed.onYbi fun y => { y with stream := some noRest }

theorem witness_SendingEnds :
    sSend1.ybi.bus = BusState.sending UrgencyClass.call ∧
    sSend1.ybi.queue UrgencyClass.call = [grantFrame 5 1 2 3, releaseFrame 7 9] ∧
    (grantFrame 5 1 2 3).fault = none ∧
    (UrgencyClass.call = UrgencyClass.routine → sSend1.flt.owed = [] ∧ sSend1.ybi.stream = none) ∧
    sSend1.ybi.collisions < 2 ∧
    sSend3.ybi.bus = BusState.sending UrgencyClass.routine ∧
    2 ≤ sSend3.ybi.collisions ∧
    sSend3.flt.entries.length < 16 ∧
    sSentFault.ybi.bus = .sending .urgent ∧ sSentFault.ybi.queue .urgent = [lostFrame, lineStatusFrame true .idle] ∧
    lostFrame.fault = some { key := lost11.key, notice := 1 } ∧ sSentFault.ybi.collisions < 2 ∧
    sSentFault.flt.entries = [{ lost11 with reported := false }] ∧
    sStreamed.ybi.bus = .sending .routine ∧ sStreamed.ybi.routine = [part 1, doneFrame 7 .query] ∧
    (part 1).fault = none ∧ (part 1).streamed = true ∧ sStreamed.flt.owed = [] ∧
    sStreamed.ybi.stream = some { rest := [part 2, part 3], inQueue := true } ∧ [doneFrame 7 .query].length < 8 ∧
    sStreamed.ybi.collisions < 2 ∧ sStreamEnds.ybi.bus = .sending .routine ∧ sStreamEnds.ybi.stream = some noRest ∧
    sStreamEnds.ybi.routine = [part 1, doneFrame 7 .query] := by
  repeat' apply And.intro
  all_goals decide +kernel

/-- Station 7 is the one party of the OUTSIDE call, and has been silent for 35 s. -/
def sGone : State :=
  (withCall (outsideCall 6 .active [{ who := .station 7, mark := .connected }]) .seized base).onYbi fun y =>
    { y with presence := [station 5, old7] }
def sGoneGrant : State :=
  (withCall (outsideCall 6 .active [{ who := .station 7, mark := .awaitingTake }]) .seized base).onYbi fun y =>
    { y with presence := [station 5, { old7 with grant := some xg }] }

theorem witness_BusTimersAndAbsence :
    sBt1.ybi.backlogTimer = some 101000 ∧
    sTimers.ybi.presenceTimer = some 101000 ∧
    sTimers.routineRoom ∧
    (∀ f ∈ sTimers.ybi.routine, f.kind ≠ Kind.presence) ∧
    sTimers.ybi.ageingTimer = some 101000 ∧
    sTimers.noneHeld ∧
    State.entryOf 7 sAbsent = some old7 ∧
    old7.present = true ∧
    35 ≤ old7.age ∧
    old7.grant = none ∧
    sAbsent.cct.calls = [] ∧
    sAbsent.cct.deferred = [] ∧
    sAbsent.vsw.episodes = [] ∧
    sAbsent.flt.entries.length < 16 ∧
    sAbsent.lth.stage = Stage.none ∧
    sGone.calm ∧ State.entryOf 7 sGone = some old7 ∧ sGone.cct.calls = [outsideCall 6 .active [{ who := .station 7, mark := .connected }]] ∧
    sGone.flt.entries.length < 16 ∧ (outsideCall 6 .active []).kind = .outside ∧
    (outsideCall 6 .active []).originator = none ∧ (outsideCall 6 .active []).saved = none ∧
    sGoneGrant.calm ∧ State.entryOf 7 sGoneGrant = some { old7 with grant := some xg } ∧
    sGoneGrant.cct.calls = [outsideCall 6 .active [{ who := .station 7, mark := .awaitingTake }]] ∧
    sGoneGrant.flt.entries.length < 16 ∧ xg.callId = 6 := by
  repeat' apply And.intro
  all_goals decide +kernel

theorem witness_FramesAreTakenIn :
    sReceiving.ybi.bus = BusState.receiving ∧
    sReceiving.cfl.state = ConfigState.ready ∧
    judgeFrame sReceiving.ybi.ownAddress (wireBytes 7 (plainFrame 2 Kind.take [4])) false = some gotTake ∧
    kindOf gotTake.code = some Kind.take ∧
    Kind.take.isRequest = true ∧
    State.forPart gotTake.dest sReceiving = true ∧
    readMessage Kind.take gotTake.body = some (Message.take 4) ∧
    sReceiving.ybi.rxBuffer.length < 4 ∧
    State.entryOf gotTake.src sReceiving = some (station 7) ∧
    (∀ x ∈ sReceiving.ybi.presence, x.address = gotTake.src → x.present = true) ∧
    sReceiving.noneHeld ∧
    judgeFrame sReceiving.ybi.ownAddress [1, 2, 3] false = none ∧
    Ctb.wrapping 14 sReceiving.ctb = [] ∧
    judgeFrame sReceiving.ybi.ownAddress (wireBytes 12 (plainFrame 0 Kind.presence [2, 1, 1, 2])) false = some
      gotPresence ∧
    kindOf gotPresence.code = some Kind.presence ∧
    readPresence gotPresence.body = some (Role.extension, true, RingMode.pair, 2) ∧
    State.entryOf gotPresence.src sReceiving = none ∧
    sReceiving.ybi.presence.length < 23 ∧
    sReceiving.vsw.episodes = [] ∧
    7 ≠ gotPresence.src ∧
    readWire (afterEdge 50 (onWire (wireBytes 7 (plainFrame 2 .take [4]))).tail) =
      [(wireBytes 7 (plainFrame 2 .take [4]), false)] ∧
    readWire (afterEdge 50 (onWire [1, 2, 3]).tail) = [([1, 2, 3], false)] ∧
    readWire (afterEdge 50 ((onWire [1, 2, 3]).tail ++ ⟨false, 1200⟩ :: onWire [4, 5])) =
      [([1, 2, 3], false), ([4, 5], false)] ∧
    readWire (afterEdge 50 (onWire (wireBytes 12 (plainFrame 0 .presence [2, 1, 1, 2]))).tail) =
      [(wireBytes 12 (plainFrame 0 .presence [2, 1, 1, 2]), false)] ∧
    [1, 2, 3] ≠ ([] : List Byte) ∧
    readWire (afterEdge 24 [{ dominant := false, micros := 2000 }]) = [] ∧
    readWire (afterEdge 10 [{ dominant := false, micros := 10 }, { dominant := true, micros := 20 }]) = [] ∧
    base.ybi.bus ≠ .aborted := by
  repeat' apply And.intro
  all_goals decide +kernel

theorem witness_LeavingClearsTheCall :
    sOnHook.calm ∧
    State.heads (dl 5 (Message.hook 1)) rest sOnHook ∧
    sOnHook.callRoom ∧
    sOnHook.cct.calls = [c5 CallState.active] ∧
    (c5 CallState.active).kind = CallKind.outside ∧
    (c5 CallState.active).parties = [p5c] ∧
    p5c.who = Endpoint.station (dl 5 (Message.hook 1)).src ∧
    (dl 5 (Message.hook 1)).message = Message.hook 1 ∧
    (c5 CallState.active).state = CallState.active ∧
    sRel.calm ∧
    State.heads (dl 5 (Message.release 6)) rest sRel ∧
    sRel.callRoom ∧
    sRel.cct.calls = [c5 CallState.active] ∧
    p5c.who = Endpoint.station (dl 5 (Message.release 6)).src ∧
    (dl 5 (Message.release 6)).message = Message.release (c5 CallState.active).id ∧
    ((c5 CallState.active).state = CallState.active ∨ (c5 CallState.active).state = CallState.held) ∧
    sRelH.calm ∧
    State.heads (dl 5 (Message.release 6)) rest sRelH ∧
    sRelH.callRoom ∧
    sRelH.cct.calls = [c5h] ∧
    c5h.kind = CallKind.outside ∧
    c5h.parties = [p5h] ∧
    p5h.who = Endpoint.station (dl 5 (Message.release 6)).src ∧
    (dl 5 (Message.release 6)).message = Message.release c5h.id ∧
    (c5h.state = CallState.active ∨ c5h.state = CallState.held) ∧
    (c5 CallState.active).originator = none ∧ c5h.originator = none := by
  repeat' apply And.intro
  all_goals decide +kernel

theorem witness_HoldingKeepsTheCall :
    sFlash.calm ∧
    State.heads (dl 5 (Message.hook 2)) rest sFlash ∧
    sFlash.callRoom ∧
    sFlash.cct.calls = [c5 CallState.active] ∧
    (c5 CallState.active).kind = CallKind.outside ∧
    (c5 CallState.active).state = CallState.active ∧
    (c5 CallState.active).parties = [p5c] ∧
    p5c.who = Endpoint.station (dl 5 (Message.hook 2)).src ∧
    (Instr.hookFlash = Instr.hookFlash ∧ (dl 5 (Message.hook 2)).message = Message.hook 2 ∨ Instr.hookFlash =
      Instr.hold ∧ (dl 5 (Message.hook 2)).message = Message.hold (c5 CallState.active).id) ∧
    sHold.calm ∧
    State.heads (dl 5 (Message.hold 6)) rest sHold ∧
    sHold.callRoom ∧
    sHold.cct.calls = [c5 CallState.active] ∧
    p5c.who = Endpoint.station (dl 5 (Message.hold 6)).src ∧
    (Instr.hold = Instr.hookFlash ∧ (dl 5 (Message.hold 6)).message = Message.hook 2 ∨ Instr.hold = Instr.hold ∧ (dl
      5 (Message.hold 6)).message = Message.hold (c5 CallState.active).id) := by
  repeat' apply And.intro
  all_goals decide +kernel

def sOc6 : State := lineAt .ringIn sClaim
def sOc7 : State := req 5 (.claim 9 .outside 0) sAn1

theorem witness_OutsideClaims :
    sClaim.calm ∧
    State.heads (dl 5 (Message.claim 9 ClaimKind.outside 0)) rest sClaim ∧
    sClaim.callRoom ∧
    sClaim.routineRoom ∧
    sClaim.cct.calls = [] ∧
    sClaim.vsw.line = LineState.idle ∧
    State.isPresent (dl 5 (Message.claim 9 ClaimKind.outside 0)).src sClaim = true ∧
    (dl 5 (Message.claim 9 ClaimKind.outside 0)).message = Message.claim 9 ClaimKind.outside 0 ∧
    9 ≠ 0 ∧
    (Instr.claimOutside = Instr.claimOutside ∧ ClaimKind.outside = ClaimKind.outside ∨ Instr.claimOutside =
      Instr.claimOutsideAny ∧ ClaimKind.outside = ClaimKind.outsideAny ∧ sClaim.cfl.rank = 1) ∧
    sClaimAny.calm ∧
    State.heads (dl 5 (Message.claim 255 ClaimKind.outsideAny 0)) rest sClaimAny ∧
    sClaimAny.callRoom ∧
    sClaimAny.routineRoom ∧
    sClaimAny.cct.calls = [] ∧
    sClaimAny.vsw.line = LineState.idle ∧
    State.isPresent (dl 5 (Message.claim 255 ClaimKind.outsideAny 0)).src sClaimAny = true ∧
    (dl 5 (Message.claim 255 ClaimKind.outsideAny 0)).message = Message.claim 255 ClaimKind.outsideAny 0 ∧
    255 ≠ 0 ∧
    (Instr.claimOutsideAny = Instr.claimOutside ∧ ClaimKind.outsideAny = ClaimKind.outside ∨ Instr.claimOutsideAny =
      Instr.claimOutsideAny ∧ ClaimKind.outsideAny = ClaimKind.outsideAny ∧ sClaimAny.cfl.rank = 1) ∧
    State.heads (dl 5 (Message.claim 9 ClaimKind.outside 0)) rest sOc3 ∧
    sOc3.callRoom ∧
    sOc3.vsw.line = LineState.out ∧
    State.heads (dl 5 (Message.claim 9 ClaimKind.outside 0)) rest sOc4 ∧
    sOc4.callRoom ∧
    (sOc4.vsw.line = LineState.seized ∨ sOc4.vsw.line = LineState.releasing ∨ sOc4.vsw.line = LineState.parallel) ∧
    State.heads (dl 5 (Message.claim 9 ClaimKind.outside 0)) rest sOc5 ∧
    sOc5.callRoom ∧
    sOc5.vsw.line = LineState.test ∧
    sOc5.lth.stage = .restoring ∧
    sOc5.cct.deferred.length < 4 ∧
    State.heads (dl 5 (Message.claim 1 ClaimKind.outsideAny 0)) rest sAny2 ∧
    sAny2.callRoom ∧
    1 ≠ 0 ∧
    (dl 5 (Message.claim 1 ClaimKind.outsideAny 0)).message = Message.claim 1 ClaimKind.outsideAny 0 ∧
    sAny2.cfl.rank = 2 ∧
    State.canServe (Claimant.station (dl 5 (Message.claim 1 ClaimKind.outsideAny 0)).src 1 ClaimKind.outsideAny)
      sAny2 = true ∧
    State.heads (dl 5 (Message.claim 9 ClaimKind.outside 0)) rest sOc5i ∧ sOc5i.callRoom ∧
    sOc5i.vsw.line = .test ∧ sOc5i.lth.stage = .item .resistance ∧ sOc5i.lth.running = some svV ∧
    sOc5i.cct.deferred.length < 4 ∧
    State.heads (dl 5 (Message.claim 9 ClaimKind.outside 0)) rest sOc6 ∧ sOc6.callRoom ∧ sOc6.vsw.line = .ringIn ∧
    sOc6.incomingCall = none ∧
    State.heads (dl 5 (Message.claim 9 ClaimKind.outside 0)) rest sOc7 ∧ sOc7.callRoom ∧ sOc7.vsw.line = .ringIn ∧
    sOc7.lle.link ≠ .showtime ∧ sOc7.sup.supply = .mains ∧ sOc7.vsw.portB.state ≠ .outOfService ∧
    sOc7.lth.stage = .none ∧ sOc7.cct.calls = [cIn] ∧ sOc7.isPresent 5 = true := by
  repeat' apply And.intro
  all_goals decide +kernel

theorem witness_AnswersAndIntercoms :
    sAn1.lle.link ≠ LinkState.showtime ∧
    sAn1.sup.supply = SupplyState.mains ∧
    sAn1.vsw.portB.state ≠ PortState.outOfService ∧
    sAn1.lth.stage = Stage.none ∧
    State.heads (dl 5 (Message.claim 9 ClaimKind.answer 0)) rest sAn1 ∧
    sAn1.callRoom ∧
    (dl 5 (Message.claim 9 ClaimKind.answer 0)).message = Message.claim 9 ClaimKind.answer 0 ∧
    9 ≠ 0 ∧
    (0 = 0 ∨ 0 = cIn.id ∧ 0 ≠ 0) ∧
    sAn1.cct.calls = [cIn] ∧
    cIn.kind = CallKind.outside ∧
    cIn.origin = CallOrigin.incoming ∧
    cIn.state = CallState.setup ∧
    cIn.parties = [] ∧
    cIn.rung = none ∧
    sAn1.vsw.line = LineState.ringIn ∧
    State.isPresent (dl 5 (Message.claim 9 ClaimKind.answer 0)).src sAn1 = true ∧
    sAn2.lle.link ≠ LinkState.showtime ∧
    sAn2.sup.supply = SupplyState.mains ∧
    sAn2.vsw.portB.state ≠ PortState.outOfService ∧
    sAn2.lth.stage = Stage.none ∧
    State.heads (dl 5 (Message.claim 9 ClaimKind.answer 6)) rest sAn2 ∧
    sAn2.callRoom ∧
    (dl 5 (Message.claim 9 ClaimKind.answer 6)).message = Message.claim 9 ClaimKind.answer 6 ∧
    (6 = 0 ∨ 6 = cIn.id ∧ 6 ≠ 0) ∧
    sAn2.cct.calls = [cIn] ∧
    sAn2.vsw.line = LineState.ringIn ∧
    State.isPresent (dl 5 (Message.claim 9 ClaimKind.answer 6)).src sAn2 = true ∧
    sIcom.calm ∧
    State.heads (dl 5 (Message.claim 9 ClaimKind.intercom 25)) rest sIcom ∧
    (dl 5 (Message.claim 9 ClaimKind.intercom 25)).message = Message.claim 9 ClaimKind.intercom 25 ∧
    sIcom.cct.calls = [] ∧
    sIcom.vsw.portA.state = PortState.onHook ∧
    State.isPresent (dl 5 (Message.claim 9 ClaimKind.intercom 25)).src sIcom = true ∧
    sIcom.ybi.listenOnly = false ∧ sIcom.ybi.call.length < 7 ∧ sIcom.cfl.record.inRange = true := by
  repeat' apply And.intro
  all_goals decide +kernel

theorem witness_StationsJoinRetrieveAndTake :
    sJoin.calm ∧
    State.heads (dl 5 (Message.claim 9 ClaimKind.join 6)) rest sJoin ∧
    sJoin.callRoom ∧
    9 ≠ 0 ∧
    sJoin.cct.calls = [cA] ∧
    cA.kind = CallKind.outside ∧
    cA.parties = [pAc] ∧
    State.isPresent (dl 5 (Message.claim 9 ClaimKind.join 6)).src sJoin = true ∧
    (dl 5 (Message.claim 9 ClaimKind.join 6)).message = Message.claim 9 ClaimKind.join 6 ∧
    (6 = 0 ∨ 6 = cA.id) ∧
    cA.state = CallState.active ∧
    pAc.who = Endpoint.port Port.a ∧
    sJoin.cfl.record.joinAllowed = true ∧
    cA.rung = none ∧
    sRetr.calm ∧
    State.heads (dl 5 (Message.retrieve 9 6 3)) rest sRetr ∧
    sRetr.callRoom ∧
    sRetr.cct.calls = [c5h] ∧
    c5h.kind = CallKind.outside ∧
    c5h.parties = [p5h] ∧
    State.isPresent (dl 5 (Message.retrieve 9 6 3)).src sRetr = true ∧
    (dl 5 (Message.retrieve 9 6 3)).message = Message.retrieve 9 c5h.id (k4 none).token ∧
    c5h.state = CallState.held ∧
    c5h.hold = some (k4 none) ∧
    p5h.who = Endpoint.station (dl 5 (Message.retrieve 9 6 3)).src ∧
    c5h.rung = none ∧
    sTake.calm ∧
    sTake.ybi.rxBuffer = dl 5 (Message.take 9) :: rest ∧
    (dl 5 (Message.take 9)).message = Message.take xg.tag ∧
    State.forPart (dl 5 (Message.take 9)).dest sTake = true ∧
    State.expectation (dl 5 (Message.take 9)).src sTake = some xg ∧
    sTake.cct.deferred = [] ∧
    sTake.cct.calls = [cT] ∧
    cT.id = xg.callId ∧
    cT.kind = CallKind.outside ∧
    cT.state = CallState.active ∧
    cT.parties = [{ who := Endpoint.station (dl 5 (Message.take 9)).src, mark := PartyMark.awaitingTake }] := by
  repeat' apply And.intro
  all_goals decide +kernel

theorem witness_PendingAndGrantedClaimsEnd :
    sOv1.ybi.rxBuffer = d9 (Message.grant 9 3) :: rest ∧
    State.forPart (d9 (Message.grant 9 3)).dest sOv1 = false ∧
    (d9 (Message.grant 9 3)).message = Message.grant 9 3 ∧
    State.entryOf (d9 (Message.grant 9 3)).src sOv1 = some unit9 ∧
    unit9.role = Role.lineUnit ∧
    sOv2.ybi.rxBuffer = d79 :: rest ∧
    State.forPart d79.dest sOv2 = false ∧
    d79.message = Message.take 9 ∧
    State.expectation d79.src sOv2 = none ∧
    sGd.calm ∧
    State.expectation 5 sGd = some xg ∧
    sGd.now ≤ xg.deadline ∧
    sGd.callRoom ∧
    sGd.cct.calls = [cT] ∧
    cT.id = xg.callId ∧
    cT.kind = CallKind.outside ∧
    cT.state = CallState.active ∧
    cT.saved = none ∧
    cT.parties = [{ who := Endpoint.station 5, mark := PartyMark.awaitingTake }] ∧
    List.find? (fun p => p.station == 7) sPa1.cct.pendingAny = some pend7 ∧
    sPa1.now ≤ pend7.deadline ∧
    sPa1.vsw.line ≠ LineState.idle ∧
    sPa1.vsw.line ≠ LineState.ringIn ∧
    List.find? (fun p => p.station == 7) sPa.cct.pendingAny = some pend7 ∧
    sPa.now ≤ pend7.deadline ∧
    sPa.calm ∧
    sPa.callRoom ∧
    sPa.cct.calls = [] ∧
    sPa.vsw.line = LineState.idle ∧
    State.isPresent pend7.station sPa = true ∧
    State.expectation pend7.station sPa = none ∧
    cT.originator = none := by
  repeat' apply And.intro
  all_goals decide +kernel

theorem witness_CallTimersRunOut :
    sCt1.lle.link ≠ .showtime ∧ sCt1.sup.supply = .mains ∧ sCt1.vsw.portB.state ≠ .outOfService ∧
    sCt1.lth.stage = .none ∧ sCt1.vsw.episodes = [epI] ∧ epI.callId = cI.id ∧ epI.kind = .intercom ∧
    sCt1.ybi.listenOnly = false ∧ sCt1.ybi.call.length < 7 ∧ sCt1.lineKept = true ∧
    sCt1.cct.calls = [cI] ∧
    sCt1.now ≤ 100500 ∧
    cI.kind = CallKind.intercom ∧
    cI.state = CallState.setup ∧
    cI.ringTimer = some 100500 ∧
    cI.parties = [{ who := Endpoint.station 5, mark := PartyMark.connected }] ∧
    sCt2.calm ∧
    sCt2.cct.calls = [c5old] ∧
    sCt2.now ≤ 100500 ∧
    c5old.kind = CallKind.outside ∧
    c5old.state = CallState.held ∧
    c5old.hold = some kE ∧
    kE.releaseTimer = some 100500 ∧
    sCt3.calm ∧
    sCt3.cct.calls = [cC] ∧
    sCt3.now ≤ 100500 ∧
    cC.state = CallState.clearing ∧
    cC.guardTimer = some 100500 ∧
    cC.parties = [] ∧
    sCt4.calm ∧
    sCt4.cct.calls = [cHa] ∧
    sCt4.now ≤ 100500 ∧
    cHa.kind = CallKind.outside ∧
    cHa.state = CallState.held ∧
    cHa.hold = some kR ∧
    kR.retriever = none ∧
    kR.recallState ≠ RecallState.ringing ∧
    cHa.parties = [pAh] ∧
    (Instr.holdAgeRecall 6 = Instr.holdAgeRecall cHa.id ∧ kR.recallTimer = some 100500) ∧
    pAh.who = Endpoint.port Port.a ∧
    sCt4.vsw.portA.state = PortState.onHook ∧
    sCt5.calm ∧
    sCt5.cct.calls = [cHs] ∧
    sCt5.now ≤ 100500 ∧
    cHs.kind = CallKind.outside ∧
    cHs.state = CallState.held ∧
    cHs.hold = some kR ∧
    cHs.parties = [p8h] ∧
    (Instr.holdAgeRecall 6 = Instr.holdAgeRecall cHs.id ∧ kR.recallTimer = some 100500) ∧
    p8h.who = Endpoint.station 8 ∧
    State.isPresent 8 sCt5 = false ∧
    sCt6.calm ∧
    sCt6.cct.calls = [cHar] ∧
    sCt6.now ≤ 100500 ∧
    cHar.kind = CallKind.outside ∧
    cHar.state = CallState.held ∧
    cHar.hold = some kRr ∧
    kRr.retriever = none ∧
    kRr.recallState ≠ RecallState.ringing ∧
    cHar.parties = [pAh] ∧
    (Instr.recallRetryExpiry 6 = Instr.recallRetryExpiry cHar.id ∧ kRr.retryTimer = some 100500 ∧ kRr.recallTimer =
      none) ∧
    sCt6.vsw.portA.state = PortState.onHook ∧
    sCt4.callRoom ∧ sCt4.cfl.record.inRange = true ∧ sCt5.callRoom ∧ sCt5.cfl.record.inRange = true ∧
    sCt6.callRoom ∧ sCt6.cfl.record.inRange = true := by
  repeat' apply And.intro
  all_goals decide +kernel

theorem witness_QueriesAreAnswered :
    State.heads (dl 5 (Message.query QuerySubject.link)) rest sQ1 ∧
    sQ1.routineRoom ∧
    sQ1.callRoom ∧
    (dl 5 (Message.query QuerySubject.link)).message = Message.query QuerySubject.link ∧
    State.heads (dl 5 (Message.query (QuerySubject.loopRecord 1 1))) rest sQ2 ∧
    sQ2.routineRoom ∧
    sQ2.callRoom ∧
    (dl 5 (Message.query (QuerySubject.loopRecord 1 1))).message = Message.query (QuerySubject.loopRecord 1 1) ∧
    itemOf 1 = some Item.linkProfile ∧
    (Item.linkProfile ≠ Item.linkProfile ∨ 1 ≤ 1) ∧
    State.heads (dl 5 (Message.query (QuerySubject.loopRecord 1 2))) rest sQ2b ∧
    sQ2b.routineRoom ∧
    sQ2b.callRoom ∧
    (dl 5 (Message.query (QuerySubject.loopRecord 1 2))).message = Message.query (QuerySubject.loopRecord 1 2) ∧
    (itemOf 1 = none ∨ itemOf 1 = some Item.linkProfile ∧ 1 < 2) ∧
    State.heads (dl 5 (Message.query (QuerySubject.loopRecord 6 9))) rest sQ2c ∧
    sQ2c.routineRoom ∧
    sQ2c.callRoom ∧
    (dl 5 (Message.query (QuerySubject.loopRecord 6 9))).message = Message.query (QuerySubject.loopRecord 6 9) ∧
    itemOf 6 = some Item.capacitance ∧
    (Item.capacitance ≠ Item.linkProfile ∨ 9 ≤ 1) ∧
    State.heads (dl 5 (Message.query (QuerySubject.loopRecord 7 0))) rest sQ2d ∧
    sQ2d.routineRoom ∧
    sQ2d.callRoom ∧
    (dl 5 (Message.query (QuerySubject.loopRecord 7 0))).message = Message.query (QuerySubject.loopRecord 7 0) ∧
    (itemOf 7 = none ∨ itemOf 7 = some Item.linkProfile ∧ 1 < 0) ∧
    State.heads (dl 5 (Message.query (QuerySubject.faultTable 1))) rest sQ3 ∧
    sQ3.routineRoom ∧
    sQ3.callRoom ∧
    (dl 5 (Message.query (QuerySubject.faultTable 1))).message = Message.query (QuerySubject.faultTable 1) ∧
    State.heads (dl 5 (Message.query (QuerySubject.faultTable 4))) rest sQ3b ∧
    sQ3b.routineRoom ∧
    sQ3b.callRoom ∧
    (dl 5 (Message.query (QuerySubject.faultTable 4))).message = Message.query (QuerySubject.faultTable 4) ∧
    (4 = 0 ∨ 3 < 4) ∧
    State.heads (dl 5 (Message.query (QuerySubject.configuration 3))) rest sQ4 ∧
    sQ4.routineRoom ∧
    sQ4.callRoom ∧
    (dl 5 (Message.query (QuerySubject.configuration 3))).message = Message.query (QuerySubject.configuration 3) ∧
    3 ≤ 3 ∧
    State.heads (dl 5 (Message.query (QuerySubject.configuration 4))) rest sQ4b ∧
    sQ4b.routineRoom ∧
    sQ4b.callRoom ∧
    (dl 5 (Message.query (QuerySubject.configuration 4))).message = Message.query (QuerySubject.configuration 4) ∧
    3 < 4 ∧
    State.heads (dl 5 (Message.query (QuerySubject.faultTable 2))) rest sQ5 ∧
    sQ5.routineRoom ∧
    sQ5.callRoom ∧
    (Instr.queryFaultAll = Instr.queryFaultAll ∧ (dl 5 (Message.query (QuerySubject.faultTable 2))).message =
      Message.query (QuerySubject.faultTable 2) ∧ base.flt.entries = sQ5.flt.entries) ∧
    sQ5.ybi.stream = none ∧
    base.flt.entries ≠ [] ∧
    State.heads (dl 5 (Message.query (QuerySubject.faultTable 3))) rest sQ6 ∧
    sQ6.routineRoom ∧
    sQ6.callRoom ∧
    (Instr.queryFaultActive = Instr.queryFaultActive ∧ (dl 5 (Message.query (QuerySubject.faultTable 3))).message =
      Message.query (QuerySubject.faultTable 3) ∧ List.filter (fun e => e.active) base.flt.entries = List.filter
      (fun e => e.active) sQ6.flt.entries) ∧
    sQ6.ybi.stream = none ∧
    List.filter (fun e => e.active) base.flt.entries ≠ [] ∧
    State.heads (dl 5 (Message.query (QuerySubject.faultTable 3))) rest sQ7 ∧
    sQ7.routineRoom ∧
    sQ7.callRoom ∧
    (Instr.queryFaultActive = Instr.queryFaultActive ∧ (dl 5 (Message.query (QuerySubject.faultTable 3))).message =
      Message.query (QuerySubject.faultTable 3) ∧ [] = List.filter (fun e => e.active) sQ7.flt.entries) ∧
    sQ7.ybi.stream = none ∧
    (sQ7.flt.entries.filter (fun e => e.active)) = [] ∧
    State.heads (dl 5 (Message.query (QuerySubject.faultTable 2))) rest sQ8 ∧
    sQ8.routineRoom ∧
    sQ8.callRoom ∧
    (Instr.queryFaultAll = Instr.queryFaultAll ∧ (dl 5 (Message.query (QuerySubject.faultTable 2))).message =
      Message.query (QuerySubject.faultTable 2) ∧ base.flt.entries = sQ8.flt.entries) ∧
    sQ8.ybi.stream = some noRest ∧
    State.heads (dl 5 (Message.query QuerySubject.presenceTable)) rest sQ9 ∧
    sQ9.routineRoom ∧
    sQ9.callRoom ∧
    (dl 5 (Message.query QuerySubject.presenceTable)).message = Message.query QuerySubject.presenceTable ∧
    sQ9.ybi.stream = none ∧
    sQ9.ybi.presence ≠ [] ∧
    State.heads (dl 5 (Message.query QuerySubject.presenceTable)) rest sQ10 ∧
    sQ10.routineRoom ∧
    sQ10.callRoom ∧
    sQ10.ybi.presence = [] ∧
    State.heads (dl 5 (Message.query QuerySubject.presenceTable)) rest sQ11 ∧ sQ11.routineRoom ∧ sQ11.callRoom ∧
    sQ11.ybi.stream = some noRest ∧ sQ11.ybi.presence ≠ [] := by
  repeat' apply And.intro
  all_goals decide +kernel

theorem witness_TestIsTaken :
    State.heads (dl 5 (Message.test 1 true)) rest sTe1 ∧
    sTe1.routineRoom ∧
    (dl 5 (Message.test 1 true)).message = Message.test 1 true ∧
    State.heads (dl 5 (Message.test 4 false)) rest sTe2 ∧
    sTe2.routineRoom ∧
    (dl 5 (Message.test 4 false)).message = Message.test 4 false ∧
    sTe2.lth.running = none ∧
    sTe2.lth.pending = none := by
  repeat' apply And.intro
  all_goals decide +kernel

def sLm6 : State := (sLC 3 .handshake).onLle fun l => { l with handshakeTimer := some 101000 }
def sLm7 : State := req 5 (.linkControl 3) showing
def sLm8 : State :=
  { sLC 3 .lockout with flt := table [oldFault { code := .linkRetrainLimit, source := .line } true] }.onLle fun l =>
    { l with retry := 12, lockoutTimer := some 900000 }
def sLm9 : State := req 5 .clearRetry sLm3
def sLm10 : State := sLC 3 .quiet

theorem witness_LinkIsManagedByManagers :
    State.heads (dl 5 (Message.linkControl 1)) rest sLm1 ∧
    sLm1.routineRoom ∧
    State.isManager (dl 5 (Message.linkControl 1)).src sLm1 = true ∧
    (dl 5 (Message.linkControl 1)).message = Message.linkControl 1 ∧
    sLm1.linkIdle ∧
    (sLm1.lle.link = LinkState.down ∨ sLm1.lle.link = LinkState.retrainWait) ∧
    sLm1.lle.holders.management = false ∧
    State.heads (dl 5 (Message.linkControl 2)) rest sLR ∧
    sLR.routineRoom ∧
    State.isManager (dl 5 (Message.linkControl 2)).src sLR = true ∧
    (dl 5 (Message.linkControl 2)).message = Message.linkControl 2 ∧
    sLR.linkIdle ∧
    sLR.lle.link = LinkState.quiet ∧
    sLR.lle.holders = { management := true, supply := false, voltage := false, survey := false } ∧
    State.heads (dl 5 (Message.linkControl 3)) rest sLm3 ∧
    sLm3.routineRoom ∧
    State.isManager (dl 5 (Message.linkControl 3)).src sLm3 = true ∧
    (dl 5 (Message.linkControl 3)).message = Message.linkControl 3 ∧
    sLm3.linkIdle ∧
    sLm3.lle.link = LinkState.retrainWait ∧
    State.heads (dl 5 (Message.linkControl 3)) rest sLm4 ∧
    sLm4.routineRoom ∧
    State.isManager (dl 5 (Message.linkControl 3)).src sLm4 = true ∧
    sLm4.lle.link = LinkState.down ∧
    State.heads (dl 5 Message.clearRetry) rest sLm5 ∧
    sLm5.routineRoom ∧
    State.isManager (dl 5 Message.clearRetry).src sLm5 = true ∧
    (dl 5 Message.clearRetry).message = Message.clearRetry ∧
    sLm5.lle.link ≠ LinkState.retrainWait ∧
    sLm5.lle.link ≠ LinkState.lockout ∧
    State.heads (dl 7 (Message.linkControl 1)) rest sNm1 ∧
    sNm1.callRoom ∧
    State.isManager (dl 7 (Message.linkControl 1)).src sNm1 = false ∧
    (dl 7 (Message.linkControl 1)).message = Message.linkControl 1 ∧
    State.heads (dl 7 (Message.linkControl 2)) rest sNm2 ∧
    sNm2.callRoom ∧
    State.isManager (dl 7 (Message.linkControl 2)).src sNm2 = false ∧
    (dl 7 (Message.linkControl 2)).message = Message.linkControl 2 ∧
    State.heads (dl 7 (Message.linkControl 3)) rest sNm3 ∧
    sNm3.callRoom ∧
    State.isManager (dl 7 (Message.linkControl 3)).src sNm3 = false ∧
    (dl 7 (Message.linkControl 3)).message = Message.linkControl 3 ∧
    State.heads (dl 7 Message.clearRetry) rest sNm4 ∧
    sNm4.callRoom ∧
    State.isManager (dl 7 Message.clearRetry).src sNm4 = false ∧
    (dl 7 Message.clearRetry).message = Message.clearRetry ∧
    State.heads (dl 7 Message.clearFaults) rest sNm5 ∧
    sNm5.callRoom ∧
    State.isManager (dl 7 Message.clearFaults).src sNm5 = false ∧
    (dl 7 Message.clearFaults).message = Message.clearFaults ∧
    State.heads (dl 7 (Message.counterDelegate 3 5)) rest sNm6 ∧
    sNm6.callRoom ∧
    State.isManager (dl 7 (Message.counterDelegate 3 5)).src sNm6 = false ∧
    (dl 7 (Message.counterDelegate 3 5)).message = Message.counterDelegate 3 5 ∧
    sLm6.linkIdle ∧ sLm6.lle.link.isTraining = true ∧ State.heads (dl 5 (.linkControl 3)) rest sLm6 ∧
    sLm6.routineRoom ∧ sLm6.isManager 5 = true ∧
    sLm7.lle.link = .showtime ∧ sLm7.lth.stage = .none ∧ State.heads (dl 5 (.linkControl 3)) rest sLm7 ∧
    sLm7.routineRoom ∧ sLm7.isManager 5 = true ∧
    sLm8.linkIdle ∧ sLm8.lle.link = .lockout ∧ sLm8.ybi.urgent.length < 4 ∧ sLm8.routineRoom ∧ sLm8.isManager 5 = true ∧
    State.heads (dl 5 (.linkControl 3)) rest sLm8 ∧ State.heads (dl 5 .clearRetry) rest (req 5 .clearRetry sLm8) ∧
    State.heads (dl 5 .clearRetry) rest sLm9 ∧ sLm9.linkIdle ∧ sLm9.lle.link = .retrainWait ∧ sLm9.routineRoom ∧
    sLm9.isManager 5 = true ∧
    State.heads (dl 5 (.linkControl 3)) rest sLm10 ∧ sLm10.callRoom ∧ sLm10.isManager 5 = true ∧ sLm10.lle.link = .quiet := by
  repeat' apply And.intro
  all_goals decide +kernel

theorem witness_FaultsAreCleared :
    State.heads (dl 5 Message.clearFaults) rest sCf ∧
    sCf.routineRoom ∧
    State.isManager (dl 5 Message.clearFaults).src sCf = true ∧
    (dl 5 Message.clearFaults).message = Message.clearFaults := by
  repeat' apply And.intro
  all_goals decide +kernel

theorem witness_CountersAreRead :
    State.heads (dl 5 (Message.counterRead 3 false)) rest sCn1 ∧
    sCn1.routineRoom ∧
    Ctb.counter 3 sCn1.ctb = some (cnt3 (c7 (Message.counterRead 3 false))) ∧
    (dl 5 (Message.counterRead 3 false)).message = Message.counterRead 3 false ∧
    State.heads (dl 5 (Message.counterRead 3 true)) rest sCn2 ∧
    sCn2.routineRoom ∧
    Ctb.counter 3 sCn2.ctb = some (cnt3 (c7 (Message.counterRead 3 true))) ∧
    (dl 5 (Message.counterRead 3 true)).message = Message.counterRead 3 true ∧
    (State.isManager (dl 5 (Message.counterRead 3 true)).src sCn2 = true ∨ (cnt3 (c7 (Message.counterRead 3
      true))).delegate = some (dl 5 (Message.counterRead 3 true)).src) ∧
    State.heads (dl 5 (Message.counterSet 3 (some 9) (some true))) rest sCn3 ∧
    sCn3.routineRoom ∧
    Ctb.counter 3 sCn3.ctb = some (cnt3 (c7 (Message.counterSet 3 (some 9) (some true)))) ∧
    (dl 5 (Message.counterSet 3 (some 9) (some true))).message = Message.counterSet 3 (some 9) (some true) ∧
    (State.isManager (dl 5 (Message.counterSet 3 (some 9) (some true))).src sCn3 = true ∨ (cnt3 (c7
      (Message.counterSet 3 (some 9) (some true)))).delegate = some (dl 5 (Message.counterSet 3 (some 9) (some
      true))).src) ∧
    State.heads (dl 5 (Message.counterDelegate 3 7)) rest sCn4 ∧
    sCn4.routineRoom ∧
    Ctb.counter 3 sCn4.ctb = some (cnt3 (c7 (Message.counterDelegate 3 7))) ∧
    (dl 5 (Message.counterDelegate 3 7)).message = Message.counterDelegate 3 7 ∧
    3 ≤ 7 ∧
    State.isManager (dl 5 (Message.counterDelegate 3 7)).src sCn4 = true ∧
    (7 = 0 ∨ 7 ≤ 24 ∧ 7 ≠ sCn4.ybi.ownAddress ∧ State.isPresent 7 sCn4 = true) ∧
    State.heads (dl 5 (Message.counterDelegate 3 0)) rest sCn4b ∧
    sCn4b.routineRoom ∧
    Ctb.counter 3 sCn4b.ctb = some (cnt3 (c7 (Message.counterDelegate 3 0))) ∧
    (dl 5 (Message.counterDelegate 3 0)).message = Message.counterDelegate 3 0 ∧
    State.isManager (dl 5 (Message.counterDelegate 3 0)).src sCn4b = true ∧
    (0 = 0 ∨ 0 ≤ 24 ∧ 0 ≠ sCn4b.ybi.ownAddress ∧ State.isPresent 0 sCn4b = true) := by
  repeat' apply And.intro
  all_goals decide +kernel

theorem witness_TrainingAdvances :
    base.linkIdle ∧
    base.mayTrain = true ∧
    sTr2.linkIdle ∧
    sTr2.lle.link = LinkState.handshake ∧
    sProbe.linkIdle ∧
    sProbe.lle.probeTimer = some 101000 ∧
    sProbe.now ≤ 101000 ∧
    sProbe.lle.link = LinkState.probe ∧
    floorMet sProbe.cfl.record sProbe.leakage sProbe.lle.d (recordSnr ms) = true ∧
    sProbe.lle.retry ≤ 10 ∧ Ctb.wrapping 7 sProbe.ctb = [] ∧
    netRate (bitTotal (tableBits .normal sProbe.cfl.record 0 sProbe.leakage (recordSnr (List.replicate 336 3)))) sProbe.lle.d <
      sProbe.cfl.record.rateFloor := by
  repeat' apply And.intro
  all_goals decide +kernel

theorem witness_TrainingFails :
    sHs.linkIdle ∧
    sHs.now ≤ 101000 ∧
    sHs.lle.retry ≤ 10 ∧
    Ctb.wrapping 7 sHs.ctb = [] ∧
    (Instr.handshakeTimeout = Instr.handshakeTimeout ∧ sHs.lle.link = LinkState.handshake ∧ sHs.lle.handshakeTimer =
      some 101000 ∧ FailureReason.noFarEnd = FailureReason.noFarEnd) ∧
    sProbe.linkIdle ∧
    sProbe.now ≤ 100000 ∧
    sProbe.lle.retry ≤ 10 ∧
    Ctb.wrapping 7 sProbe.ctb = [] ∧
    (Instr.probeSignalLoss = Instr.probeSignalLoss ∧ sProbe.lle.link = LinkState.probe ∧ 100000 = sProbe.now ∧
      FailureReason.noFarEnd = FailureReason.noFarEnd) ∧
    sLoad.linkIdle ∧
    sLoad.now ≤ 101000 ∧
    sLoad.lle.retry ≤ 10 ∧
    Ctb.wrapping 7 sLoad.ctb = [] ∧
    (Instr.loadTimeout = Instr.loadTimeout ∧ sLoad.lle.link = LinkState.load ∧ sLoad.lle.loadTimer = some 101000 ∧
      FailureReason.loadTimeout = FailureReason.loadTimeout) ∧
    sLoad.now ≤ 100000 ∧
    sLoad.lle.link = LinkState.load ∧
    100000 = sLoad.now ∧
    FailureReason.badFarTable = FailureReason.badFarTable ∧
    badFarTable sLoad.cfl.record.bmax [0, 13] = true ∧
    sTf5.linkIdle ∧
    sTf5.lle.link = LinkState.handshake ∧
    sTf5.lle.handshakeTimer = some 101000 ∧
    sTf5.now ≤ 101000 ∧
    sTf5.lle.retry = 11 ∧
    sTf5.flt.entries.length < 16 ∧
    Ctb.wrapping 7 sTf5.ctb = [] ∧
    sTf5.ybi.urgent.length < 4 := by
  repeat' apply And.intro
  all_goals decide +kernel

theorem witness_ShowtimeBegins :
    sLoad.linkIdle ∧
    sLoad.lle.link = LinkState.load ∧
    badFarTable sLoad.cfl.record.bmax upT = false ∧
    sLoad.plp.queue = [] := by
  repeat' apply And.intro
  all_goals decide +kernel

theorem witness_WaitsEndInDown :
    sWe1.now ≤ 101000 ∧
    sWe1.linkIdle ∧
    sWe1.lle.link = LinkState.retrainWait ∧
    sWe1.lle.backoffTimer = some 101000 ∧
    sWe2.now ≤ 1000000 ∧
    sWe2.linkIdle ∧
    sWe2.lle.link = LinkState.lockout ∧
    sWe2.lle.lockoutTimer = some 1000000 ∧
    sWe2.ybi.urgent.length < 4 ∧
    sWe3.now ≤ 1000000 ∧
    sWe3.intrusiveRunning = true ∧
    sWe3.lle.lockoutTimer = some 1000000 := by
  repeat' apply And.intro
  all_goals decide +kernel

theorem witness_RequestOutcomes :
    sRo1.lle.slot = some (outs (OverheadRequest.switch TableName.guard) 1) ∧
    sRo1.lth.stage = Stage.none ∧
    sRo2.lle.slot = some (outs (OverheadRequest.power PowerRequest.cutback) 1) ∧
    sRo2.lth.stage = Stage.none ∧
    (outs (OverheadRequest.power PowerRequest.cutback) 1).request = OverheadRequest.power PowerRequest.cutback ∧
    sRo3.lle.slot = some (outs (OverheadRequest.power PowerRequest.restore) 1) ∧
    sRo3.lth.stage = Stage.none ∧
    (outs (OverheadRequest.power PowerRequest.restore) 1).request = OverheadRequest.power PowerRequest.restore ∧
    sRo4.lle.slot = some (outs (OverheadRequest.shield 2) 1) ∧
    sRo4.lth.stage = Stage.none ∧
    (outs (OverheadRequest.shield 2) 1).request = OverheadRequest.shield 2 ∧
    sRo5.lle.slot = some (outs (OverheadRequest.swap 4 (List.replicate 16 3)) 1) ∧
    sRo5.lth.stage = Stage.none ∧
    sRo6.lle.slot = some (outs (.swap 4 (List.replicate 16 3)) 2) ∧
    (outs (.swap 4 (List.replicate 16 3)) 2).attempt = 2 ∧ sRo6.lle.sync.swapAbandons < 2 ∧
    sRo6.now ≤ (outs (.swap 4 (List.replicate 16 3)) 2).deadline ∧ sRo6.lle.link = .showtime ∧
    sRo8.lle.slot = some (outs (.swap 4 (List.replicate 16 3)) 2) ∧ 2 ≤ sRo8.lle.sync.swapAbandons ∧
    sRo8.now ≤ (outs (.swap 4 (List.replicate 16 3)) 2).deadline ∧ sRo8.lle.link = .showtime ∧
    sRo5.now ≤ (outs (.swap 4 (List.replicate 16 3)) 1).deadline ∧ sRo5.lle.link = .showtime ∧
    (outs (.swap 4 (List.replicate 16 3)) 1).attempt = 1 ∧
    (Instr.overheadDecline 7 = .overheadDecline (outs (.switch .guard) 1).number ∧ 100000 = sRo1.now) ∧
    sRo1.now ≤ (outs (.switch .guard) 1).deadline ∧ sRo1.lle.link = .showtime ∧
    sRo2.now ≤ (outs (.power .cutback) 1).deadline ∧ sRo2.lle.link = .showtime ∧ sRo2.sup.supply = .mains ∧
    100000 = sRo2.now ∧
    sRo3.now ≤ (outs (.power .restore) 1).deadline ∧ sRo3.lle.link = .showtime ∧ 100000 = sRo3.now ∧
    sRo4.now ≤ (outs (.shield 2) 1).deadline ∧ sRo4.lle.link = .showtime ∧ 100000 = sRo4.now ∧
    sRo7.lle.slot = some (outs (.power .cutback) 1) ∧ sRo7.now ≤ (outs (.power .cutback) 1).deadline ∧
    sRo7.lle.link = .showtime ∧ sRo7.sup.supply = .battery ∧ 100000 = sRo7.now ∧
    sRo9.lle.slot = some (outs (.switch .normal) 2) ∧ sRo9.now ≤ (outs (.switch .normal) 2).deadline ∧
    sRo9.lle.link = .showtime ∧ (outs (.switch .normal) 2).attempt = 2 ∧
    100100 = (outs (.switch .normal) 2).deadline ∧ (outs (.switch .normal) 2).request = .switch .normal := by
  repeat' apply And.intro
  all_goals decide +kernel

theorem witness_FarEndAndPayload :
    showing.lle.link = LinkState.showtime ∧
    Option.map (fun x => x.1) showing.lle.lastFar ≠ some 9 ∧
    farSwapOk showing.cfl.record.bmax 2 (List.replicate 16 4) = true ∧
    TableName.normal = TableName.normal ∧
    farSwapOk showing.cfl.record.bmax 2 (List.replicate 15 4) = false ∧
    sFe4.lle.link = LinkState.showtime ∧
    sFe4.lle.lastFar = some (9, FarAnswer.decline) ∧
    sPl2.lle.link = LinkState.showtime ∧
    sPl2.plp.ready = true ∧
    sPl3.lle.link = LinkState.showtime ∧
    sPl3.plp.ready = false ∧
    sPl4.lle.link = LinkState.showtime ∧
    sPl4.plp.queue = [1] :: List.replicate 15 [1] := by
  repeat' apply And.intro
  all_goals decide +kernel

def sWr4 : State := sWr2.onSync fun y => { y with debt := 8 }
def high : List Int := List.replicate 16 255
/-- The swap queue holds eight entries of groups other than the one at the pointer. -/
def sWr5 : State :=
  sWr3.onSync fun y =>
    { y with
      pointer := 15
      swapQueue := (List.range 8).map fun n => { group := n + 3, bits := List.replicate 16 3, reason := .upshift } }

theorem witness_WalkerRefreshes :
    showing.now ≤ 100200 ∧
    showing.lle.link = LinkState.showtime ∧
    showing.lle.sync.refreshTimer = some 100200 ∧
    showing.lle.refreshAllowed = true ∧
    showing.lle.sync.swapQueue.length < 8 ∧
    sWr2.now ≤ 100200 ∧
    sWr2.lle.link = LinkState.showtime ∧
    sWr2.lle.sync.refreshTimer = some 100200 ∧
    sWr2.lle.refreshAllowed = false ∧
    sWr2.lle.sync.debt < 8 ∧
    sWr3.now ≤ 100100 ∧
    sWr3.lle.link = LinkState.showtime ∧
    sWr3.lle.sync.catchUpTimer = some 100100 ∧
    sWr3.lle.sync.swapQueue.length < 8 ∧
    sWr4.lle.link = .showtime ∧ sWr4.lle.sync.refreshTimer = some 100200 ∧ sWr4.now ≤ 100200 ∧
    sWr4.lle.refreshAllowed = false ∧ sWr4.lle.sync.debt = 8 ∧ Ctb.wrapping 13 sWr4.ctb = [] ∧
    sWr5.lle.link = .showtime ∧ sWr5.now ≤ 100100 ∧ sWr5.now ≤ 100200 ∧ sWr5.lle.sync.swapQueue.length = 8 ∧
    (∀ x ∈ sWr5.lle.sync.swapQueue, x.group ≠ sWr5.lle.sync.pointer) ∧
    swapReason sWr5.cfl.record.minMargin (groupOf (sWr5.measureGroup sWr5.lle.sync.pointer high).lle.snr sWr5.lle.sync.pointer)
      (groupOf sWr5.lle.normal sWr5.lle.sync.pointer)
      ((sWr5.measureGroup sWr5.lle.sync.pointer high).proposed sWr5.lle.sync.pointer) ≠ none ∧
    sWr5.lle.sync.refreshTimer = some 100200 ∧ sWr5.lle.refreshAllowed = true ∧ sWr5.lle.sync.debt < 8 ∧
    sWr5.lle.sync.catchUpTimer = some 100100 := by
  repeat' apply And.intro
  all_goals decide +kernel

theorem witness_GuardIsLeft :
    sGl1.now ≤ 100100 ∧
    sGl1.lle.link = LinkState.showtime ∧
    sGl1.lle.slot = none ∧
    sGl1.lle.switchWaiting = none ∧
    sGl1.lle.downInForce = TableName.guard ∧
    sGl1.lle.sync.guardTimer = some 100100 ∧
    sGl1.lle.sync.switchRetryTimer = none ∧
    sGl2.now ≤ 100100 ∧
    sGl2.lle.link = LinkState.showtime ∧
    sGl2.lle.slot = none ∧
    sGl2.lle.switchWaiting = none ∧
    sGl2.lle.downInForce = TableName.guard ∧
    sGl2.lle.sync.switchRetryTimer = some 100100 ∧
    sGl2.lle.sync.guard = GuardState.clear := by
  repeat' apply And.intro
  all_goals decide +kernel

theorem witness_ImpulsesAreFollowed :
    showing.lle.link = LinkState.showtime ∧
    sIm2.lle.sync.lock = some (lk 1) ∧
    (lk 1).misses < 2 ∧
    sIm3.lle.sync.lock = some (lk 2) ∧
    2 ≤ (lk 2).misses := by
  repeat' apply And.intro
  all_goals decide +kernel

def sSe4 : State := showing.onSync fun y => { y with uncorrected := 49, severeRun := 5 }
def sSe5 : State := showing.onSync fun y => { y with uncorrected := 50, severeRun := 8 }

theorem witness_SecondsAndMarginAreJudged :
    showing.lle.link = LinkState.showtime ∧
    Ctb.wrapping 4 showing.ctb = [] ∧
    Ctb.wrapping 5 showing.ctb = [] ∧
    showing.lle.sync.signalTimer = none ∧
    sSe2.lle.sync.marginTimer = some 130000 ∧
    sSe2.now ≤ 130000 ∧
    sSe2.lth.stage = Stage.none ∧
    sSe2.lle.sync.marginWatch = MarginWatch.falling ∧
    sSe2.flt.entries.length < 16 ∧
    sSe3.lle.sync.marginTimer = some 130000 ∧
    sSe3.now ≤ 130000 ∧
    sSe3.lth.stage = Stage.none ∧
    sSe3.lle.sync.marginWatch = MarginWatch.rising ∧
    showing.lle.sync.secondTimer = some 100500 ∧ showing.lle.sync.uncorrected = 0 ∧
    showing.lle.sync.absentThisSecond = false ∧ Ctb.wrapping 1 showing.ctb = [] ∧
    sSe4.lle.link = .showtime ∧ sSe4.lle.sync.secondTimer = some 100500 ∧ Ctb.wrapping 1 sSe4.ctb = [] ∧
    Ctb.wrapping 2 sSe4.ctb = [] ∧ Ctb.wrapping 3 sSe4.ctb = [] ∧ 1 ≤ sSe4.lle.sync.uncorrected ∧
    sSe4.lle.sync.uncorrected < 50 ∧ sSe4.lle.sync.absentThisSecond = false ∧
    sSe5.lle.link = .showtime ∧ sSe5.lle.sync.secondTimer = some 100500 ∧ Ctb.wrapping 1 sSe5.ctb = [] ∧
    Ctb.wrapping 2 sSe5.ctb = [] ∧ Ctb.wrapping 3 sSe5.ctb = [] ∧
    (50 ≤ sSe5.lle.sync.uncorrected ∨ sSe5.lle.sync.absentThisSecond = true) ∧ sSe5.lle.sync.severeRun < 9 := by
  repeat' apply And.intro
  all_goals decide +kernel

theorem witness_ShowtimeDrops :
    sDr1.now ≤ 100500 ∧
    sDr1.lle.link = LinkState.showtime ∧
    sDr1.lle.sync.secondTimer = some 100500 ∧
    sDr1.lle.sync.severeRun = 9 ∧
    50 ≤ sDr1.lle.sync.uncorrected ∧
    sDr2.now ≤ 100600 ∧
    sDr2.lle.link = LinkState.showtime ∧
    sDr2.lle.sync.signalTimer = some 100600 := by
  repeat' apply And.intro
  all_goals decide +kernel

/-- Port A has answered the incoming call at this instant, and port B, which the plan left unrung, comes off the hook
too. -/
def cCo : CallRec := { CallRec.fresh 6 .outside .incoming .active [pAc] with everConnected := true }
def sCo : State :=
  ((withCall cCo .seized base).onPins (Pins.setCurrent .b 20)).onVsw fun v =>
    { v with coAnswer := some { port := .b, callId := 6, instant := 100000 } }

theorem witness_HookAndFirstDigit :
    sHk1.portsSilent ∧ sHk1b.portsSilent ∧ sHk3.portsSilent ∧ sCo.portsSilent ∧ offA.portsSilent ∧ offB.portsSilent ∧
    sHk1.calm ∧
    sHk1.noneHeld ∧
    sHk1.cfl.state = ConfigState.ready ∧
    (State.port Port.a sHk1).state = PortState.onHook ∧
    State.targetCall Port.a sHk1 = none ∧
    State.coAnswered Port.a sHk1 = none ∧ State.coAnswered Port.b sHk1b = none ∧
    sHk1.vsw.line ≠ LineState.ringIn ∧
    (Port.a = Port.a → sHk1.cfl.record.directA = false) ∧
    (Port.a = Port.b → sHk1.cfl.record.directB = false) ∧
    18 ≤ sHk1.pins.current Port.a ∧
    sHk1b.calm ∧
    sHk1b.noneHeld ∧
    sHk1b.cfl.state = ConfigState.ready ∧
    (State.port Port.b sHk1b).state = PortState.onHook ∧
    State.targetCall Port.b sHk1b = none ∧
    sHk1b.vsw.line ≠ LineState.ringIn ∧
    (Port.b = Port.a → sHk1b.cfl.record.directA = false) ∧
    (Port.b = Port.b → sHk1b.cfl.record.directB = false) ∧
    18 ≤ sHk1b.pins.current Port.b ∧
    offA.calm ∧
    offA.noneHeld ∧
    offA.cfl.state = ConfigState.ready ∧
    (State.port Port.a offA).state ≠ PortState.outOfService ∧
    (State.port Port.a offA).offHook = true ∧
    (State.port Port.a offA).breakStart = none ∧
    sHk3.calm ∧
    sHk3.noneHeld ∧
    sHk3.cfl.state = ConfigState.ready ∧
    (State.port Port.a sHk3).state ≠ PortState.outOfService ∧
    (State.port Port.a sHk3).breakStart = some 99900 ∧
    sHk3.now ≤ 99900 + 800 ∧
    State.liveCallOf (Endpoint.port Port.a) sHk3 = none ∧
    (State.port Port.a offA).state = PortState.dialtone ∧
    (State.port Port.a offA).window = DigitWindow.first ∧
    offB.calm ∧
    offB.noneHeld ∧
    (State.port Port.b offB).state = PortState.dialtone ∧
    (State.port Port.b offB).window = DigitWindow.first ∧
    sCo.calm ∧ sCo.noneHeld ∧ sCo.cfl.state = .ready ∧ (State.port .b sCo).state = .onHook ∧
    State.targetCall .b sCo = none ∧ sCo.vsw.line = .seized ∧ State.coAnswered .b sCo = some cCo.id ∧
    sCo.cct.calls = [cCo] ∧ cCo.id ≠ 0 ∧ cCo.kind = .outside ∧ cCo.state = .active ∧
    cCo.parties = [{ who := .port (otherPort .b), mark := .connected }] ∧ sCo.cfl.record.joinAllowed = true ∧
    cCo.rung = none ∧ 18 ≤ sCo.pins.current .b := by
  repeat' apply And.intro
  all_goals decide +kernel

theorem witness_PortTimersRunOut :
    sPt2.portsSilent ∧ offA.portsSilent ∧ sPt4.portsSilent ∧ sPf1.portsSilent ∧ sPf2.portsSilent ∧
    sPt1.calm ∧
    sPt1.noneHeld ∧
    sPt1.now ≤ 103000 ∧
    (State.port Port.a sPt1).firstDigitTimer = some 103000 ∧
    (State.port Port.a sPt1).pulses = 0 ∧
    (State.port Port.a sPt1).breakStart = none ∧
    sPt2.calm ∧
    sPt2.noneHeld ∧
    sPt2.now ≤ 103000 ∧
    (State.port Port.b sPt2).interDigitTimer = some 103000 ∧
    offA.calm ∧
    offA.noneHeld ∧
    offA.now ≤ 110000 ∧
    (State.port Port.a offA).offHookTimer = some 110000 ∧
    offA.cct.deferred = [] ∧
    sPt4.calm ∧
    sPt4.noneHeld ∧
    sPt4.now ≤ 110000 ∧
    (State.port Port.a sPt4).howlerTimer = some 110000 ∧
    sPt4.flt.entries.length < 16 ∧
    sPf1.calm ∧
    sPf1.now ≤ 100300 ∧
    (State.port Port.a sPf1).postFlashTimer = some 100300 ∧
    (State.port Port.a sPf1).window = DigitWindow.postFlash ∧
    (State.port Port.a sPf1).pulses = 0 ∧
    (State.port Port.a sPf1).breakStart = none ∧
    sPf1.cct.calls = [cP Port.a] ∧
    (cP Port.a).kind = CallKind.outside ∧
    (cP Port.a).state = CallState.held ∧
    (cP Port.a).parties = [{ who := Endpoint.port Port.a, mark := PartyMark.holder }] ∧
    sPf2.calm ∧
    sPf2.now ≤ 100300 ∧
    (State.port Port.b sPf2).postFlashTimer = some 100300 ∧
    (State.port Port.b sPf2).window = DigitWindow.postFlash ∧
    (State.port Port.b sPf2).pulses = 0 ∧
    (State.port Port.b sPf2).breakStart = none ∧
    sPf2.cct.calls = [cP Port.b] ∧
    (cP Port.b).kind = CallKind.outside ∧
    (cP Port.b).state = CallState.held ∧
    (cP Port.b).parties = [{ who := Endpoint.port Port.b, mark := PartyMark.holder }] := by
  repeat' apply And.intro
  all_goals decide +kernel

/-- The converter ON without a burst, 3 s before its idle timer expires. -/
def idling (s : State) : State :=
  s.onSup fun p =>
    { p with
      converter :=
        { state := .on, held := none, burst := none, settleTimer := none, idleTimer := some (s.now + 3000) } }

/-- The idle timer of the converter after a command. -/
def idleAfter (c : Instr) (s : State) : Option Timer :=
  match exec c s with
  | .next t => some t.sup.converter.idleTimer
  | _ => none

/-- R126, R127, R38: an off-hook with no episode running computes the plan, whose demand names no load: the idle timer
restarts at 10 s; the opening of a loop changes no port's state, and the timer runs on. -/
theorem test_off_hook_restarts_the_idle_timer :
    idleAfter (.portLoopClosed .a) (idling sHk1) = some (some (sHk1.now + 10000)) ∧
      idleAfter (.portLoopOpened .a) (idling offA) = some (some (offA.now + 3000)) := by
  decide +kernel

/-- R126, R127, R38: so does a change of supply state. -/
theorem test_mains_loss_restarts_the_idle_timer :
    idleAfter .mainsOkDebounced (idling sMainsOff) = some (some 110100) := by
  decide +kernel

/-- R107, R126: a close that comes first to tell of a break of 900 ms is the on-hook and then the off-hook: the port is
in DIALTONE as before, and each of its two changes of state computes the plan. -/
theorem test_late_close_is_two_events :
    idleAfter (.portLoopClosed .a) (idling (offA.onPort .a fun r => { r with breakStart := some (offA.now - 900) })) =
      some (some (offA.now + 10000)) := by
  decide +kernel

theorem witness_PortsAreChecked :
    (State.port Port.a sPc1).noLoadTimer = some 100200 ∧
    sPc1.now ≤ 100200 ∧
    (State.port Port.b sPc2).noLoadCheck = some 100200 ∧
    sPc2.now ≤ 100200 ∧
    sPc2.flt.entries.length < 16 ∧
    sPc2.lth.stage = Stage.none ∧
    (base.pins.current Port.b < 18 ↔ 17 < 18) ∧
    18 ≤ sPc4.pins.current Port.a ∧
    17 < 18 ∧
    sPc4.cfl.state = ConfigState.ready ∧
    (State.port Port.a sPc4).state ≠ PortState.outOfService ∧
    (State.port Port.a sPc4).offHook = true ∧
    (State.port Port.a sPc4).lowCurrentTimer = none ∧
    State.faultActive FaultCode.portLowCurrent (FaultSource.port Port.a) sPc4 = false ∧
    (State.port Port.a sPc5).lowCurrentTimer = some 101000 ∧
    sPc5.flt.entries.length < 16 ∧
    sPc5.lth.stage = Stage.none := by
  repeat' apply And.intro
  all_goals decide +kernel

theorem witness_LineIsSensedAndMoves :
    base.cfl.state = ConfigState.ready ∧
    base.vsw.line = LineState.idle ∧
    3000 ≤ 3000 ∧
    3000 ≤ 15000 ∧
    base.vsw.offHookBandTimer = none ∧
    15000 ≤ 15000 ∧
    2999 < 3000 ∧
    base.vsw.noFeedTimer = none ∧
    sLs3.cfl.state = ConfigState.ready ∧
    sLs3.vsw.line = LineState.idle ∧
    40000 ≤ 40000 ∧
    base.vsw.inBurst = false ∧
    base.vsw.burstOnTimer = none ∧
    sLs5.cfl.state = ConfigState.ready ∧
    sLs5.vsw.line = LineState.idle ∧
    sLs5.vsw.inBurst = false ∧
    sLn1.now ≤ 100100 ∧
    sLn1.lle.link ≠ LinkState.showtime ∧
    sLn1.lth.stage = Stage.none ∧
    sLn1.vsw.offHookBandTimer = some 100100 ∧
    sLn1.vsw.line = LineState.idle ∧
    sLn2.now ≤ 100100 ∧
    sLn2.lle.link ≠ LinkState.showtime ∧
    sLn2.lth.stage = Stage.none ∧
    sLn2.vsw.onHookBandTimer = some 100100 ∧
    sLn2.vsw.line = LineState.parallel ∧
    sLn3.now ≤ 100100 ∧
    sLn3.lle.link ≠ LinkState.showtime ∧
    sLn3.lth.stage = Stage.none ∧
    sLn3.vsw.releaseTimer = some 100100 ∧
    sLn3.vsw.line = LineState.releasing ∧
    sLn4.now ≤ 100100 ∧
    sLn4.lle.link ≠ LinkState.showtime ∧
    sLn4.lth.stage = Stage.none ∧
    sLn4.vsw.noFeedTimer = some 100100 ∧
    sLn4.vsw.line = LineState.idle ∧
    sLn4.flt.entries.length < 16 ∧
    sLn4.ybi.urgent.length < 4 ∧
    sLn4.routineRoom ∧
    sLn5.now ≤ 100100 ∧
    sLn5.lle.link ≠ LinkState.showtime ∧
    sLn5.lth.stage = Stage.none ∧
    sLn5.vsw.feedTimer = some 100100 ∧
    sLn5.vsw.line = LineState.out ∧
    State.faultActive FaultCode.foreignVoltageHigh FaultSource.line sLn5 = false ∧
    sLn5.ybi.urgent.length < 4 ∧
    sLn5.routineRoom ∧
    sLg1.now ≤ 100100 ∧ sLg1.lle.link = .showtime ∧ sLg1.cfl.record.guardSelection ≠ .ringIn ∧ sLg1.lth.stage = .none ∧
    sLg1.vsw.offHookBandTimer = some 100100 ∧ sLg1.vsw.line = .idle ∧ sLg1.lle.sync.guard = .clear ∧
    sLg1.lle.downInForce = .normal ∧ sLg1.lle.slot = none ∧ sLg1.routineRoom ∧ Ctb.wrapping 12 sLg1.ctb = [] ∧
    sLg2.now ≤ 100100 ∧ sLg2.lle.link = .showtime ∧ sLg2.vsw.offHookBandTimer = some 100100 ∧ sLg2.vsw.line = .idle ∧
    sLg2.lle.sync.guard = .exiting ∧
    sLg3.now ≤ 100100 ∧ sLg3.lle.link = .showtime ∧ sLg3.cfl.record.guardSelection ≠ .ringIn ∧ sLg3.lth.stage = .none ∧
    sLg3.vsw.onHookBandTimer = some 100100 ∧ sLg3.vsw.line = .parallel ∧ sLg3.lle.sync.guard = .active := by
  repeat' apply And.intro
  all_goals decide +kernel

theorem witness_IncomingRingingComesAndGoes :
    sIr1.now ≤ 100100 ∧
    sIr1.lle.link ≠ LinkState.showtime ∧
    sIr1.lth.stage = Stage.none ∧
    sIr1.vsw.burstOnTimer = some 100100 ∧
    sIr1.vsw.line = LineState.idle ∧
    sIr1.cct.calls = [] ∧
    sIr1.sup.supply = SupplyState.mains ∧
    sIr1.vsw.portB.state ≠ PortState.outOfService ∧
    sIr1.vsw.episodes = [] ∧
    sIr2.now ≤ 100100 ∧
    sIr2.lle.link ≠ LinkState.showtime ∧
    sIr2.lth.stage = Stage.none ∧
    sIr2.vsw.burstOffTimer = some 100100 ∧
    sIr2.vsw.line = LineState.ringIn ∧
    sIr3.now ≤ 100100 ∧
    sIr3.lle.link ≠ LinkState.showtime ∧
    sIr3.lth.stage = Stage.none ∧
    sIr3.vsw.ringEndTimer = some 100100 ∧
    sIr3.vsw.line = LineState.ringIn ∧
    sIr3.cct.calls = [cIn] ∧
    cIn.kind = CallKind.outside ∧
    cIn.origin = CallOrigin.incoming ∧
    cIn.state = CallState.setup ∧
    cIn.parties = [] ∧
    sIr3.sup.supply = SupplyState.mains ∧
    sIr3.vsw.portB.state ≠ PortState.outOfService ∧
    Ctb.wrapping 17 sIr3.ctb = [] ∧
    sIr3.routineRoom ∧
    sIr3.vsw.episodes = [epO] ∧ epO.callId = cIn.id ∧ epO.kind = .outside ∧ sIr3.callRoom ∧ sIr3.lineKept = true ∧
    sIg1.now ≤ 100100 ∧ sIg1.lle.link = .showtime ∧ sIg1.cfl.record.guardSelection ≠ .parallel ∧
    sIg1.lth.stage = .none ∧ sIg1.vsw.burstOnTimer = some 100100 ∧ sIg1.vsw.line = .idle ∧
    sIg1.lle.sync.guard = .clear ∧
    sIg2.now ≤ 100100 ∧ sIg2.lle.link = .showtime ∧ sIg2.lth.stage = .none ∧ sIg2.vsw.ringEndTimer = some 100100 ∧
    sIg2.vsw.line = .ringIn ∧ sIg2.lle.sync.guard = .active := by
  repeat' apply And.intro
  all_goals decide +kernel

theorem witness_OutpulsingAndCadence :
    sOp1.vsw.outpulse = some (op 3 PulsePhase.opened) ∧
    sOp1.now ≤ (op 3 PulsePhase.opened).ends ∧
    (op 3 PulsePhase.opened).phase = PulsePhase.opened ∧
    (op 3 PulsePhase.opened).pulsesLeft ≠ 0 ∧
    sOp3.vsw.outpulse = some (op 3 PulsePhase.make) ∧
    sOp3.now ≤ (op 3 PulsePhase.make).ends ∧
    (op 3 PulsePhase.make).phase = PulsePhase.make ∧
    (op 3 PulsePhase.make).pulsesLeft ≠ 0 ∧
    sOp5.vsw.outpulse = some (op 0 PulsePhase.pause) ∧
    sOp5.now ≤ (op 0 PulsePhase.pause).ends ∧
    (op 0 PulsePhase.pause).phase = PulsePhase.pause ∧
    sOp5.vsw.repeatQueue = [] ∧
    sOp6.vsw.outpulse = some (op 0 PulsePhase.pause) ∧
    sOp6.now ≤ (op 0 PulsePhase.pause).ends ∧
    sOp6.vsw.repeatQueue = [dig0, dig4] ∧
    sCd2.vsw.episodes = [ep EpisodeKind.intercom 1] ∧
    (ep EpisodeKind.intercom 1).timer = some 100100 ∧
    sCd2.now ≤ 100100 ∧
    sCd2.sup.converter.state = ConverterState.off ∧
    (ep EpisodeKind.intercom 1).kind = EpisodeKind.intercom ∧
    (ep EpisodeKind.intercom 1).phase % 2 = 1 ∧
    (∃ l ∈ sCd2.vsw.plan.loads, l.callId = (ep EpisodeKind.intercom 1).callId) := by
  repeat' apply And.intro
  all_goals decide +kernel

theorem witness_SurveyPhasesAndItems :
    sSp1.lle.link ≠ LinkState.showtime ∧
    (sSp1.vsw.line = LineState.idle ∨ sSp1.vsw.line = LineState.out) ∧
    sSp1.lth.stage = Stage.waitVoltage ∧
    sSp1.lth.running = some (sv [Item.foreignVoltage, Item.lineVoltage, Item.resistance] (some 5)) ∧
    sSp1.voltageReady = true ∧
    List.find? Item.isVoltage (sv [Item.foreignVoltage, Item.lineVoltage, Item.resistance] (some 5)).remaining =
      some Item.foreignVoltage ∧
    sSp2.lle.link ≠ LinkState.showtime ∧
    (sSp2.vsw.line = LineState.idle ∨ sSp2.vsw.line = LineState.out) ∧
    sSp2.lth.stage = Stage.waitMetallic ∧
    sSp2.lth.running = some (sv [Item.resistance, Item.capacitance] (some 5)) ∧
    State.metallicReady (sv [Item.resistance, Item.capacitance] (some 5)) sSp2 = true ∧
    (sv [Item.resistance, Item.capacitance] (some 5)).allowDrop = false ∧
    List.find? Item.intrusive (sv [Item.resistance, Item.capacitance] (some 5)).remaining = some Item.resistance ∧
    sSp3.lle.link ≠ LinkState.showtime ∧
    (sSp3.vsw.line = LineState.idle ∨ sSp3.vsw.line = LineState.out) ∧
    sSp3.lth.voltageDue = true ∧
    sSp3.lth.lineVoltageDue = false ∧
    sSp3.lth.running = none ∧
    sSp3.lth.pending = none ∧
    sSp3.voltageReady = true ∧
    sIt1.now ≤ 100900 ∧
    sIt1.lth.itemTimer = some 100900 ∧
    sIt1.lth.running = some (sv [Item.lineVoltage] (some 5)) ∧
    sIt1.lle.link ≠ LinkState.showtime ∧
    sIt1.lth.stage = Stage.item Item.lineVoltage ∧
    Survey.nextItem Item.lineVoltage (Survey.endItem Item.lineVoltage ItemStatus.valid (sv [Item.lineVoltage] (some
      5))) = none ∧
    sIt2.now ≤ 100900 ∧
    sIt2.lth.itemTimer = some 100900 ∧
    sIt2.lth.running = some (sv [Item.capacitance] (some 5)) ∧
    sIt2.lle.link ≠ LinkState.showtime ∧
    sIt2.lth.stage = Stage.item Item.capacitance ∧
    sIt2.lth.holderAdded = false ∧
    sIt2.lle.attemptHeld = false ∧
    rd.nanofarad ≤ 1000 ∧
    Survey.nextItem Item.capacitance (Survey.endItem Item.capacitance ItemStatus.valid (sv [Item.capacitance] (some
      5))) = none := by
  repeat' apply And.intro
  all_goals decide +kernel

theorem witness_ItemsWriteTheirEntries :
    sIt1.lth.stage = .item .lineVoltage ∧ sIt1.lth.itemTimer = some 100900 ∧
    Item.resistance ≠ .lineVoltage := by decide +kernel

theorem witness_SurveyEnds :
    sSd1.now ≤ 100200 ∧
    sSd1.lth.restoreTimer = some 100200 ∧
    sSd1.lth.running = some svE ∧
    svE.remaining = [] ∧
    svE.originator = some 5 ∧
    svE.merged = [] ∧
    sSd1.lth.pending = none ∧
    sSd1.cct.deferred = [] ∧
    sSd1.vsw.line = LineState.test ∧
    sSd1.lle.link ≠ LinkState.showtime ∧
    sSd1.ybi.listenOnly = false ∧
    sSd1.ybi.routine = [] ∧
    sSd1.vsw.inBurst = false ∧
    sSd2.now ≤ 120000 ∧
    sSd2.lth.waitTimer = some 120000 ∧
    sSd2.lth.running = some (sv [Item.lineVoltage, Item.resistance] (some 5)) ∧
    (sv [Item.lineVoltage, Item.resistance] (some 5)).originator = some 5 ∧
    (sv [Item.lineVoltage, Item.resistance] (some 5)).merged = [] ∧
    sSd2.lth.pending = none ∧
    sSd2.routineRoom ∧
    sSd2.lle.link ≠ LinkState.showtime ∧
    sSd3.now ≤ 100100 ∧
    sSd3.vsw.line = LineState.test ∧
    sSd3.vsw.burstOnTimer = some 100100 ∧
    sSd3.lth.stage = Stage.item Item.foreignVoltage ∧
    sSd3.lth.running = some (sv [Item.foreignVoltage, Item.lineVoltage] (some 5)) ∧
    sSd3.lle.link ≠ LinkState.showtime := by
  repeat' apply And.intro
  all_goals decide +kernel

theorem witness_SlowTimersExpire :
    sSl1.lth.stage = Stage.none ∧
    sSl1.lth.holdOffTimer = some 300000 ∧
    sSl2.lth.stage = Stage.none ∧
    sSl2.lth.periodicTimer = some 300000 ∧
    sSl3.lth.stage = Stage.none ∧
    sSl3.lth.recheckTimer = some 300000 ∧
    sSl4.lth.stage = Stage.none ∧
    sSl4.flt.flashTimer = some 100300 := by
  repeat' apply And.intro
  all_goals decide +kernel

theorem witness_BitsOfATone :
    headroom 70 30 < 24 ∧
    2 ≤ 12 ∧
    70 ≤ 255 ∧
    12 ≤ 30 ∧
    30 ≤ 168 ∧
    30 ≤ 31 ∧
    30 ≤ 38 ∧
    30 ≤ 100 ∧
    30 ≤ 255 ∧
    headroom 0 168 < 24 ∧
    2 ≤ 2 ∧
    0 ≤ 255 ∧
    12 ≤ 168 ∧
    168 ≤ 168 ∧
    168 ≤ 255 := by
  repeat' apply And.intro
  all_goals decide +kernel

theorem witness_MarginsOfTones :
    toneMargin 100 (toneBits 12 24 100) = some 26 ∧ toneMargin 255 2 = some 193 ∧ toneMargin 0 12 = some (-182) := by
  decide +kernel

theorem witness_EncodingsReadBack :
    [0xA5, 0x3C] ≠ ([] : List Byte) ∧
    1 ≤ 3 ∧
    3 ≤ 24 ∧
    3 ≠ 5 ∧
    (grantFrame 9 1 2 3).dest ≤ 24 ∧
    (grantFrame 9 1 2 3).body.length ≤ 24 ∧
    ConfigRecord.default.inRange = true ∧
    managementPlaces ConfigRecord.default.management = ConfigRecord.default.management ∧
    ConfigRecord.default.counterEvents.length = 6 ∧
    (∀ n ∈ ConfigRecord.default.counterEvents, n ≤ 255) ∧
    recC.inRange = true ∧
    managementPlaces recC.management = recC.management ∧
    recC.counterEvents.length = 6 ∧
    (∀ n ∈ recC.counterEvents, n ≤ 255) := by
  repeat' apply And.intro
  all_goals decide +kernel

theorem witness_CommandsLeaveTheQueue : ∃ t, exec .yieldEnd base = .next t := ⟨_, rfl⟩

theorem witness_EveryStepKeepsTheCapacities :
    State.reset.fits = true ∧ base.fits = true ∧ showing.fits = true ∧ ∃ t, step showing = .next t :=
  ⟨by decide +kernel, by decide +kernel, by decide +kernel, _, rfl⟩

/-- The converter drives port A and station 5 on mains. -/
def sRinging : State :=
  base.onSup fun p =>
    { p with
      converter :=
        { state := .on, held := none, burst := some [loadA, load5], settleTimer := none, idleTimer := none } }

theorem witness_EveryStepKeepsRingingWithinCapacity :
    State.reset.ringsWithin = true ∧ sRinging.ringsWithin = true ∧ ∃ t, step sRinging = .next t :=
  ⟨by decide +kernel, by decide +kernel, _, rfl⟩

theorem witness_RecordAndAddressStand :
    (∃ t, exec .yieldEnd base = .next t) ∧ (∃ t, exec (.configReadDone none) sLoading = .next t) ∧
      (∀ straps mainsOk battLow, Instr.yieldEnd ≠ .deviceReset straps mainsOk battLow) ∧
      ∀ memory, Instr.yieldEnd ≠ .configReadDone memory :=
  ⟨⟨_, rfl⟩, ⟨_, rfl⟩, nofun, nofun⟩

/-- In listen-only, silent as R5 has it. -/
def sMute : State := bare.onYbi fun y => { y with listenOnly := true }

theorem witness_ListenOnlyStaysMute :
    (∃ t, exec .yieldEnd sMute = .next t) ∧ sMute.ybi.listenOnly = true ∧ sMute.ybi.urgent = [] ∧ sMute.ybi.call = [] ∧
      sMute.ybi.routine = [] ∧ sMute.ybi.stream = none ∧
      ∀ straps mainsOk battLow, Instr.yieldEnd ≠ .deviceReset straps mainsOk battLow :=
  ⟨⟨_, rfl⟩, by decide, by decide, by decide, by decide, by decide, nofun⟩

theorem witness_RecordedSnrIsSmoothed : (255 : Nat) ≤ 255 ∧ (0 : Int) ≤ 255 ∧ (-1 : Int) < 0 ∧ (255 : Int) < 256 := by decide

theorem witness_NetRateOfATable :
    (500 : Nat) ≤ 512 ∧ (1 : Nat) ≤ 2 ∧ (List.replicate 336 12).length = 336 ∧ (∀ b ∈ List.replicate 336 12, b ≤ 12) ∧
      bitTotal (List.replicate 336 12) = 4032 := by
  decide +kernel

theorem witness_LiftAndShieldDepth :
    Lle.reset.d ≤ ConfigRecord.default.dMax ∧ min 1 ConfigRecord.default.dMax ≤ Lle.reset.d ∧
      Lle.reset.d < min 2 ConfigRecord.default.dMax ∧ ConfigRecord.default.rateFloor ≤ showing.lle.rate := by
  decide +kernel

theorem witness_SummaryIsTheHighestActive :
    base.fits = true ∧ (∃ t, step base = .next t) ∧ ∃ e ∈ base.flt.entries, e.active = true :=
  ⟨by decide +kernel, ⟨_, rfl⟩, by decide +kernel⟩

theorem witness_NewCallIdIsFree : sAnswer6.cct.calls.length ≤ 4 := by decide +kernel

/-- A table of 16: the two supply faults, INACTIVE, before fourteen lost stations, ACTIVE. -/
def fullTable (ended : Bool) : Flt :=
  table ([oldFault { code := .supplyOnBattery, source := .supply } (!ended),
    oldFault { code := .loopOpen, source := .line } (!ended)] ++
      (List.range 14).map fun n => oldFault { code := .stationLost, source := .station (n + 3) } true)

theorem witness_FullTableMakesRoom :
    (fullTable true).sized = true ∧ (fullTable true).entries.length = 16 ∧ (fullTable false).sized = true ∧
      (fullTable false).entries.length = 16 ∧
      (fullTable true).find { code := .fenceImpulse, source := .line } = none ∧
      (fullTable false).find { code := .fenceImpulse, source := .line } = none ∧
      (fullTable false).find { code := .ringOverload, source := .pair } = none ∧
      (∀ x ∈ (fullTable false).entries, x.isProtected = false → x.active = true) ∧
      (∀ e ∈ (fullTable true).entries, e.key.listed = true) ∧
      (∃ e ∈ (fullTable true).entries, e.isProtected = true) := by
  decide +kernel

/-- Section 9.3: an OUT entry that has ended is protected, so the other INACTIVE entry goes. -/
theorem test_full_table_spares_out :
    (((fullTable true).raised { code := .fenceImpulse, source := .line } 0 30).1.entries.map (·.key.code)).take 2 =
      [.loopOpen, .stationLost] := by
  decide +kernel

/-- R141, R110: with the line in RING_IN a port that the plan leaves unrung may answer at the instant of the other. -/
theorem test_unrung_port_may_answer :
    ((lineAt .ringIn base).markCoAnswer .a 6).vsw.coAnswer = some { port := .b, callId := 6, instant := 100000 } := by
  decide +kernel

def sFull : State := base.onYbi fun y => { y with rxBuffer := List.replicate 4 (dl 7 (.query .link)) }

/-- R134: a PAIR-mode station is busy while the pair carries a call of others; once it is ABSENT it is not busy but
absent. -/
theorem test_absent_station_is_not_busy :
    sRel.busy none (.station 7) = true ∧
      (sRel.onEntry 7 fun e => { e with present := false }).busy none (.station 7) = false ∧
      (sRel.onEntry 7 fun e => { e with present := false }).absent (.station 7) = true := by
  decide +kernel

/-- R202: LEN is checked before the receive buffer: a short GRANT overheard by a full part is not counted, and a short
HOOK is refused. -/
theorem test_len_before_the_buffer :
    sFull.deliver { dest := 9, src := 9, code := Kind.grant.code, body := [] } .grant = sFull ∧
      (sFull.deliver { dest := 2, src := 7, code := Kind.hook.code, body := [] } .hook).ybi.call =
        sFull.ybi.call ++ [refuseFrame 7 .hook .badRequest 0] ∧
      (sFull.deliver { dest := 2, src := 7, code := Kind.hook.code, body := [] } .hook).ctb = sFull.ctb := by
  decide +kernel

theorem witness_EveryStepKeepsLinkAndLineInStep :
    (State.reset.linkKept && State.reset.lineKept && base.fits && base.linkKept && showing.fits && showing.linkKept &&
      sIr3.fits && sIr3.lineKept && sOc5i.fits && sOc5i.lineKept && sRel.lineKept && sWe2.linkKept && onLow.linkKept) = true := by
  decide +kernel

theorem witness_showing_steps : ∃ t, step showing = .next t := ⟨_, rfl⟩

end Sys2Proof.Tests
end

section
/-! The proofs of chapter 4, the loading arithmetic: one layer of facts about the headroom and the bits of a tone, the
margins and the rates, and the statements of R68, R70 and R72 assembled from it. -/

namespace Sys2Proof.Proofs.Loading

open Sys2Proof Sys2Proof.Machine

/-! ### Headroom and bits of a tone (R68) -/

theorem headroom_eq (snr margin : Nat) : headroom snr margin = (snr : Int) - 38 - margin := rfl

/-- Below the threshold of 24 a tone is not loaded. -/
theorem toneBits_of_headroom_lt (bmax : Nat) {margin snr : Nat} (low : headroom snr margin < 24) :
    toneBits bmax margin snr = 0 :=
  if_pos low

/-- From the threshold on the quotient is not negative, so that taking it as a natural number loses nothing. -/
theorem toneBits_of_le_headroom (bmax : Nat) {margin snr : Nat} (enough : 24 ≤ headroom snr margin) :
    (toneBits bmax margin snr : Int) = min (bmax : Int) (headroom snr margin / 12) := by
  have quotient : 0 ≤ headroom snr margin / 12 := by omega
  have loaded : toneBits bmax margin snr = min bmax (headroom snr margin / 12).toNat := if_neg (not_lt.mpr enough)
  rw [loaded, Nat.cast_min, Int.toNat_of_nonneg quotient]

/-- R68: a tone never carries exactly 1 bit. -/
theorem toneBits_eq_zero_or_mem_range {bmax : Nat} (two : 2 ≤ bmax) (margin snr : Nat) :
    toneBits bmax margin snr = 0 ∨ (2 ≤ toneBits bmax margin snr ∧ toneBits bmax margin snr ≤ bmax) := by
  rcases lt_or_ge (headroom snr margin) 24 with low | enough
  · exact .inl (toneBits_of_headroom_lt bmax low)
  · have value := toneBits_of_le_headroom bmax enough
    omega

/-- Each bit of a loaded tone is paid for by 12 of its headroom. -/
theorem twelve_mul_toneBits_le_headroom {bmax margin snr : Nat} (loaded : toneBits bmax margin snr ≠ 0) :
    12 * (toneBits bmax margin snr : Int) ≤ headroom snr margin := by
  rcases lt_or_ge (headroom snr margin) 24 with low | enough
  · exact absurd (toneBits_of_headroom_lt bmax low) loaded
  · have value := toneBits_of_le_headroom bmax enough
    omega

theorem headroom_antitone (snr : Nat) {margin margin' : Nat} (more : margin ≤ margin') :
    headroom snr margin' ≤ headroom snr margin := by
  rw [headroom_eq, headroom_eq]
  omega

theorem toneBits_antitone (bmax snr : Nat) {margin margin' : Nat} (more : margin ≤ margin') :
    toneBits bmax margin' snr ≤ toneBits bmax margin snr := by
  have less := headroom_antitone snr more
  rcases lt_or_ge (headroom snr margin') 24 with low | enough
  · exact (toneBits_of_headroom_lt bmax low).trans_le (Nat.zero_le _)
  · have value' := toneBits_of_le_headroom bmax enough
    have value := toneBits_of_le_headroom bmax (enough.trans less)
    omega

theorem downBits_of_lt (l : List Nat) {tone : Nat} (upstream : tone < 48) : downBits l tone = 0 :=
  if_pos upstream

/-- A downstream table lists the tones from 48 on. -/
theorem downBits_firstDownTone_add (l : List Nat) (i : Nat) : downBits l (48 + i) = l.getD i 0 := by
  rw [downBits, if_neg (by omega), Nat.add_sub_cancel_left]

theorem getD_tableBits (t : TableName) (r : ConfigRecord) (e leak : Nat) {i : Nat} {snr : List Nat}
    (listed : i < snr.length) :
    (tableBits t r e leak snr).getD i 0 = toneBits r.bmax (effectiveMargin t r e leak) (snr.getD i 0) := by
  simp [tableBits, listed]

/-- Settles O51: a case split at the threshold of 24, where the bits become the quotient of the headroom. -/
theorem bitsOfATone : Obligations.BitsOfATone := by
  intro bmax m snr
  refine ⟨headroom_eq snr m, toneBits_of_headroom_lt bmax, toneBits_of_le_headroom bmax,
    fun two => toneBits_eq_zero_or_mem_range two m snr, fun hsnr low high => ?_,
    fun _ more _ => toneBits_antitone bmax snr more, fun l _ => downBits_of_lt l, fun t r e leak i l listed => ?_⟩
  · rw [headroom_eq]
    omega
  · rw [downBits_firstDownTone_add, getD_tableBits t r e leak listed]

/-! ### Margins (R70) -/

theorem toneMargin_eq (snr bits : Nat) :
    toneMargin snr bits = if bits = 0 then none else some ((snr : Int) - 38 - 12 * bits) := rfl

theorem toneMargin_eq_some_iff {snr bits : Nat} {x : Int} :
    toneMargin snr bits = some x ↔ bits ≠ 0 ∧ (snr : Int) - 38 - 12 * bits = x := by
  simp [toneMargin_eq]

/-- R70: just after loading, the tone margin is the effective margin and what the headroom leaves over. -/
theorem le_toneMargin_toneBits {bmax margin snr : Nat} {x : Int}
    (h : toneMargin snr (toneBits bmax margin snr) = some x) : (margin : Int) ≤ x := by
  obtain ⟨loaded, rfl⟩ := toneMargin_eq_some_iff.mp h
  have paid := twelve_mul_toneBits_le_headroom loaded
  rw [headroom_eq] at paid
  omega

theorem lesser_eq_or (a b : Option Int) : lesser a b = a ∨ lesser a b = b := by
  cases a with
  | none => exact .inr rfl
  | some x =>
    cases b with
    | none => exact .inl rfl
    | some y => exact (min_choice x y).imp (congrArg some) (congrArg some)

theorem lesser_eq_none_iff {a b : Option Int} : lesser a b = none ↔ a = none ∧ b = none := by
  cases a <;> cases b <;> simp [lesser]

theorem lesser_comm (a b : Option Int) : lesser a b = lesser b a := by
  cases a <;> cases b <;> simp [lesser, min_comm]

theorem lesser_some_le (y : Int) (b : Option Int) : ∃ z, lesser (some y) b = some z ∧ z ≤ y := by
  cases b with
  | none => exact ⟨y, rfl, le_rfl⟩
  | some x => exact ⟨min y x, rfl, min_le_left y x⟩

/-- The first two margins of a list may be replaced by the lesser of them: the smallest one stays the same. -/
theorem isLeast_cons_cons_of_lesser {a b : Option Int} {l : List (Option Int)} {x : Int}
    (h : IsLeast {y | some y ∈ lesser a b :: l} x) : IsLeast {y | some y ∈ a :: b :: l} x := by
  obtain ⟨found, least⟩ := h
  have le_of_lesser : ∀ y z, lesser a b = some z → z ≤ y → x ≤ y := fun y z hz hle =>
    (least (List.mem_cons.mpr (.inl hz.symm))).trans hle
  constructor
  · rcases List.mem_cons.mp found with first | rest
    · rcases lesser_eq_or a b with eq | eq <;> simp [first, eq]
    · exact List.mem_cons_of_mem _ (List.mem_cons_of_mem _ rest)
  · intro y hy
    rcases List.mem_cons.mp hy with rfl | hy
    · obtain ⟨z, hz, hle⟩ := lesser_some_le y b
      exact le_of_lesser y z hz hle
    · rcases List.mem_cons.mp hy with rfl | rest
      · obtain ⟨z, hz, hle⟩ := lesser_some_le y a
        exact le_of_lesser y z ((lesser_comm a (some y)).trans hz) hle
      · exact least (List.mem_cons_of_mem _ rest)

/-- With the margin met so far put before the list, the fold finds the least of them all. -/
theorem isLeast_of_foldl_lesser {l : List (Option Int)} {a : Option Int} {x : Int}
    (h : l.foldl lesser a = some x) : IsLeast {y | some y ∈ a :: l} x := by
  induction l generalizing a with
  | nil =>
    obtain rfl : a = some x := h
    simp [IsLeast, lowerBounds]
  | cons b l ih => exact isLeast_cons_cons_of_lesser (ih h)

theorem foldl_lesser_eq_none_iff {l : List (Option Int)} {a : Option Int} :
    l.foldl lesser a = none ↔ a = none ∧ ∀ b ∈ l, b = none := by
  induction l generalizing a with
  | nil => simp
  | cons b l ih => rw [List.foldl_cons, ih, lesser_eq_none_iff, List.forall_mem_cons, and_assoc]

theorem smallestMargin_isLeast {snr bits : List Nat} {x : Int} (h : smallestMargin snr bits = some x) :
    IsLeast {y | some y ∈ List.zipWith toneMargin snr bits} x := by
  simpa using isLeast_of_foldl_lesser h

theorem smallestMargin_eq_none_iff (snr bits : List Nat) :
    smallestMargin snr bits = none ↔ ∀ y, some y ∉ List.zipWith toneMargin snr bits := by
  rw [smallestMargin, foldl_lesser_eq_none_iff]
  constructor
  · rintro ⟨-, unloaded⟩ y hy
    exact Option.some_ne_none y (unloaded _ hy)
  · exact fun unloaded => ⟨rfl, fun b hb => Option.eq_none_iff_forall_ne_some.mpr fun y hby => unloaded y (hby ▸ hb)⟩

/-- Settles O52: the fold over the tone margins finds the least, and the headroom pays for the bits of a tone. -/
theorem marginsOfTones : Obligations.MarginsOfTones := by
  refine ⟨toneMargin_eq, fun snr bits x h => ?_, smallestMargin_eq_none_iff, fun snr bits x hsnr hbits two h => ?_,
    fun _ _ _ _ => le_toneMargin_toneBits⟩
  · obtain ⟨found, least⟩ := smallestMargin_isLeast h
    exact ⟨found, fun y hy => least hy⟩
  · obtain ⟨-, rfl⟩ := toneMargin_eq_some_iff.mp h
    omega

/-! ### Rates (R72) -/

theorem bitTotal_eq_sum (l : List Nat) : bitTotal l = l.sum := List.sum_eq_foldl.symm

/-- 336 downstream tones of at most 12 bits each. -/
theorem bitTotal_le {l : List Nat} (length : l.length = 336) (twelve : ∀ b ∈ l, b ≤ 12) : bitTotal l ≤ 4032 :=
  calc bitTotal l = l.sum := bitTotal_eq_sum l
    _ ≤ l.length • 12 := List.sum_le_card_nsmul l 12 twelve
    _ = 4032 := by rw [length]; rfl

/-- R72: the formula in bit/s, multiplied out before its two divisions, gives the net rate exactly. -/
theorem netRate_eq_bitsPerSecond (b d : Nat) : netRate b d = 4000 * b * (64 - (2 + 4 * d)) / 64 / 1000 :=
  calc netRate b d = b * (64 - (2 + 4 * d)) / 16 := rfl
    _ = 4000 * (b * (64 - (2 + 4 * d))) / (4000 * 16) := (Nat.mul_div_mul_left _ _ (by decide)).symm
    _ = 4000 * b * (64 - (2 + 4 * d)) / 64 / 1000 := by rw [Nat.div_div_eq_div_mul, Nat.mul_assoc]

theorem netRate_zero (d : Nat) : netRate 0 d = 0 := by
  rw [netRate, Nat.zero_mul, Nat.zero_div]

theorem netRate_mono_bits (d : Nat) {b b' : Nat} (more : b ≤ b') : netRate b d ≤ netRate b' d :=
  Nat.div_le_div_right (Nat.mul_le_mul_right _ more)

theorem netRate_antitone_depth (b : Nat) {d d' : Nat} (deeper : d ≤ d') : netRate b d' ≤ netRate b d := by
  have fewer : 64 - (2 + 4 * d') ≤ 64 - (2 + 4 * d) := by omega
  exact Nat.div_le_div_right (Nat.mul_le_mul_left b fewer)

/-- Settles O54: both forms of the net rate agree by cancelling 4000, and its monotony is that of the product. -/
theorem netRateOfATable : Obligations.NetRateOfATable :=
  ⟨fun l => ⟨bitTotal_eq_sum l, bitTotal_le⟩,
    fun b d => ⟨netRate_eq_bitsPerSecond b d, rfl, netRate_zero d, fun _ => netRate_mono_bits d,
      fun _ => netRate_antitone_depth b⟩,
    fun _ => ⟨rfl, rfl⟩⟩

end Sys2Proof.Proofs.Loading
end

section
/-! The proofs of chapter 9, part one: what the shared operations of the blocks do to the fault table. `TableFits s`
says that the fault table of `s` is sized, with the summary severity of its ACTIVE entries and the lamp that follows
it (R175, R181, R182). One lemma per operation, in the form "what fits, fits after the operation", so that a proof about
a command applies them one after the other. -/

namespace Sys2Proof.Proofs.Faults

open Sys2Proof Sys2Proof.Machine

/-- The fault table of the state is as R175, R181 and R182 have it. -/
def TableFits (s : State) : Prop := s.flt.fits = true

variable {s t : State}

theorem TableFits.summary_eq (h : TableFits s) : s.flt.summary = summaryOf s.flt.entries := by
  unfold TableFits Flt.fits at h
  simp only [Bool.and_eq_true, decide_eq_true_eq] at h
  obtain ⟨⟨-, summary⟩, -⟩ := h
  exact summary

theorem tableFits_of_fits (h : s.fits = true) : TableFits s := by
  unfold State.fits at h
  simp only [Bool.and_eq_true] at h
  obtain ⟨⟨-, table⟩, -⟩ := h
  exact table

/-! ### The modifiers, choices and repetitions -/

theorem TableFits.onPins {f : Pins → Pins} (h : TableFits s) : TableFits (s.onPins f) := h
theorem TableFits.onYbi {f : Ybi → Ybi} (h : TableFits s) : TableFits (s.onYbi f) := h
theorem TableFits.onCfl {f : Cfl → Cfl} (h : TableFits s) : TableFits (s.onCfl f) := h
theorem TableFits.onSup {f : Sup → Sup} (h : TableFits s) : TableFits (s.onSup f) := h
theorem TableFits.onLle {f : Lle → Lle} (h : TableFits s) : TableFits (s.onLle f) := h
theorem TableFits.onSync {f : Showtime → Showtime} (h : TableFits s) : TableFits (s.onSync f) := h
theorem TableFits.onPlp {f : Plp → Plp} (h : TableFits s) : TableFits (s.onPlp f) := h
theorem TableFits.onVsw {f : Vsw → Vsw} (h : TableFits s) : TableFits (s.onVsw f) := h
theorem TableFits.onCct {f : Cct → Cct} (h : TableFits s) : TableFits (s.onCct f) := h
theorem TableFits.onLth {f : Lth → Lth} (h : TableFits s) : TableFits (s.onLth f) := h
theorem TableFits.onCtb {f : Ctb → Ctb} (h : TableFits s) : TableFits (s.onCtb f) := h

theorem TableFits.onFlt {f : Flt → Flt} (h : TableFits s) (hf : s.flt.fits = true → (f s.flt).fits = true) :
    TableFits (s.onFlt f) :=
  hf h

theorem TableFits.ite {c : Prop} [Decidable c] (hs : TableFits s) (ht : TableFits t) :
    TableFits (if c then s else t) := by
  split
  · exact hs
  · exact ht

theorem TableFits.foldl {α : Type} {f : State → α → State} (hf : ∀ s a, TableFits s → TableFits (f s a)) (l : List α)
    (h : TableFits s) : TableFits (l.foldl f s) := by
  induction l generalizing s with
  | nil => exact h
  | cons a l ih => exact ih (hf s a h)

theorem TableFits.repeat {f : State → State} (hf : ∀ s, TableFits s → TableFits (f s)) (n : Nat) (h : TableFits s) :
    TableFits (Nat.repeat f n s) := by
  induction n with
  | zero => exact h
  | succ n ih => exact hf _ ih

/-! ### The clock -/

theorem TableFits.reach {d : Nat} (h : TableFits s) : TableFits (s.reach d) := TableFits.ite h h

theorem TableFits.onExpiry {d : Timer} {f : State → State} (h : TableFits s)
    (hf : ∀ s, TableFits s → TableFits (f s)) : TableFits (s.onExpiry d f) := by
  cases d with
  | none => exact h
  | some d => exact hf _ h.reach

/-! ### Notices, events and discards -/

theorem TableFits.noticeRoutine {e : FaultEntry} (h : TableFits s) : TableFits (s.noticeRoutine e) := by
  unfold State.noticeRoutine
  refine TableFits.ite h ?_
  dsimp only
  split
  · exact h.onYbi
  · exact TableFits.ite h.onYbi (TableFits.ite h (h.onFlt id))

theorem TableFits.backlog (h : TableFits s) : TableFits s.backlog := by
  have raised : TableFits ((s.onFlt fun _ => (s.flt.raised backlogKey s.now s.uptime).1).onYbi fun y =>
      { y with backlogTimer := some (s.now + Config.backlogMs) }) :=
    (h.onFlt (raised_fits _ _)).onYbi
  unfold State.backlog
  dsimp only
  split
  · exact raised.noticeRoutine
  · exact raised

theorem TableFits.handWrap {dropped : State → State} {f : TxFrame} (h : TableFits s) (hd : TableFits (dropped s)) :
    TableFits (s.handWrap dropped f) :=
  TableFits.ite h (TableFits.ite h.onYbi hd)

theorem TableFits.signalFuel (fuel : Nat) {e : Event} (h : TableFits s) : TableFits (State.signalFuel fuel e s) := by
  induction fuel generalizing e s with
  | zero => exact h.onCtb
  | succ fuel ih => exact TableFits.foldl (fun _ _ hs => hs.handWrap (ih hs).backlog) _ h.onCtb

theorem TableFits.signal {e : Event} (h : TableFits s) : TableFits (s.signal e) := h.signalFuel 9

theorem TableFits.signalTimes (n : Nat) {e : Event} (h : TableFits s) : TableFits (State.signalTimes n e s) := by
  induction n generalizing s with
  | zero => exact h
  | succ n ih => exact ih h.signal

theorem TableFits.frameDropped (h : TableFits s) : TableFits s.frameDropped := h.signal.backlog

/-! ### Handing a frame to the YBI -/

theorem TableFits.handUrgent {f : TxFrame} (h : TableFits s) : TableFits (s.handUrgent f) :=
  TableFits.ite h (TableFits.ite h h.onYbi.frameDropped).onYbi

theorem TableFits.handCall {f : TxFrame} (h : TableFits s) : TableFits (s.handCall f) :=
  TableFits.ite h (TableFits.ite h.onYbi h.frameDropped)

theorem TableFits.handRoutine {f : TxFrame} (h : TableFits s) : TableFits (s.handRoutine f) := by
  unfold State.handRoutine
  refine TableFits.ite h ?_
  split
  · exact h.onYbi
  · exact TableFits.ite h.onYbi h.frameDropped

/-! ### Faults -/

theorem TableFits.notice {k : FaultKey} (h : TableFits s) : TableFits (s.notice k) := by
  unfold State.notice
  split
  · exact h
  · exact TableFits.ite h.handUrgent h.noticeRoutine

theorem TableFits.applyFault {k : FaultKey} {r : Flt × Bool} (h : TableFits s)
    (hr : s.flt.fits = true → r.1.fits = true) : TableFits (s.applyFault k r) :=
  TableFits.ite (h.onFlt hr).notice (h.onFlt hr)

theorem TableFits.raise {c : FaultCode} {x : FaultSource} (h : TableFits s) : TableFits (s.raise c x) :=
  h.applyFault (raised_fits _ _)

theorem TableFits.makeInactive {c : FaultCode} {x : FaultSource} (h : TableFits s) : TableFits (s.makeInactive c x) :=
  h.applyFault (madeInactive_fits _ _)

theorem TableFits.protocolFault {n : Nat} (h : TableFits s) : TableFits (s.protocolFault n) :=
  h.applyFault (pulsed_fits _ _)

theorem TableFits.raiseUnlessActive {c : FaultCode} {x : FaultSource} (h : TableFits s) :
    TableFits (s.raiseUnlessActive c x) :=
  TableFits.ite h h.raise

/-! ### Reply streams, replies, and what leaves the table alone -/

theorem TableFits.pumpStream (h : TableFits s) : TableFits s.pumpStream := by
  unfold State.pumpStream
  split
  · exact h
  · split
    · exact h
    · exact h.onYbi
    · exact TableFits.ite h.onYbi h

theorem TableFits.startStream {l : List TxFrame} (h : TableFits s) : TableFits (s.startStream l) :=
  TableFits.ite h h.onYbi.pumpStream

theorem TableFits.handOwed (h : TableFits s) : TableFits s.handOwed := by
  unfold State.handOwed
  split
  · exact h
  · refine TableFits.ite ?_ h
    dsimp only
    split
    · exact h.onFlt id
    · exact (h.onFlt id).noticeRoutine

theorem TableFits.refuse {n : Nat} {k : Kind} {r : RefuseReason} {tag : Nat} (h : TableFits s) :
    TableFits (s.refuse n k r tag) :=
  h.handCall

theorem TableFits.done {n : Nat} {k : Kind} (h : TableFits s) : TableFits (s.done n k) := h.handRoutine
theorem TableFits.report {n : Nat} {b : List Byte} (h : TableFits s) : TableFits (s.report n b) := h.handRoutine
theorem TableFits.lineStatus (h : TableFits s) : TableFits s.lineStatus := h.handRoutine

theorem TableFits.onEntry {n : Nat} {g : PresenceEntry → PresenceEntry} (h : TableFits s) : TableFits (s.onEntry n g) :=
  h
theorem TableFits.clearExpectation {n : Nat} (h : TableFits s) : TableFits (s.clearExpectation n) := h
theorem TableFits.popRequest (h : TableFits s) : TableFits s.popRequest := h

theorem TableFits.onPort {p : Port} {f : PortRec → PortRec} (h : TableFits s) : TableFits (s.onPort p f) := by
  cases p with
  | a => exact h.onVsw
  | b => exact h.onVsw

end Sys2Proof.Proofs.Faults
end

section
/-! The proofs of chapter 9, part two: what the line link (chapter 3), the showtime state (chapter 5), the outside line
and the survey (chapter 8) do to the fault table. -/

namespace Sys2Proof.Proofs.Faults

open Sys2Proof Sys2Proof.Machine

variable {s : State}

/-! ### Leaving and entering a link state -/

theorem TableFits.sayFar {m : FarMessage} (h : TableFits s) : TableFits (s.sayFar m) := h

theorem TableFits.departShowtime {r : DropReason} {x : LinkState} (h : TableFits s) :
    TableFits (s.departShowtime r x) :=
  have cut := h.onLle.signal.onLle.onPlp
  (cut.repeat (fun _ => TableFits.frameDropped) _).onLle.makeInactive.makeInactive.lineStatus

theorem TableFits.leaveLink {r : DropReason} {x : LinkState} (h : TableFits s) : TableFits (s.leaveLink r x) := by
  unfold State.leaveLink
  split
  · exact h.departShowtime
  · exact h.onLle.makeInactive
  · exact h.onLle

theorem TableFits.enterDown {r : DropReason} (h : TableFits s) : TableFits (s.enterDown r) := h.leaveLink.onLle
theorem TableFits.enterQuiet (h : TableFits s) : TableFits s.enterQuiet := h.leaveLink.onLle

theorem TableFits.enterRetrainWait {r : DropReason} {ms : Nat} (h : TableFits s) :
    TableFits (s.enterRetrainWait r ms) :=
  h.leaveLink.onLle

theorem TableFits.enterLockout (h : TableFits s) : TableFits s.enterLockout := h.leaveLink.onLle.raise
theorem TableFits.drop {r : DropReason} (h : TableFits s) : TableFits (s.drop r) := h.enterRetrainWait

theorem TableFits.trainingFailure {r : FailureReason} (h : TableFits s) : TableFits (s.trainingFailure r) :=
  TableFits.ite h.onLle.signal.enterLockout h.onLle.signal.enterRetrainWait

theorem TableFits.addHolder {x : Holder} (h : TableFits s) : TableFits (s.addHolder x) :=
  TableFits.ite h (TableFits.ite h.onLle h.onLle.enterQuiet)

theorem TableFits.removeHolder {x : Holder} (h : TableFits s) : TableFits (s.removeHolder x) :=
  TableFits.ite (TableFits.ite h.onLle.enterDown h.onLle) h

theorem TableFits.enterShowtime (h : TableFits s) : TableFits s.enterShowtime :=
  h.onLle.makeInactive.onPlp.lineStatus

/-! ### The overhead request slot -/

theorem TableFits.pumpOverhead (h : TableFits s) : TableFits s.pumpOverhead := by
  unfold State.pumpOverhead
  refine TableFits.ite ?_ h
  repeat' split
  all_goals exact h

theorem TableFits.answerFar {n : Nat} {a : FarAnswer} (h : TableFits s) : TableFits (s.answerFar n a) := h

theorem TableFits.takeFar {n : Nat} {f : State → State} (h : TableFits s) (hf : TableFits (f s)) :
    TableFits (s.takeFar n f) := by
  unfold State.takeFar
  refine TableFits.ite ?_ h
  split
  · exact TableFits.ite h.sayFar hf
  · exact hf

/-! ### Keeping sync -/

theorem TableFits.watchMargin (h : TableFits s) : TableFits s.watchMargin := h.onSync

theorem TableFits.deferVisit (h : TableFits s) : TableFits s.defer := TableFits.ite h.onSync h.signal

theorem TableFits.measureGroup {g : Nat} {m : List Int} (h : TableFits s) : TableFits (s.measureGroup g m) := h.onLle

theorem TableFits.applySwap {g : Nat} (h : TableFits s) : TableFits (s.applySwap g).1 := by
  unfold State.applySwap
  dsimp only
  repeat' split
  all_goals exact h

theorem TableFits.refresh {regular : Bool} {m : List Int} (h : TableFits s) : TableFits (s.refresh regular m) :=
  have swapped := h.measureGroup.applySwap
  (TableFits.ite (TableFits.ite swapped.onSync swapped.onSync.onSync)
    (TableFits.ite swapped.onSync.deferVisit swapped.onSync)).watchMargin

theorem TableFits.catchUp (h : TableFits s) : TableFits s.catchUp :=
  TableFits.ite (TableFits.ite h h.onSync) (TableFits.ite h.onSync h)

theorem TableFits.alignTable (h : TableFits s) : TableFits s.alignTable :=
  TableFits.ite h.onLle (TableFits.ite h h.onLle)

theorem TableFits.judgeGuard (h : TableFits s) : TableFits s.judgeGuard := by
  unfold State.judgeGuard
  split
  · exact h.onSync.signal.alignTable
  · exact h.onSync.alignTable
  · exact h.onSync.alignTable
  · exact h

theorem TableFits.recomputeDepth (h : TableFits s) : TableFits s.recomputeDepth :=
  have asked := TableFits.ite h.onSync (TableFits.ite h.onSync.onLle (TableFits.ite h.onSync h.onSync.onLle))
  TableFits.ite asked (TableFits.ite asked.onSync.raise asked.onSync.makeInactive)

theorem TableFits.lockRules {i : Impulse} (h : TableFits s) : TableFits (s.lockRules i) := by
  unfold State.lockRules
  dsimp only
  split
  · split
    · exact h
    · exact h.onSync
  · exact TableFits.ite h.signal.onSync h

theorem TableFits.missPrediction {k : FenceLock} (h : TableFits s) : TableFits (s.missPrediction k) :=
  TableFits.ite h.onSync h.onSync.recomputeDepth

theorem TableFits.swapAbandoned (h : TableFits s) : TableFits s.swapAbandoned :=
  TableFits.ite h.signal.onSync.drop h.signal.onSync

theorem TableFits.agreed {r : OverheadRequest} (h : TableFits s) : TableFits (s.agreed r) := by
  cases r with
  | switch t => exact h.onLle.alignTable.watchMargin
  | power p => exact h.onLle
  | shield d => exact h.onLle.recomputeDepth
  | swap g bits => exact h.onLle.signal.onSync.watchMargin

theorem TableFits.turnedDown {r : OverheadRequest} (h : TableFits s) : TableFits (s.turnedDown r) := by
  unfold State.turnedDown
  split
  · exact h.onSync.alignTable
  · exact h.onSync.alignTable
  · exact TableFits.ite h h.drop
  · exact h.onLle
  · exact h.onSync
  · exact h

theorem TableFits.declined {r : OverheadRequest} (h : TableFits s) : TableFits (s.declined r) := by
  unfold State.declined
  split
  · exact h.onSync
  · exact h.turnedDown

theorem TableFits.abandoned {r : OverheadRequest} (h : TableFits s) : TableFits (s.abandoned r) := by
  unfold State.abandoned
  split
  · exact h.swapAbandoned
  · exact h.turnedDown

theorem TableFits.takeAnswer {n : Nat} {f : OverheadRequest → State → State} (h : TableFits s)
    (hf : ∀ r s, TableFits s → TableFits (f r s)) : TableFits (s.takeAnswer n f) := by
  unfold State.takeAnswer
  split
  · exact h
  · exact TableFits.ite (hf _ _ h.onLle) h

theorem TableFits.controlPower (h : TableFits s) : TableFits s.controlPower := by
  unfold State.controlPower
  refine TableFits.ite ?_ h
  dsimp only
  split
  all_goals exact TableFits.ite h (TableFits.ite h (TableFits.ite h h))

theorem TableFits.codeword {e : Event} {f : Showtime → Showtime} (h : TableFits s) : TableFits (s.codeword e f) :=
  TableFits.ite h.signal.onSync h

theorem TableFits.endSecond (h : TableFits s) : TableFits s.endSecond :=
  have errored := TableFits.ite h.signal.signal h.signal
  have severe := TableFits.ite errored.signal errored
  TableFits.ite severe.onSync.drop severe.onSync

/-! ### The outside line and the ports -/

theorem TableFits.senseVoltage (h : TableFits s) : TableFits s.senseVoltage := h.onVsw
theorem TableFits.senseRinging (h : TableFits s) : TableFits s.senseRinging := h.onVsw

theorem TableFits.setLine {x : LineState} (h : TableFits s) : TableFits (s.setLine x) :=
  TableFits.ite h h.onVsw.senseVoltage.senseRinging.onLth.lineStatus

theorem TableFits.portRefused {p : Port} {r : RefuseReason} (h : TableFits s) : TableFits (s.portRefused p r) :=
  h.onPort
theorem TableFits.portConnected {p : Port} {x : Tone} (h : TableFits s) : TableFits (s.portConnected p x) := h.onPort

theorem TableFits.portReleased {p : Port} (h : TableFits s) : TableFits (s.portReleased p) :=
  TableFits.ite h.onVsw.onPort h.onVsw

theorem TableFits.portHeld {p : Port} (h : TableFits s) : TableFits (s.portHeld p) := h.onPort
theorem TableFits.watchCurrent {p : Port} (h : TableFits s) : TableFits (s.watchCurrent p) := h.onPort
theorem TableFits.repeatDigit {p : Port} {d : Nat} (h : TableFits s) : TableFits (s.repeatDigit p d) :=
  TableFits.ite h.onVsw h

/-! ### The survey -/

theorem TableFits.writeEntry {i : Item} {x : ItemStatus} {r : Option ItemResult} (h : TableFits s) :
    TableFits (s.writeEntry i x r) :=
  h.onLth

theorem TableFits.onRunning {f : Survey → Survey} (h : TableFits s) : TableFits (s.onRunning f) := h.onLth

theorem TableFits.answerSurvey {r : Survey} (h : TableFits s) : TableFits (s.answerSurvey r) := by
  unfold State.answerSurvey
  dsimp only
  refine TableFits.foldl (fun _ _ hs => hs.handRoutine) _ ?_
  split
  · exact h.handRoutine
  · exact h

theorem TableFits.startSurvey {r : Survey} (h : TableFits s) : TableFits (s.startSurvey r) :=
  TableFits.ite h.onLth.writeEntry.onRunning h.onLth

theorem TableFits.finishSurvey {r : Survey} (h : TableFits s) : TableFits (s.finishSurvey r) := h.onLth.answerSurvey

theorem TableFits.continueSurvey (fuel : Nat) (h : TableFits s) : TableFits (State.continueSurvey fuel s) := by
  induction fuel generalizing s with
  | zero => exact h
  | succ fuel ih =>
    unfold State.continueSurvey
    split
    · exact h.onLth
    · refine TableFits.ite h.onLth (TableFits.ite h.onLth ?_)
      dsimp only
      split
      · exact h.finishSurvey
      · exact ih h.finishSurvey.onLth.startSurvey

theorem TableFits.beginItem {i : Item} (h : TableFits s) : TableFits (s.beginItem i) := h.onLth
theorem TableFits.beginVoltage {i : Item} (h : TableFits s) : TableFits (s.beginVoltage i) :=
  h.onLth.setLine.beginItem

theorem TableFits.beginMetallic {b : Bool} {i : Item} (h : TableFits s) : TableFits (s.beginMetallic b i) :=
  (TableFits.ite h.addHolder.onLth h).onLth.setLine.beginItem

theorem TableFits.endPhase (h : TableFits s) : TableFits s.endPhase :=
  have attempted := TableFits.ite h.onLth.enterDown h.onLth
  TableFits.ite (TableFits.ite attempted.removeHolder.onLth attempted) h.onLth

theorem TableFits.nextInPhase {i : Item} (h : TableFits s) : TableFits (s.nextInPhase i) := by
  unfold State.nextInPhase
  split
  · exact h.beginItem
  · exact h.endPhase

theorem TableFits.abortSurvey (h : TableFits s) : TableFits s.abortSurvey := by
  unfold State.abortSurvey
  split
  · exact h.writeEntry.onRunning.endPhase.onLth
  · exact h

theorem TableFits.keepFault {c : FaultCode} {b : Bool} (h : TableFits s) : TableFits (s.keepFault c b) :=
  TableFits.ite h.raiseUnlessActive h.makeInactive

theorem TableFits.judgeHigh {b : Bool} (h : TableFits s) : TableFits (s.judgeHigh b) := by
  unfold State.judgeHigh
  dsimp only
  split
  · exact h.keepFault.onLth.addHolder
  · exact h.keepFault.onLth.removeHolder
  · exact h.keepFault

theorem TableFits.judgeItem {i : Item} {r : LoopReadings} (h : TableFits s) : TableFits (s.judgeItem i r) := by
  unfold State.judgeItem
  split
  · exact h.keepFault.judgeHigh
  · exact h.keepFault
  · exact h.keepFault
  · exact h

theorem TableFits.completeItem {i : Item} {r : LoopReadings} (h : TableFits s) : TableFits (s.completeItem i r) :=
  h.writeEntry.onRunning.onLth.judgeItem.nextInPhase

theorem TableFits.takeTest {n : Nat} {l : List Item} {b : Bool} (h : TableFits s) : TableFits (s.takeTest n l b) := by
  unfold State.takeTest
  refine TableFits.ite h.refuse (TableFits.ite h.writeEntry.handRoutine (TableFits.ite h ?_))
  split
  · exact h.startSurvey.continueSurvey 2
  · refine TableFits.ite h.onRunning ?_
    split
    · exact h.onLth
    · exact TableFits.ite h.onLth h.refuse

end Sys2Proof.Proofs.Faults
end

section
/-! The proofs of chapter 9, part three: what the calls (chapter 7), the house ports (R105 to R118), the ringing (section
6.4), the supply (chapter 2) and the settling of an event do to the fault table. -/

namespace Sys2Proof.Proofs.Faults

open Sys2Proof Sys2Proof.Machine

variable {s : State}

/-! ### Records, parties and holds -/

theorem TableFits.onCall {id : Nat} {f : CallRec → CallRec} (h : TableFits s) : TableFits (s.onCall id f) := h.onCct
theorem TableFits.addCall {r : CallRec} (h : TableFits s) : TableFits (s.addCall r) := h.onCct

theorem TableFits.dismiss {id : Nat} {e : Endpoint} (h : TableFits s) : TableFits (s.dismiss id e) := by
  cases e with
  | station n =>
    unfold State.dismiss
    dsimp only
    split
    · exact (TableFits.ite h.clearExpectation h).handCall
    · exact h.handCall
  | port p => exact h.portReleased

theorem TableFits.removeCall {id : Nat} (h : TableFits s) : TableFits (s.removeCall id) := by
  unfold State.removeCall
  split
  · exact h
  · exact TableFits.foldl (fun _ _ hs => hs.dismiss) _ h.onCct

theorem TableFits.toClearing {id : Nat} (h : TableFits s) : TableFits (s.toClearing id) := by
  unfold State.toClearing
  split
  · exact h
  · exact TableFits.ite h.onCall.setLine.signal h.onCall.setLine

theorem TableFits.leave {id : Nat} {e : Endpoint} (h : TableFits s) : TableFits (s.leave id e) := by
  have left : ∀ (f : CallRec → CallRec), TableFits (match e with
      | .port p => (s.onCall id f).onVsw (Vsw.dropDigits p)
      | .station _ => s.onCall id f) := by
    intro f
    cases e with
    | port p => exact h.onCall.onVsw
    | station n => exact h.onCall
  unfold State.leave
  split
  · exact h
  · dsimp only
    split
    · exact TableFits.ite (left _).toClearing (left _)
    · exact (left _).removeCall
    · exact TableFits.ite (left _).removeCall (left _)
    · exact left _

theorem TableFits.leaveAndEnd {id : Nat} {e : Endpoint} (h : TableFits s) : TableFits (s.leaveAndEnd id e) :=
  h.onCall.removeCall

theorem TableFits.makeHeld {id : Nat} (h : TableFits s) : TableFits (s.makeHeld id) := by
  unfold State.makeHeld
  split
  · exact h
  · split
    · exact h
    · have held : ∀ (f : Cct → Cct) (g : CallRec → CallRec) (l : List Party) (v : Vsw → Vsw), TableFits
          ((l.foldl (fun s p => s.dismiss id p.who) ((s.onCct f).onCall id g)).onVsw v) :=
        fun f g l v => (TableFits.foldl (fun _ _ hs => hs.dismiss) l h.onCct.onCall).onVsw
      dsimp only
      split
      · exact (held _ _ _ _).handCall
      · exact (held _ _ _ _).portHeld

theorem TableFits.giveHeld {id : Nat} {e : Endpoint} (h : TableFits s) : TableFits (s.giveHeld id e) := by
  cases e with
  | station n => exact h.onCall
  | port p => exact h.onCall.portConnected.onPort

theorem TableFits.retrieveForPort {p : Port} (h : TableFits s) : TableFits (s.retrieveForPort p) := by
  unfold State.retrieveForPort
  split
  · dsimp only
    split
    · exact h.leaveAndEnd.giveHeld
    · exact h.giveHeld
  · exact TableFits.ite h.onPort h.onPort

theorem TableFits.depart {id : Nat} {e : Endpoint} (h : TableFits s) : TableFits (s.depart id e) := by
  unfold State.depart
  split
  · exact h
  · split
    · exact h.leave
    · exact TableFits.ite h.onCall.removeCall.giveHeld h.leaveAndEnd

theorem TableFits.recallWaits {id : Nat} (h : TableFits s) : TableFits (s.recallWaits id) := h.onCall

theorem TableFits.attemptRecall {c : CallRec} (h : TableFits s) : TableFits (s.attemptRecall c) := by
  unfold State.attemptRecall
  split
  · exact h
  · exact TableFits.ite h.recallWaits h.onCall

/-! ### Grants and their withdrawal -/

theorem TableFits.grant {n tag id sent : Nat} (h : TableFits s) : TableFits (s.grant n tag id sent) :=
  h.onEntry.handCall

theorem TableFits.letIn {c : Claimant} {id : Nat} {x : Tone} (h : TableFits s) : TableFits (s.letIn c id x) := by
  cases c with
  | station n tag sent => exact h.grant
  | port p => exact h.portConnected

theorem TableFits.refuseClaim {c : Claimant} {r : RefuseReason} (h : TableFits s) :
    TableFits (s.refuseClaim c r) := by
  cases c with
  | station n tag sent => exact h.refuse
  | port p => exact h.portRefused

theorem TableFits.undoGrant {n id : Nat} (h : TableFits s) : TableFits (s.undoGrant n id) := by
  unfold State.undoGrant
  split
  · exact h
  · split
    · exact TableFits.foldl (fun _ _ hs => hs.dismiss) _ h.onCall
    · exact TableFits.ite h.leaveAndEnd h.leave

theorem TableFits.withdraw {n : Nat} {a b : Bool} (h : TableFits s) : TableFits (s.withdraw n a b) := by
  unfold State.withdraw
  split
  · exact h
  · exact
      have released := TableFits.ite h.clearExpectation.handCall h.clearExpectation
      (TableFits.ite released.protocolFault released).undoGrant

theorem TableFits.dropDeferred {n : Nat} (h : TableFits s) : TableFits (s.dropDeferred n) := h.onCct

theorem TableFits.withdrawPortClaim {p : Port} (h : TableFits s) : TableFits (s.withdrawPortClaim p) := h.onCct.onPort

theorem TableFits.takeFrame {n : Nat} (h : TableFits s) : TableFits (s.takeFrame n) := h.withdraw.dropDeferred

/-! ### The decisions of claims -/

theorem TableFits.grantOutside {c : Claimant} (h : TableFits s) : TableFits (s.grantOutside c) :=
  h.addCall.setLine.letIn

theorem TableFits.grantAnswer {c : Claimant} {id : Nat} (h : TableFits s) : TableFits (s.grantAnswer c id) := by
  cases c with
  | station n tag sent => exact h.onCall.setLine.letIn
  | port p => exact h.onVsw.onCall.setLine.letIn

theorem TableFits.answerIncoming {c : Claimant} {id : Nat} (h : TableFits s) : TableFits (s.answerIncoming c id) := by
  unfold State.answerIncoming
  split
  · exact h.refuseClaim
  · exact h.grantAnswer

theorem TableFits.grantJoin {c : Claimant} {id : Nat} (h : TableFits s) : TableFits (s.grantJoin c id) :=
  h.onCall.letIn

theorem TableFits.joinCall {c : Claimant} {r : CallRec} (h : TableFits s) : TableFits (s.joinCall c r) := by
  unfold State.joinCall
  refine TableFits.ite h.refuseClaim (TableFits.ite h.answerIncoming ?_)
  split
  · exact h.refuseClaim
  · exact h.grantJoin

theorem TableFits.decideJoin {c : Claimant} {id : Nat} (h : TableFits s) : TableFits (s.decideJoin c id) := by
  unfold State.decideJoin
  dsimp only
  split
  · exact h.refuseClaim
  · exact h.joinCall

theorem TableFits.answerIntercom {c : Claimant} {r : CallRec} (h : TableFits s) :
    TableFits (s.answerIntercom c r) := by
  unfold State.answerIntercom
  refine TableFits.ite h.refuseClaim ?_
  dsimp only
  split
  · exact h.onCall.letIn.onPort
  · exact h.onCall.letIn

theorem TableFits.answerCall {c : Claimant} {r : CallRec} (h : TableFits s) : TableFits (s.answerCall c r) := by
  unfold State.answerCall
  split
  · exact h.refuseClaim
  · exact h.answerIncoming
  · exact h.joinCall
  · exact TableFits.ite h.answerIntercom h.refuseClaim
  · cases c with
    | station n tag sent => exact h.refuseClaim
    | port p => exact TableFits.ite h.giveHeld h.refuseClaim
  · exact h.refuseClaim

theorem TableFits.decideAnswer {c : Claimant} {id : Nat} (h : TableFits s) : TableFits (s.decideAnswer c id) := by
  unfold State.decideAnswer
  split
  · split
    · exact h.answerIncoming
    · refine TableFits.ite h.refuseClaim ?_
      split
      · exact h.joinCall
      · exact h.refuseClaim
  · split
    · exact h.refuseClaim
    · exact h.answerCall

theorem TableFits.defer140 {c : Claimant} (h : TableFits s) : TableFits (s.defer140 c) :=
  TableFits.ite h.abortSurvey.onCct h.abortSurvey.refuseClaim

theorem TableFits.decideOutside {c : Claimant} (h : TableFits s) : TableFits (s.decideOutside c) := by
  unfold State.decideOutside
  split
  · split
    · exact h.refuseClaim
    · exact h.grantOutside
  · split
    · exact h.answerIncoming
    · exact h.refuseClaim
  · exact h.defer140
  · exact h.refuseClaim
  · exact h.refuseClaim

theorem TableFits.placeIntercom {c : Claimant} {e : Endpoint} (h : TableFits s) :
    TableFits (s.placeIntercom c e) := by
  unfold State.placeIntercom
  dsimp only
  split
  · exact h.addCall.letIn
  · split
    · exact h.addCall.letIn.onCall.handCall
    · exact h.addCall.letIn.onCall

theorem TableFits.decideIntercom {c : Claimant} {e : Endpoint} (h : TableFits s) :
    TableFits (s.decideIntercom c e) := by
  unfold State.decideIntercom
  split
  · exact h.refuseClaim
  · exact h.placeIntercom

theorem TableFits.decideRetrieve {n tag id token : Nat} (h : TableFits s) :
    TableFits (s.decideRetrieve n tag id token) := by
  unfold State.decideRetrieve
  split
  · exact h.refuse
  · refine TableFits.ite h.refuse ?_
    split
    · exact h.refuse
    · exact h.onCall.grant

theorem TableFits.decideDeferred (h : TableFits s) : TableFits s.decideDeferred :=
  TableFits.foldl (fun _ _ hs => hs.decideOutside) _ h.onCct

theorem TableFits.leaveTest (h : TableFits s) : TableFits s.leaveTest := h.setLine.decideDeferred

/-! ### Ringing on the line, and absence -/

theorem TableFits.ringStart (h : TableFits s) : TableFits s.ringStart := TableFits.ite h.signal h.addCall

theorem TableFits.ringEnd (h : TableFits s) : TableFits s.ringEnd := by
  unfold State.ringEnd
  split
  · exact h
  · exact h.removeCall.signal

theorem TableFits.endRinging {x : LineState} (h : TableFits s) : TableFits (s.endRinging x) :=
  TableFits.ite h.setLine.ringEnd h.setLine

theorem TableFits.handOverLine (h : TableFits s) : TableFits s.handOverLine := by
  unfold State.handOverLine
  split
  · exact h.setLine
  · exact h.setLine
  · exact h.endRinging
  · exact h.setLine
  · exact h

theorem TableFits.stationGone {n : Nat} {x : Option GrantExpectation} (h : TableFits s) :
    TableFits (s.stationGone n x) := by
  have undone : TableFits (match x with | some g => s.undoGrant n g.callId | none => s) := by
    cases x with
    | some g => exact h.undoGrant
    | none => exact h
  unfold State.stationGone
  dsimp only
  refine TableFits.foldl (fun _ _ hs => hs.removeCall) _ ?_
  split
  · exact undone.dropDeferred.onCct.leave
  · exact undone.dropDeferred.onCct

/-! ### The house ports -/

theorem TableFits.portClaim {p : Port} {f : State → State} (h : TableFits s) (hf : TableFits (f s)) :
    TableFits (s.portClaim p f) :=
  TableFits.ite h hf

theorem TableFits.portOutside {p : Port} (h : TableFits s) : TableFits (s.portOutside p) :=
  h.onPort.portClaim h.onPort.decideOutside

theorem TableFits.awaitDecision {p : Port} (h : TableFits s) : TableFits (s.awaitDecision p) := h.onPort

theorem TableFits.offHookCases {p : Port} {b : Bool} (h : TableFits s) : TableFits (s.offHookCases p b) := by
  have awaiting := h.awaitDecision (p := p)
  unfold State.offHookCases
  split
  · exact TableFits.ite awaiting.answerCall (awaiting.portClaim awaiting.answerCall)
  · exact TableFits.ite (awaiting.portClaim awaiting.decideAnswer) <|
      TableFits.ite (awaiting.portClaim awaiting.decideAnswer) <|
        TableFits.ite (awaiting.portClaim awaiting.decideOutside) h.onPort

theorem TableFits.takeOffHook {p : Port} (h : TableFits s) : TableFits (s.takeOffHook p) :=
  h.abortSurvey.onPort.offHookCases.watchCurrent

theorem TableFits.lapseWindow {p : Port} (h : TableFits s) : TableFits (s.lapseWindow p) := by
  unfold State.lapseWindow
  split
  · exact h
  · exact TableFits.ite h h.onPort
  · exact TableFits.ite h h.onPort.retrieveForPort

theorem TableFits.firstDigit {p : Port} {d : Option Nat} (h : TableFits s) : TableFits (s.firstDigit p d) := by
  unfold State.firstDigit
  split
  · exact h
  · exact TableFits.ite h.onPort.onPort <| TableFits.ite h.onPort.retrieveForPort <|
      TableFits.ite h.onPort.portOutside h.onPort.onPort

theorem TableFits.collectDigit {p : Port} {d : Option Nat} (h : TableFits s) : TableFits (s.collectDigit p d) := by
  unfold State.collectDigit
  refine TableFits.ite h ?_
  split
  · exact h.onPort
  · exact h.onPort
  · split
    · exact h.onPort
    · exact h.onPort.portClaim h.onPort.decideIntercom

theorem TableFits.takeDigit {p : Port} {d : Option Nat} (h : TableFits s) : TableFits (s.takeDigit p d) := by
  unfold State.takeDigit
  split
  · exact h.firstDigit
  · exact h.collectDigit
  · exact h

theorem TableFits.endPulses {p : Port} (h : TableFits s) : TableFits (s.endPulses p) := by
  unfold State.endPulses
  refine TableFits.ite h.onPort (TableFits.ite h.onPort.lapseWindow ?_)
  dsimp only
  split
  · split
    · exact TableFits.ite h.onPort.repeatDigit h.onPort
    · exact h.onPort
  · exact h.onPort.takeDigit

theorem TableFits.flashConnected {p : Port} (h : TableFits s) : TableFits (s.flashConnected p) := by
  unfold State.flashConnected
  split
  · exact h
  · exact TableFits.ite h.makeHeld h

theorem TableFits.takeFlash {p : Port} (h : TableFits s) : TableFits (s.takeFlash p) := by
  unfold State.takeFlash
  dsimp only
  split
  · exact TableFits.ite h.onPort.retrieveForPort h.onPort.flashConnected
  · split
    · exact TableFits.ite h.onPort.retrieveForPort h.onPort
    · exact h.onPort.lapseWindow
  · exact TableFits.ite h.onPort.withdrawPortClaim.retrieveForPort h.onPort
  · exact h.onPort

theorem TableFits.closeBreak {p : Port} {n : Nat} (h : TableFits s) : TableFits (s.closeBreak p n) :=
  have closed := h.onPort
  TableFits.ite (TableFits.ite closed.onPort closed) <| TableFits.ite closed.takeFlash <|
    TableFits.ite closed.onPort closed.lapseWindow

theorem TableFits.takeOnHook {p : Port} (h : TableFits s) : TableFits (s.takeOnHook p) := by
  have idle : TableFits ((s.withdrawPortClaim p).onPort p fun _ => PortRec.onHookAt (s.withdrawPortClaim p).now) :=
    h.withdrawPortClaim.onPort
  unfold State.takeOnHook
  dsimp only
  split
  · exact idle.depart.makeInactive.makeInactive
  · exact idle.makeInactive.makeInactive

theorem TableFits.enterHowler {p : Port} (h : TableFits s) : TableFits (s.enterHowler p) := h.withdrawPortClaim.onPort

theorem TableFits.firstWindowEnds {p : Port} (h : TableFits s) : TableFits (s.firstWindowEnds p) := h.onPort

theorem TableFits.postFlashEnds {p : Port} (h : TableFits s) : TableFits (s.postFlashEnds p) :=
  TableFits.ite h.onPort.lapseWindow h.onPort

theorem TableFits.portOut (h : TableFits s) : TableFits s.portOut :=
  h.withdrawPortClaim.onPort.makeInactive.makeInactive

theorem TableFits.servePortB (h : TableFits s) : TableFits s.servePortB :=
  TableFits.ite (TableFits.ite (TableFits.ite h h.portOut) (TableFits.ite h.onPort h)) h

theorem TableFits.beginCheck {p : Port} (h : TableFits s) : TableFits (s.beginCheck p) := h.onPort

theorem TableFits.endCheck {p : Port} {b : Bool} (h : TableFits s) : TableFits (s.endCheck p b) :=
  TableFits.ite h.onPort.makeInactive h.onPort.raiseUnlessActive

/-! ### The ring plan -/

theorem TableFits.followPlan {p : Port} (h : TableFits s) : TableFits (s.followPlan p) := by
  unfold State.followPlan
  split
  · exact h.onPort
  · exact h.onPort
  · exact h

theorem TableFits.demandRing (h : TableFits s) : TableFits s.demandRing := h.onSup

theorem TableFits.judgePlan {old : RingPlan} (h : TableFits s) : TableFits (s.judgePlan old) :=
  TableFits.ite (h.signalTimes _).makeInactive (h.signalTimes _).raiseUnlessActive

theorem TableFits.planOnce {l : List Episode} (h : TableFits s) : TableFits (s.planOnce l) :=
  (TableFits.foldl (fun _ _ hs => TableFits.ite hs.handCall hs) _
    h.onVsw.judgePlan.followPlan.followPlan).demandRing

theorem TableFits.planUntil (n : Nat) {l : List Episode} (h : TableFits s) : TableFits (State.planUntil n l s) := by
  induction n generalizing l s with
  | zero => exact h.planOnce
  | succ n ih => exact TableFits.ite h.planOnce (ih h.planOnce)

theorem TableFits.replan {l : List Episode} (h : TableFits s) : TableFits (s.replan l) := h.planUntil 2

theorem TableFits.syncEpisodes (h : TableFits s) : TableFits s.syncEpisodes.1 :=
  TableFits.foldl (fun _ _ hs => hs.handCall) _ h.onVsw

/-! ### The supply -/

theorem TableFits.supplyFaults {x y : SupplyState} (h : TableFits s) : TableFits (s.supplyFaults x y) :=
  have low := TableFits.ite (TableFits.ite h h.raise) h.makeInactive
  TableFits.ite low.makeInactive (TableFits.ite low.raise low)

theorem TableFits.deriveSupply (h : TableFits s) : TableFits s.deriveSupply :=
  have held := TableFits.ite h.onSup.supplyFaults.addHolder h.onSup.supplyFaults.removeHolder
  TableFits.ite h (TableFits.ite held.enterDown held)

theorem TableFits.driveRail (h : TableFits s) : TableFits s.driveRail := h.onSup

/-! ### What follows an event -/

section settling
variable {before : State}

theorem TableFits.settlePortB (h : TableFits s) : TableFits (s.settlePortB before) := TableFits.ite h h.servePortB

theorem TableFits.settleRecall (h : TableFits s) : TableFits (s.settleRecall before) := by
  refine TableFits.ite h (TableFits.foldl (fun s c hs => ?_) _ h)
  split
  · exact TableFits.ite hs.recallWaits hs
  · exact hs

theorem TableFits.settleRinging (h : TableFits s) : TableFits (s.settleRinging before) := by
  have synced : TableFits (if s.cct.calls = before.cct.calls then (s, []) else s.syncEpisodes).1 := by
    split
    · exact h
    · exact h.syncEpisodes
  exact TableFits.ite synced.replan (TableFits.ite synced (TableFits.ite synced synced.demandRing))

theorem TableFits.settlePair (h : TableFits s) : TableFits (s.settlePair before) :=
  have paired := TableFits.ite h h.onVsw
  TableFits.ite paired paired.onVsw

theorem TableFits.settleGuard (h : TableFits s) : TableFits (s.settleGuard before) := TableFits.ite h.judgeGuard h

theorem TableFits.settleLink (h : TableFits s) : TableFits (s.settleLink before) :=
  TableFits.ite h h.driveRail.controlPower.pumpOverhead.driveRail.catchUp

theorem TableFits.settleWait (h : TableFits s) : TableFits (s.settleWait before) := by
  unfold State.settleWait
  split
  · exact TableFits.ite h h.onLth
  · exact TableFits.ite h h.onLth
  · exact h

theorem TableFits.settle (h : TableFits s) : TableFits (s.settle before) :=
  h.settlePortB.settleRecall.settleRinging.settlePair.settleGuard.settleLink.settleWait

end settling

end Sys2Proof.Proofs.Faults
end

section
/-! The proofs of chapter 9, part four: no command takes the fault table out of the shape that R175, R181 and R182 give
it, and the statement of R181. -/

namespace Sys2Proof.Proofs.Faults

open Sys2Proof Sys2Proof.Machine

variable {s : State}

/-! ### Requests of stations -/

theorem TableFits.serve {pick : Delivered → Bool} {f : Delivered → State → State} (h : TableFits s)
    (hf : ∀ d s, TableFits s → TableFits (f d s)) : TableFits (s.serve pick f) := by
  unfold State.serve
  split
  · exact h
  · exact hf _ _ h.popRequest.takeFrame

theorem TableFits.asManager {d : Delivered} {f : State → State} (h : TableFits s) (hf : TableFits (f s)) :
    TableFits (s.asManager d f) :=
  TableFits.ite hf h.refuse

theorem TableFits.withTag {d : Delivered} {f : State → State} (h : TableFits s) (hf : TableFits (f s)) :
    TableFits (s.withTag d f) :=
  TableFits.ite h.refuse hf

theorem TableFits.hookOn {d : Delivered} (h : TableFits s) : TableFits (s.hookOn d) := by
  unfold State.hookOn
  refine TableFits.ite ?_ h.refuse
  split
  · exact h.depart
  · exact h

theorem TableFits.hookFlash {d : Delivered} (h : TableFits s) : TableFits (s.hookFlash d) := by
  unfold State.hookFlash
  dsimp only
  split
  · exact h
  · refine TableFits.ite h.makeHeld ?_
    split
    · exact TableFits.ite h.leaveAndEnd.giveHeld h
    · exact h

theorem TableFits.claimAny {d : Delivered} (h : TableFits s) : TableFits (s.claimAny d) :=
  TableFits.ite (TableFits.ite h.decideOutside h.onCct) h

theorem TableFits.claimIntercom {d : Delivered} (h : TableFits s) : TableFits (s.claimIntercom d) := by
  unfold State.claimIntercom
  split
  · exact h.refuse
  · exact h.decideIntercom

theorem TableFits.connectStation {n : Nat} {x : GrantExpectation} (h : TableFits s) :
    TableFits (s.connectStation n x) := by
  unfold State.connectStation
  dsimp only
  split
  · split
    · exact TableFits.ite h.clearExpectation.onCall.onPort h.clearExpectation.onCall
    · exact h.clearExpectation.onCall
  · exact h.clearExpectation.onCall

theorem TableFits.takeUp {d : Delivered} (h : TableFits s) : TableFits (s.takeUp d) := by
  have taken := h.popRequest.dropDeferred (n := d.src)
  unfold State.takeUp
  dsimp only
  split
  · exact taken.refuse
  · exact TableFits.ite taken.connectStation taken.withdraw.refuse

theorem TableFits.takeHold {d : Delivered} (h : TableFits s) : TableFits (s.takeHold d) := by
  unfold State.takeHold State.holdCall
  split
  · exact h.refuse
  · refine TableFits.ite h.refuse (TableFits.ite h.refuse (TableFits.ite h.refuse (TableFits.ite h.refuse ?_)))
    split
    · exact h.handCall
    · exact h.makeHeld

theorem TableFits.releaseCall {n : Nat} {c : CallRec} (h : TableFits s) {t : State}
    (released : s.releaseCall n c = some t) : TableFits t := by
  unfold State.releaseCall at released
  dsimp only at released
  split at released
  · cases released
    exact h.depart
  · split at released
    · cases released
      exact h.toClearing
    · split at released
      · cases released
        exact h.removeCall
      · cases released

theorem TableFits.takeRelease {d : Delivered} (h : TableFits s) : TableFits (s.takeRelease d) := by
  unfold State.takeRelease
  split
  · exact h.refuse
  · refine TableFits.ite h.refuse ?_
    split
    · exact (h.releaseCall ‹_›).handCall
    · exact h.refuse

theorem TableFits.hearGrant {d : Delivered} {tag : Nat} (h : TableFits s) : TableFits (s.hearGrant d tag) :=
  have heard := TableFits.ite h.popRequest.takeFrame h.popRequest.dropDeferred
  TableFits.ite heard.onCct heard

theorem TableFits.hearTake {d : Delivered} {tag : Nat} (h : TableFits s) : TableFits (s.hearTake d tag) := by
  have heard : TableFits (((s.popRequest).dropDeferred d.src).dropPending d.src tag) := h.popRequest.dropDeferred.onCct
  unfold State.hearTake
  dsimp only
  split
  · exact TableFits.ite heard.withdraw heard
  · exact heard

theorem TableFits.anyExpires {p : PendingAny} (h : TableFits s) : TableFits (s.anyExpires p) :=
  TableFits.ite h.onCct.decideOutside h.onCct

theorem TableFits.recallDue {id : Nat} (h : TableFits s) : TableFits (s.recallDue id) := by
  unfold State.recallDue
  dsimp only
  split
  · exact TableFits.ite h.onCall h.onCall.attemptRecall
  · exact h.onCall

theorem TableFits.recallAgain {id : Nat} (h : TableFits s) : TableFits (s.recallAgain id) := by
  unfold State.recallAgain
  dsimp only
  split
  · exact h.onCall.attemptRecall
  · exact h.onCall

/-! ### Queries and management -/

theorem TableFits.queryLoop {d : Delivered} (h : TableFits s) : TableFits (s.queryLoop d) := by
  unfold State.queryLoop
  split
  · split
    · exact h.refuse
    · exact TableFits.ite h.refuse h.report
  · exact h

theorem TableFits.querySummary {d : Delivered} (h : TableFits s) : TableFits (s.querySummary d) :=
  TableFits.ite h.report h.refuse

theorem TableFits.queryFaults {pick : FaultEntry → Bool} {d : Delivered} (h : TableFits s) :
    TableFits (s.queryFaults pick d) :=
  TableFits.ite h.refuse (TableFits.ite h.report h.startStream)

theorem TableFits.queryPresence {d : Delivered} (h : TableFits s) : TableFits (s.queryPresence d) :=
  TableFits.ite h.report (TableFits.ite h.refuse h.startStream)

theorem TableFits.queryConfiguration {d : Delivered} (h : TableFits s) : TableFits (s.queryConfiguration d) := by
  unfold State.queryConfiguration
  split
  · exact TableFits.ite h.refuse h.report
  · exact h

theorem TableFits.testRequest {n bits : Nat} {b : Bool} (h : TableFits s) : TableFits (s.testRequest n bits b) :=
  TableFits.ite h.takeTest (TableFits.ite h.takeTest (TableFits.ite h h.takeTest))

theorem TableFits.controlHold {d : Delivered} (h : TableFits s) : TableFits (s.controlHold d) :=
  TableFits.ite h.done.addHolder h.refuse

theorem TableFits.controlRetrain {d : Delivered} (h : TableFits s) : TableFits (s.controlRetrain d) := by
  unfold State.controlRetrain
  split
  · exact h.refuse
  · exact h.done
  · exact h.done.enterDown

theorem TableFits.clearRetry {d : Delivered} (h : TableFits s) : TableFits (s.clearRetry d) := by
  unfold State.clearRetry
  dsimp only
  split
  · exact h.onLle.done.enterDown
  · exact h.onLle.done.enterDown
  · exact h.onLle.done

theorem TableFits.readCounter {m n : Nat} (h : TableFits s) : TableFits (s.readCounter m n) := by
  unfold State.readCounter
  split
  · exact h.refuse
  · exact h.report

theorem TableFits.clearCounter {m n : Nat} (h : TableFits s) : TableFits (s.clearCounter m n) := by
  unfold State.clearCounter
  split
  · exact h.refuse
  · exact TableFits.ite h.onCtb.report h.refuse

theorem TableFits.setCounter {m n : Nat} {x : Option Nat} {b : Option Bool} (h : TableFits s) :
    TableFits (s.setCounter m n x b) := by
  unfold State.setCounter
  split
  · exact TableFits.ite h.refuse h
  · exact TableFits.ite h.onCtb.done h

theorem TableFits.delegateCounter {m n a : Nat} (h : TableFits s) : TableFits (s.delegateCounter m n a) :=
  TableFits.ite h.refuse (TableFits.ite h.onCtb.done (TableFits.ite h.onCtb.done h.refuse))

/-! ### The start of the part and the Yard Bus -/

theorem tableFits_afterReset (straps : Nat) (mainsOk battLow : Bool) (s : State) :
    TableFits (s.afterReset straps mainsOk battLow) := by
  have reset : Flt.reset.fits = true := by decide
  exact reset

theorem TableFits.endLoading {m : Option (List Byte)} (h : TableFits s) : TableFits (s.endLoading m) :=
  have invalid := TableFits.ite h.onCfl.raise h.onCfl
  have defaulted := TableFits.ite invalid.raise invalid
  TableFits.ite defaulted.onLle.onCtb.addHolder defaulted.onLle.onCtb

theorem TableFits.beginReady (h : TableFits s) : TableFits s.beginReady :=
  h.onCfl.handRoutine.lineStatus.onYbi.beginCheck.beginCheck.senseVoltage.senseRinging

theorem TableFits.refreshSender {n : Nat} {x : Option (Role × Bool × RingMode × Nat)} (h : TableFits s) :
    TableFits (s.refreshSender n x) := by
  unfold State.refreshSender
  split
  · exact TableFits.ite h.onEntry h.onEntry.makeInactive
  · split
    · exact h
    · exact h.onYbi

theorem TableFits.takePresence {n : Nat} {x : Option (Role × Bool × RingMode × Nat)} (h : TableFits s) :
    TableFits (s.takePresence n x) := by
  unfold State.takePresence
  split
  · exact h
  · exact h.onEntry

theorem TableFits.takeLineStatus {n : Nat} {b : List Byte} (h : TableFits s) : TableFits (s.takeLineStatus n b) := by
  unfold State.takeLineStatus
  split
  · exact h.onEntry
  · exact h

theorem TableFits.deliver {f : RxFrame} {k : Kind} (h : TableFits s) : TableFits (s.deliver f k) := by
  unfold State.deliver
  split
  · exact TableFits.ite h.takeFrame.refuse h
  · exact TableFits.ite h.frameDropped h.onYbi

theorem TableFits.routeFrame {f : RxFrame} (h : TableFits s) : TableFits (s.routeFrame f) := by
  unfold State.routeFrame
  split
  · exact h.signal
  · exact h
  · exact h
  · exact TableFits.ite h.deliver h

theorem TableFits.takeValid {f : RxFrame} (h : TableFits s) : TableFits (s.takeValid f) :=
  have known := TableFits.ite h.refreshSender.takePresence.takeLineStatus h.refreshSender.takePresence
  TableFits.ite known.routeFrame known

theorem TableFits.judge {b : List Byte} {x y : Bool} (h : TableFits s) : TableFits (s.judge b x y) := by
  unfold State.judge
  split
  · exact TableFits.ite h.signal h
  · exact h.takeValid

theorem TableFits.hear {f : List Byte × Bool} (h : TableFits s) : TableFits (s.hear f) :=
  TableFits.settle (TableFits.ite h (TableFits.ite h.onYbi h.onYbi.judge))

theorem TableFits.ownSlot {c : UrgencyClass} (h : TableFits s) : TableFits (s.ownSlot c) := by
  unfold State.ownSlot
  dsimp only
  split
  · exact h.onYbi
  · exact TableFits.ite h.onYbi.onYbi h.onYbi

theorem TableFits.headLeaves {c : UrgencyClass} {b : BusState} {n : Nat} (h : TableFits s) :
    TableFits (s.headLeaves c b n) :=
  h.onYbi

theorem TableFits.afterLeaving {c : UrgencyClass} {f : Option TxFrame} (h : TableFits s) :
    TableFits (s.afterLeaving c f) := by
  unfold State.afterLeaving
  split
  · exact (TableFits.ite h.onYbi h).handOwed.pumpStream
  · exact h

theorem TableFits.markReported {f : Option TxFrame} (h : TableFits s) : TableFits (s.markReported f) := by
  unfold State.markReported
  split
  · exact h.onFlt reportedBy_fits
  · exact h

theorem TableFits.enterListenOnly (h : TableFits s) : TableFits s.enterListenOnly := h.onYbi.onFlt id

theorem TableFits.goAbsent {n : Nat} (h : TableFits s) : TableFits (s.goAbsent n) := h.onEntry.raise.onCtb.stationGone

/-! ### The link, the ports, the line and the survey -/

theorem TableFits.endProbe {m : List Int} (h : TableFits s) : TableFits (s.endProbe m) :=
  TableFits.ite h.onLle.onLle.sayFar h.onLle.trainingFailure

theorem TableFits.takeTables {a b : List Nat} (h : TableFits s) : TableFits (s.takeTables a b) :=
  TableFits.ite h.trainingFailure h.onLle.enterShowtime

theorem TableFits.lockoutEnds (h : TableFits s) : TableFits s.lockoutEnds := TableFits.ite h.onLle h.enterDown

theorem TableFits.overheadExpires {o : Outstanding} (h : TableFits s) : TableFits (s.overheadExpires o) :=
  TableFits.ite h.onLle.sayFar h.onLle.abandoned

theorem TableFits.farSwap {n g : Nat} {t : TableName} {b : List Nat} (h : TableFits s) :
    TableFits (s.farSwap n t g b) :=
  TableFits.ite h.onLle.answerFar h.answerFar

theorem TableFits.refreshDue {m : List Int} (h : TableFits s) : TableFits (s.refreshDue m) :=
  TableFits.ite h.onSync.refresh h.onSync.deferVisit

theorem TableFits.takeImpulse {i : Impulse} (h : TableFits s) : TableFits (s.takeImpulse i) :=
  h.signal.onSync.lockRules.recomputeDepth

theorem TableFits.marginWatchEnds (h : TableFits s) : TableFits s.marginWatchEnds := by
  unfold State.marginWatchEnds
  split
  · exact h.onSync.raise
  · exact h.onSync.makeInactive
  · exact h

theorem TableFits.lateOnHook {p : Port} (h : TableFits s) : TableFits (s.lateOnHook p) :=
  TableFits.ite h.takeOnHook.settle h

theorem TableFits.loopClosed {p : Port} (h : TableFits s) : TableFits (s.loopClosed p) := by
  unfold State.loopClosed
  split
  · exact h.takeOffHook
  · exact h.takeOffHook
  · exact h
  · split
    · exact h
    · exact h.closeBreak

theorem TableFits.takeCurrent {p : Port} {n : Nat} (h : TableFits s) : TableFits (s.takeCurrent p n) :=
  TableFits.ite h.onPins.watchCurrent h.onPins

theorem TableFits.feedStands (h : TableFits s) : TableFits s.feedStands :=
  TableFits.ite h.onVsw h.onVsw.makeInactive.handOverLine

theorem TableFits.takeBurst (h : TableFits s) : TableFits s.takeBurst := by
  unfold State.takeBurst
  split
  · exact h.setLine.onVsw.senseRinging.ringStart
  · exact h.onVsw.senseRinging
  · exact h

theorem TableFits.beginPhase (h : TableFits s) : TableFits s.beginPhase := by
  unfold State.beginPhase
  split
  · split
    · exact h.beginVoltage
    · exact h
  · split
    · exact h.beginMetallic
    · exact h
  · exact h

theorem TableFits.restored (h : TableFits s) : TableFits s.restored := h.onLth.leaveTest.continueSurvey 2

/-! ### Every command and every step -/

/-- Every next state that a command may end in has a fault table that fits. -/
def EndsFit (o : Host.Outcome State Fault Refusal) : Prop := ∀ t, o = .next t → TableFits t

theorem endsFit_next (h : TableFits s) : EndsFit (.next s) := by
  rintro t ⟨⟩
  exact h

theorem endsFit_finish {before : State} (h : TableFits s) : EndsFit (finish before s) := endsFit_next h.settle

/-- A command that only takes a request of a station for the part. -/
theorem endsFit_serve {pick : Delivered → Bool} {f : Delivered → State → State} (h : TableFits s)
    (hf : ∀ d s, TableFits s → TableFits (f d s)) : EndsFit (finish s (s.serve pick f)) :=
  endsFit_finish (h.serve hf)

/-- A command that is only the expiry of a timer. -/
theorem endsFit_onExpiry {d : Timer} {f : State → State} (h : TableFits s)
    (hf : ∀ s, TableFits s → TableFits (f s)) : EndsFit (finish s (s.onExpiry d f)) :=
  endsFit_finish (h.onExpiry hf)

/-- A command that acts when its condition holds, and changes nothing otherwise. -/
theorem endsFit_ite {c : Prop} [Decidable c] {t : State} (h : TableFits s) (ht : TableFits t) :
    EndsFit (finish s (if c then t else s)) :=
  endsFit_finish (TableFits.ite ht h)

theorem endsFit_frameReceived (low : Nat) (wire : List WireRun) (h : TableFits s) :
    EndsFit (execFrameReceived low wire s) := by
  unfold execFrameReceived
  split
  · exact endsFit_finish h
  · exact endsFit_next (TableFits.foldl (fun _ _ hs => hs.hear) _ h)
  · exact endsFit_next (TableFits.foldl (fun _ _ hs => hs.hear) _ h)

theorem endsFit_frameSent (h : TableFits s) : EndsFit (execFrameSent s) := by
  refine endsFit_finish ?_
  split
  · exact h.headLeaves.markReported.afterLeaving
  · exact h

theorem endsFit_collision (h : TableFits s) : EndsFit (execCollision s) := by
  refine endsFit_finish ?_
  split
  · exact TableFits.ite h.headLeaves.enterListenOnly.raise h.headLeaves.afterLeaving
  · exact h

theorem endsFit_take (h : TableFits s) : EndsFit (execTake s) := by
  refine endsFit_finish ?_
  split
  · exact h.takeUp
  · exact h

theorem endsFit_overheardGrant (h : TableFits s) : EndsFit (execOverheardGrant s) := by
  refine endsFit_finish ?_
  split
  · split
    · exact h.hearGrant
    · exact h
  · exact h

theorem endsFit_overheardTake (h : TableFits s) : EndsFit (execOverheardTake s) := by
  refine endsFit_finish ?_
  split
  · exact h.hearTake
  · exact h

theorem endsFit_pendingAnyExpiry (n : Nat) (h : TableFits s) : EndsFit (execPendingAnyExpiry n s) := by
  refine endsFit_finish ?_
  split
  · exact h.reach.anyExpires
  · exact h

theorem endsFit_test (h : TableFits s) : EndsFit (execTest s) := by
  refine endsFit_serve h fun d s h => ?_
  split
  · exact h.testRequest
  · exact h

theorem endsFit_counterRead (h : TableFits s) : EndsFit (execCounterRead s) := by
  refine endsFit_serve h fun d s h => ?_
  split
  · exact h.readCounter
  · exact h

theorem endsFit_counterReadClear (h : TableFits s) : EndsFit (execCounterReadClear s) := by
  refine endsFit_serve h fun d s h => ?_
  split
  · exact h.clearCounter
  · exact h

theorem endsFit_counterSet (h : TableFits s) : EndsFit (execCounterSet s) := by
  refine endsFit_serve h fun d s h => ?_
  split
  · exact h.setCounter
  · exact h

theorem endsFit_counterDelegate (h : TableFits s) : EndsFit (execCounterDelegate s) := by
  refine endsFit_serve h fun d s h => h.asManager ?_
  split
  · exact h.delegateCounter
  · exact h

theorem endsFit_railSettleEnd (h : TableFits s) : EndsFit (execRailSettleEnd s) := by
  refine endsFit_finish ?_
  split
  · exact h.reach.onSup
  · exact h

theorem endsFit_overheadTimerExpiry (h : TableFits s) : EndsFit (execOverheadTimerExpiry s) := by
  refine endsFit_finish ?_
  split
  · exact h.reach.overheadExpires
  · exact h

theorem endsFit_predictionMiss (h : TableFits s) : EndsFit (execPredictionMiss s) := by
  refine endsFit_finish ?_
  split
  · exact h.onSync.missPrediction
  · exact h

theorem endsFit_outpulseTimerExpiry (h : TableFits s) : EndsFit (execOutpulseTimerExpiry s) := by
  refine endsFit_finish ?_
  split
  · exact h.reach.onVsw
  · exact h

theorem endsFit_automaticCheckStart (h : TableFits s) : EndsFit (execAutomaticCheckStart s) := by
  refine endsFit_finish ?_
  split
  · exact TableFits.ite h.startSurvey.beginVoltage h
  · exact h

theorem endsFit_itemTimerExpiry (r : LoopReadings) (h : TableFits s) : EndsFit (execItemTimerExpiry r s) := by
  refine endsFit_finish ?_
  split
  · exact h.onExpiry fun _ => TableFits.completeItem
  · exact h

/-- Every command, whatever its operands. -/
theorem endsFit_exec (i : Instr) (h : TableFits s) : EndsFit (exec i s) := by
  cases i with
  | deviceReset straps mainsOk battLow => exact endsFit_finish (tableFits_afterReset _ _ _ _).deriveSupply
  | configReadDone memory => exact endsFit_ite h h.endLoading
  | listenTimerExpiry => exact endsFit_onExpiry h fun _ => TableFits.beginReady
  | frameReceived low wire => exact endsFit_frameReceived low wire h
  | ownSlotBegins cls => exact endsFit_ite h h.ownSlot
  | frameSent => exact endsFit_frameSent h
  | collision => exact endsFit_collision h
  | yieldEnd => exact endsFit_ite h h.onYbi
  | backlogTimerExpiry => exact endsFit_onExpiry h fun _ hs => hs.onYbi.makeInactive
  | presenceTimerExpiry => exact endsFit_onExpiry h fun _ hs => hs.onYbi.handRoutine
  | presenceAgeing => exact endsFit_onExpiry h fun _ hs => hs.onYbi
  | stationAbsent station => exact endsFit_ite h h.goAbsent
  | hookOn => exact endsFit_serve h fun _ _ => TableFits.hookOn
  | hookFlash => exact endsFit_serve h fun _ _ => TableFits.hookFlash
  | claimOutside => exact endsFit_serve h fun _ _ hs => hs.withTag hs.decideOutside
  | claimOutsideAny => exact endsFit_serve h fun _ _ => TableFits.claimAny
  | claimAnswer => exact endsFit_serve h fun _ _ hs => hs.withTag hs.decideAnswer
  | claimIntercom => exact endsFit_serve h fun _ _ hs => hs.withTag hs.claimIntercom
  | claimJoin => exact endsFit_serve h fun _ _ hs => hs.withTag hs.decideJoin
  | take => exact endsFit_take h
  | hold => exact endsFit_serve h fun _ _ => TableFits.takeHold
  | retrieve => exact endsFit_serve h fun _ _ hs => hs.withTag hs.decideRetrieve
  | release => exact endsFit_serve h fun _ _ => TableFits.takeRelease
  | overheardGrant => exact endsFit_overheardGrant h
  | overheardTake => exact endsFit_overheardTake h
  | grantDeadlineExpiry station => exact endsFit_onExpiry h fun _ => TableFits.withdraw
  | pendingAnyExpiry station => exact endsFit_pendingAnyExpiry station h
  | intercomRingExpiry callId => exact endsFit_onExpiry h fun _ => TableFits.removeCall
  | holdAgeRecall callId => exact endsFit_onExpiry h fun _ => TableFits.recallDue
  | recallRetryExpiry callId => exact endsFit_onExpiry h fun _ => TableFits.recallAgain
  | holdAgeRelease callId => exact endsFit_onExpiry h fun _ => TableFits.toClearing
  | clearingGuardExpiry callId => exact endsFit_onExpiry h fun _ => TableFits.removeCall
  | queryLink => exact endsFit_serve h fun _ _ => TableFits.report
  | queryLoopRecord => exact endsFit_serve h fun _ _ => TableFits.queryLoop
  | queryFaultSummary => exact endsFit_serve h fun _ _ => TableFits.querySummary
  | queryFaultAll => exact endsFit_serve h fun _ _ => TableFits.queryFaults
  | queryFaultActive => exact endsFit_serve h fun _ _ => TableFits.queryFaults
  | queryPresenceTable => exact endsFit_serve h fun _ _ => TableFits.queryPresence
  | queryConfiguration => exact endsFit_serve h fun _ _ => TableFits.queryConfiguration
  | test => exact endsFit_test h
  | linkControlHold => exact endsFit_serve h fun _ _ hs => hs.asManager hs.controlHold
  | linkControlRelease => exact endsFit_serve h fun _ _ hs => hs.asManager hs.done.removeHolder
  | linkControlRetrain => exact endsFit_serve h fun _ _ hs => hs.asManager hs.controlRetrain
  | clearRetry => exact endsFit_serve h fun _ _ hs => hs.asManager hs.clearRetry
  | clearFaults => exact endsFit_serve h fun _ _ hs => hs.asManager (hs.onFlt cleared_fits).done
  | counterRead => exact endsFit_counterRead h
  | counterReadClear => exact endsFit_counterReadClear h
  | counterSet => exact endsFit_counterSet h
  | counterDelegate => exact endsFit_counterDelegate h
  | mainsOkChange level => exact endsFit_finish h.onPins.onSup
  | mainsOkDebounced => exact endsFit_onExpiry h fun _ hs => hs.onSup.deriveSupply
  | battLowChange asserted => exact endsFit_finish h.onPins.onSup
  | battLowDebounced => exact endsFit_onExpiry h fun _ hs => hs.onSup.deriveSupply
  | railSettleEnd => exact endsFit_railSettleEnd h
  | converterSettleEnd => exact endsFit_onExpiry h fun _ hs => hs.onSup
  | converterIdleExpiry => exact endsFit_onExpiry h fun _ hs => hs.onSup
  | handshakeStart => exact endsFit_ite h h.onLle.sayFar
  | farEndAnswer => exact endsFit_ite h h.onLle
  | handshakeTimeout => exact endsFit_onExpiry h fun _ => TableFits.trainingFailure
  | probeEnd snr => exact endsFit_onExpiry h fun _ => TableFits.endProbe
  | probeSignalLoss => exact endsFit_ite h h.trainingFailure
  | farTablesReceived normal guard => exact endsFit_ite h h.takeTables
  | loadTimeout => exact endsFit_onExpiry h fun _ => TableFits.trainingFailure
  | backoffExpiry => exact endsFit_onExpiry h fun _ => TableFits.enterDown
  | lockoutExpiry => exact endsFit_onExpiry h fun _ => TableFits.lockoutEnds
  | overheadAgree number => exact endsFit_finish (h.takeAnswer fun _ _ => TableFits.agreed)
  | overheadDecline number => exact endsFit_finish (h.takeAnswer fun _ _ => TableFits.declined)
  | overheadTimerExpiry => exact endsFit_overheadTimerExpiry h
  | farEndSwap number table group bits => exact endsFit_finish (h.takeFar h.farSwap)
  | farEndSwitch number table => exact endsFit_finish (h.takeFar h.onLle.answerFar)
  | farEndRetrain number => exact endsFit_finish (h.takeFar h.enterDown)
  | payloadFrameOffered payload => exact endsFit_ite h h.onPlp
  | payloadFrameSent => exact endsFit_ite h h.onPlp
  | refreshTimerExpiry measured => exact endsFit_onExpiry h fun _ => TableFits.refreshDue
  | catchUpExpiry measured => exact endsFit_onExpiry h fun _ hs => hs.onSync.refresh
  | guardExit => exact endsFit_onExpiry h fun _ hs => hs.onSync.alignTable
  | switchRetryExpiry => exact endsFit_onExpiry h fun _ hs => hs.onSync.alignTable
  | impulseEvent start length => exact endsFit_ite h h.takeImpulse
  | predictionMiss => exact endsFit_predictionMiss h
  | correctedCodeword => exact endsFit_finish h.codeword
  | uncorrectedCodeword => exact endsFit_finish h.codeword
  | secondTimerExpiry => exact endsFit_onExpiry h fun _ hs => hs.onSync.endSecond
  | signalAbsent => exact endsFit_ite h h.onSync
  | signalPresent => exact endsFit_ite h h.onSync
  | lossOfSignalExpiry => exact endsFit_onExpiry h fun _ hs => hs.drop.onLth
  | marginWatchExpiry => exact endsFit_onExpiry h fun _ => TableFits.marginWatchEnds
  | portLoopClosed port => exact endsFit_ite h.lateOnHook h.lateOnHook.loopClosed
  | portLoopOpened port => exact endsFit_ite h h.onPort
  | portOnHook port => exact endsFit_ite h (h.onExpiry fun _ => TableFits.takeOnHook)
  | digitPauseExpiry port => exact endsFit_onExpiry h fun _ => TableFits.endPulses
  | dtmfDigit port key => exact endsFit_finish h.takeDigit
  | firstDigitWindowExpiry port => exact endsFit_onExpiry h fun _ => TableFits.firstWindowEnds
  | interDigitExpiry port => exact endsFit_onExpiry h fun _ => TableFits.onPort
  | postFlashWindowExpiry port => exact endsFit_onExpiry h fun _ => TableFits.postFlashEnds
  | offHookTimerExpiry port => exact endsFit_onExpiry h fun _ => TableFits.enterHowler
  | howlerTimerExpiry port => exact endsFit_onExpiry h fun _ hs => hs.onPort.raise
  | noLoadTimerExpiry port => exact endsFit_onExpiry h fun _ => TableFits.beginCheck
  | noLoadCheckDone port ringerFound => exact endsFit_onExpiry h fun _ => TableFits.endCheck
  | loopCurrentChange port milliamp => exact endsFit_finish h.takeCurrent
  | lowCurrentExpiry port => exact endsFit_onExpiry h fun _ hs => hs.onPort.raise
  | lineVoltageChange millivolt => exact endsFit_finish h.onPins.senseVoltage
  | offHookBandHeld => exact endsFit_onExpiry h fun _ => TableFits.endRinging
  | onHookBandHeld => exact endsFit_onExpiry h fun _ => TableFits.setLine
  | noFeedExpiry => exact endsFit_onExpiry h fun _ hs => hs.onVsw.raise.handOverLine
  | feedRestored => exact endsFit_onExpiry h fun _ => TableFits.feedStands
  | ringingVoltageChange present => exact endsFit_finish h.onPins.senseRinging
  | ringBurstDetected => exact endsFit_ite h (h.onExpiry fun _ => TableFits.takeBurst)
  | ringBurstEnd => exact endsFit_onExpiry h fun _ hs => hs.onVsw.senseRinging
  | ringEndTimeout => exact endsFit_onExpiry h fun _ => TableFits.endRinging
  | releaseGuardExpiry => exact endsFit_onExpiry h fun _ => TableFits.setLine
  | outpulseTimerExpiry => exact endsFit_outpulseTimerExpiry h
  | cadencePhaseExpiry callId => exact endsFit_onExpiry h fun _ hs => hs.onVsw
  | testRingDetected => exact endsFit_ite h (h.onExpiry fun _ hs => hs.onVsw.abortSurvey)
  | surveyPhaseStart => exact endsFit_ite h h.beginPhase
  | automaticCheckStart => exact endsFit_automaticCheckStart h
  | itemTimerExpiry readings => exact endsFit_itemTimerExpiry readings h
  | restoreTimerExpiry => exact endsFit_onExpiry h fun _ => TableFits.restored
  | waitTimerExpiry => exact endsFit_onExpiry h fun _ hs => hs.onRunning.continueSurvey 2
  | holdOffExpiry => exact endsFit_onExpiry h fun _ hs => hs.onLth
  | periodicCheckExpiry => exact endsFit_onExpiry h fun _ hs => hs.onLth
  | recheckTimerExpiry => exact endsFit_onExpiry h fun _ hs => hs.onLth
  | lampFlashToggle => exact endsFit_onExpiry h fun _ hs => hs.onFlt id
  | anotherStationStartBit => exact endsFit_ite h h.onYbi

theorem endsFit_step (h : TableFits s) : EndsFit (step s) := by
  unfold step
  split
  · exact endsFit_exec _ h
  · exact endsFit_next h.reach

/-! ### The summary severity of a list of entries (R181) -/

/-- An ACTIVE entry of the list has the severity. -/
def activeAt (l : List FaultEntry) (v : Severity) : Bool :=
  l.any fun e => e.active && decide (e.key.code.severity = v)

theorem activeAt_iff {l : List FaultEntry} {v : Severity} :
    activeAt l v = true ↔ ∃ e ∈ l, e.active = true ∧ e.key.code.severity = v := by
  simp [activeAt]

/-- The summary is the first of OUT, DEGRADED and NOTICE at which an entry is ACTIVE. -/
theorem summaryOf_eq (l : List FaultEntry) : summaryOf l =
    if activeAt l .out then .out else if activeAt l .degraded then .degraded
      else if activeAt l .notice then .notice else .good :=
  rfl

theorem summaryOf_eq_good_or_activeAt (l : List FaultEntry) :
    summaryOf l = .good ∨ activeAt l (summaryOf l) = true := by
  rw [summaryOf_eq]
  split_ifs with out degraded notice
  · exact .inr out
  · exact .inr degraded
  · exact .inr notice
  · exact .inl rfl

/-- No severity at which an entry is ACTIVE is above the summary. -/
theorem code_le_summaryOf {l : List FaultEntry} {v : Severity} (found : activeAt l v = true) :
    v.code ≤ (summaryOf l).code := by
  cases v with
  | good => exact Nat.zero_le _
  | notice =>
    rw [summaryOf_eq, if_pos found]
    split_ifs <;> decide
  | degraded =>
    rw [summaryOf_eq, if_pos found]
    split_ifs <;> decide
  | out => rw [summaryOf_eq, if_pos found]

/-- Settles O56: the summary as the first severity found, and the shape of the table kept by every command. -/
theorem summaryIsTheHighestActive : Obligations.SummaryIsTheHighestActive :=
  ⟨fun l => ⟨fun e he active => code_le_summaryOf (activeAt_iff.mpr ⟨e, he, active, rfl⟩),
      (summaryOf_eq_good_or_activeAt l).imp_right activeAt_iff.mp, summaryOf_active l⟩,
    rfl,
    fun _ t fits next => (endsFit_step (tableFits_of_fits fits) t next).summary_eq⟩

end Sys2Proof.Proofs.Faults
end

section
/-! What every command keeps, part one: the shared operations of the blocks. `Tells s t` says that `t` differs from `s`
in what notices, discards and counted events can touch alone; `Moves s t` adds to the frame of the laws (`Keeps`) that
the own address stands, that listen-only stays mute, and that no port begins to ring. One lemma per operation, in the
form "what has moved from s0, has moved from s0 after the operation". -/

set_option Elab.async false

namespace Sys2Proof.Proofs.Steps

open Sys2Proof Sys2Proof.Machine

/-! ### What notices, discards and events touch -/

/-- The three queues, the backlog timer, the fault table and the counters. -/
structure Told where
  urgent : List TxFrame
  call : List TxFrame
  routine : List TxFrame
  backlog : Timer
  flt : Flt
  ctb : Ctb

/-- The state with these in the place of its own. -/
def told (q : Told) (s : State) : State :=
  { s with
    ybi := { s.ybi with urgent := q.urgent, call := q.call, routine := q.routine, backlogTimer := q.backlog }
    flt := q.flt
    ctb := q.ctb }

section told
variable (q : Told) (s : State)
@[simp] theorem told_now : (told q s).now = s.now := rfl
@[simp] theorem told_pins : (told q s).pins = s.pins := rfl
@[simp] theorem told_cfl : (told q s).cfl = s.cfl := rfl
@[simp] theorem told_sup : (told q s).sup = s.sup := rfl
@[simp] theorem told_lle : (told q s).lle = s.lle := rfl
@[simp] theorem told_plp : (told q s).plp = s.plp := rfl
@[simp] theorem told_vsw : (told q s).vsw = s.vsw := rfl
@[simp] theorem told_cct : (told q s).cct = s.cct := rfl
@[simp] theorem told_lth : (told q s).lth = s.lth := rfl
@[simp] theorem told_flt : (told q s).flt = q.flt := rfl
@[simp] theorem told_ctb : (told q s).ctb = q.ctb := rfl
@[simp] theorem told_pending : (told q s).pending = s.pending := rfl
end told

/-- `t` differs from `s` in these alone, and in listen-only the queues stand. -/
def Tells (s t : State) : Prop :=
  ∃ q, t = told q s ∧
    (s.ybi.listenOnly = true → q.urgent = s.ybi.urgent ∧ q.call = s.ybi.call ∧ q.routine = s.ybi.routine)

variable {s t u : State}

theorem Tells.refl (s : State) : Tells s s :=
  ⟨⟨s.ybi.urgent, s.ybi.call, s.ybi.routine, s.ybi.backlogTimer, s.flt, s.ctb⟩, rfl, fun _ => ⟨rfl, rfl, rfl⟩⟩

theorem Tells.trans (h : Tells s t) (g : Tells t u) : Tells s u := by
  obtain ⟨q, rfl, hq⟩ := h
  obtain ⟨r, rfl, hr⟩ := g
  refine ⟨r, rfl, fun l => ?_⟩
  obtain ⟨u1, c1, r1⟩ := hq l
  obtain ⟨u2, c2, r2⟩ := hr l
  exact ⟨u2.trans u1, c2.trans c1, r2.trans r1⟩

theorem Tells.onFlt (f : Flt → Flt) (s : State) : Tells s (s.onFlt f) :=
  ⟨⟨s.ybi.urgent, s.ybi.call, s.ybi.routine, s.ybi.backlogTimer, f s.flt, s.ctb⟩, rfl, fun _ => ⟨rfl, rfl, rfl⟩⟩

theorem Tells.onCtb (f : Ctb → Ctb) (s : State) : Tells s (s.onCtb f) :=
  ⟨⟨s.ybi.urgent, s.ybi.call, s.ybi.routine, s.ybi.backlogTimer, s.flt, f s.ctb⟩, rfl, fun _ => ⟨rfl, rfl, rfl⟩⟩

theorem Tells.urgent (l : List TxFrame) (h : ¬ s.ybi.listenOnly = true) :
    Tells s (s.onYbi fun y => { y with urgent := l }) :=
  ⟨⟨l, s.ybi.call, s.ybi.routine, s.ybi.backlogTimer, s.flt, s.ctb⟩, rfl, fun x => absurd x h⟩

theorem Tells.call (l : List TxFrame) (h : ¬ s.ybi.listenOnly = true) :
    Tells s (s.onYbi fun y => { y with call := l }) :=
  ⟨⟨s.ybi.urgent, l, s.ybi.routine, s.ybi.backlogTimer, s.flt, s.ctb⟩, rfl, fun x => absurd x h⟩

theorem Tells.routine (l : List TxFrame) (h : ¬ s.ybi.listenOnly = true) :
    Tells s (s.onYbi fun y => { y with routine := l }) :=
  ⟨⟨s.ybi.urgent, s.ybi.call, l, s.ybi.backlogTimer, s.flt, s.ctb⟩, rfl, fun x => absurd x h⟩

theorem Tells.backlogTimer (d : Timer) (s : State) : Tells s (s.onYbi fun y => { y with backlogTimer := d }) :=
  ⟨⟨s.ybi.urgent, s.ybi.call, s.ybi.routine, d, s.flt, s.ctb⟩, rfl, fun _ => ⟨rfl, rfl, rfl⟩⟩

theorem Tells.listenOnly (h : Tells s t) : t.ybi.listenOnly = s.ybi.listenOnly := by
  obtain ⟨q, rfl, -⟩ := h
  rfl

theorem Tells.ite {c : Prop} [Decidable c] (h : Tells s t) (g : Tells s u) : Tells s (if c then t else u) := by
  split
  · exact h
  · exact g

theorem Tells.foldl {α : Type} {f : State → α → State} (hf : ∀ s a, Tells s (f s a)) (l : List α) (s : State) :
    Tells s (l.foldl f s) := by
  induction l generalizing s with
  | nil => exact Tells.refl s
  | cons a l ih => exact (hf s a).trans (ih (f s a))

theorem tells_noticeRoutine (e : FaultEntry) (s : State) : Tells s (s.noticeRoutine e) := by
  unfold State.noticeRoutine
  split
  · exact Tells.refl s
  · rename_i heard
    dsimp only
    split
    · exact Tells.routine _ heard
    · exact Tells.ite (Tells.routine _ heard) (Tells.ite (Tells.refl s) (Tells.onFlt _ s))

theorem tells_backlog (s : State) : Tells s s.backlog := by
  have raised : Tells s ((s.onFlt fun _ => (s.flt.raised backlogKey s.now s.uptime).1).onYbi fun y =>
      { y with backlogTimer := some (s.now + Config.backlogMs) }) :=
    (Tells.onFlt _ s).trans (Tells.backlogTimer _ _)
  unfold State.backlog
  dsimp only
  split
  · exact raised.trans (tells_noticeRoutine _ _)
  · exact raised

theorem tells_handWrap {dropped : State → State} (hd : ∀ s, Tells s (dropped s)) (f : TxFrame) (s : State) :
    Tells s (s.handWrap dropped f) := by
  unfold State.handWrap
  split
  · exact Tells.refl s
  · exact Tells.ite (Tells.routine _ ‹_›) (hd s)

theorem tells_signalFuel (fuel : Nat) (e : Event) (s : State) : Tells s (State.signalFuel fuel e s) := by
  induction fuel generalizing e s with
  | zero => exact Tells.onCtb _ s
  | succ fuel ih =>
    exact (Tells.onCtb _ s).trans
      (Tells.foldl (fun s _ => tells_handWrap (fun s => (ih _ s).trans (tells_backlog _)) _ s) _ _)

theorem tells_signal (e : Event) (s : State) : Tells s (s.signal e) := tells_signalFuel 9 e s

theorem tells_signalTimes (n : Nat) (e : Event) (s : State) : Tells s (State.signalTimes n e s) := by
  induction n generalizing s with
  | zero => exact Tells.refl s
  | succ n ih => exact (tells_signal e s).trans (ih _)

theorem tells_frameDropped (s : State) : Tells s s.frameDropped := (tells_signal _ s).trans (tells_backlog _)

theorem tells_handUrgent (f : TxFrame) (s : State) : Tells s (s.handUrgent f) := by
  unfold State.handUrgent
  split
  · exact Tells.refl s
  · rename_i heard
    have room : Tells s (if s.ybi.urgent.length < Config.urgentCapacity then s
        else (s.onYbi fun y => { y with urgent := dropOldestUnsent (s.isSending .urgent) y.urgent }).frameDropped) :=
      Tells.ite (Tells.refl s) ((Tells.urgent _ heard).trans (tells_frameDropped _))
    exact room.trans (Tells.urgent _ (by rw [room.listenOnly]; exact heard))

theorem tells_handCall (f : TxFrame) (s : State) : Tells s (s.handCall f) := by
  unfold State.handCall
  split
  · exact Tells.refl s
  · exact Tells.ite (Tells.call _ ‹_›) (tells_frameDropped s)

theorem tells_handRoutine (f : TxFrame) (s : State) : Tells s (s.handRoutine f) := by
  unfold State.handRoutine
  split
  · exact Tells.refl s
  · split
    · exact Tells.routine _ ‹_›
    · exact Tells.ite (Tells.routine _ ‹_›) (tells_frameDropped s)

theorem tells_notice (k : FaultKey) (s : State) : Tells s (s.notice k) := by
  unfold State.notice
  split
  · exact Tells.refl s
  · exact Tells.ite (tells_handUrgent _ s) (tells_noticeRoutine _ s)

theorem tells_applyFault (k : FaultKey) (r : Flt × Bool) (s : State) : Tells s (s.applyFault k r) :=
  Tells.ite ((Tells.onFlt _ s).trans (tells_notice k _)) (Tells.onFlt _ s)

theorem tells_raise (c : FaultCode) (x : FaultSource) (s : State) : Tells s (s.raise c x) := tells_applyFault _ _ s
theorem tells_makeInactive (c : FaultCode) (x : FaultSource) (s : State) : Tells s (s.makeInactive c x) :=
  tells_applyFault _ _ s
theorem tells_protocolFault (n : Nat) (s : State) : Tells s (s.protocolFault n) := tells_applyFault _ _ s
theorem tells_raiseUnlessActive (c : FaultCode) (x : FaultSource) (s : State) : Tells s (s.raiseUnlessActive c x) :=
  Tells.ite (Tells.refl s) (tells_raise c x s)
theorem tells_refuse (n : Nat) (k : Kind) (r : RefuseReason) (tag : Nat) (s : State) : Tells s (s.refuse n k r tag) :=
  tells_handCall _ s
theorem tells_done (n : Nat) (k : Kind) (s : State) : Tells s (s.done n k) := tells_handRoutine _ s
theorem tells_report (n : Nat) (b : List Byte) (s : State) : Tells s (s.report n b) := tells_handRoutine _ s
theorem tells_lineStatus (s : State) : Tells s s.lineStatus := tells_handRoutine _ s

/-! ### What has moved -/

/-- R6: in listen-only the queues are empty and no reply stream runs. -/
def Mute (y : Ybi) : Prop :=
  y.listenOnly = true → y.urgent = [] ∧ y.call = [] ∧ y.routine = [] ∧ y.stream = none

/-- A change of the YBI that leaves the capacities, the own address, listen-only and its silence. -/
structure YbiMoves (y z : Ybi) : Prop where
  fits : y.fits = true → z.fits = true
  address : z.ownAddress = y.ownAddress
  listening : y.listenOnly = true → z.listenOnly = true
  mute : Mute y → Mute z

theorem YbiMoves.refl (y : Ybi) : YbiMoves y y := ⟨id, rfl, id, id⟩

/-- What an operation of the part leaves, whatever it is for. -/
structure Moves (s t : State) : Prop where
  keeps : Keeps s t
  address : t.ybi.ownAddress = s.ybi.ownAddress
  listening : s.ybi.listenOnly = true → t.ybi.listenOnly = true
  mute : Mute s.ybi → Mute t.ybi
  silentA : t.vsw.portA.state = .ringing → s.vsw.portA.state = .ringing
  silentB : t.vsw.portB.state = .ringing → s.vsw.portB.state = .ringing

theorem Moves.refl (s : State) : Moves s s := ⟨Keeps.refl s, rfl, id, id, id, id⟩

theorem Moves.trans (h : Moves s t) (g : Moves t u) : Moves s u :=
  ⟨h.keeps.trans g.keeps, g.address.trans h.address, fun x => g.listening (h.listening x), fun x => g.mute (h.mute x),
    fun x => h.silentA (g.silentA x), fun x => h.silentB (g.silentB x)⟩

variable {s0 : State}

theorem Moves.ite {c : Prop} [Decidable c] (h : Moves s0 s) (g : Moves s0 t) : Moves s0 (if c then s else t) := by
  split
  · exact h
  · exact g

theorem Moves.foldl {α : Type} {f : State → α → State} (hf : ∀ s a, Moves s0 s → Moves s0 (f s a)) (l : List α)
    (h : Moves s0 s) : Moves s0 (l.foldl f s) := by
  induction l generalizing s with
  | nil => exact h
  | cons a l ih => exact ih (hf s a h)

theorem Moves.repeat {f : State → State} (hf : ∀ s, Moves s0 s → Moves s0 (f s)) (n : Nat) (h : Moves s0 s) :
    Moves s0 (Nat.repeat f n s) := by
  induction n with
  | zero => exact h
  | succ n ih => exact hf _ ih

/-- What tells and keeps, moves. -/
theorem Moves.tell (h : Moves s0 s) (w : Tells s t) (k : Keeps s t) : Moves s0 t := by
  refine h.trans ?_
  obtain ⟨q, rfl, hq⟩ := w
  refine ⟨k, rfl, id, fun m l => ?_, id, id⟩
  obtain ⟨eu, ec, er⟩ := hq l
  obtain ⟨mu, mc, mr, ms⟩ := m l
  exact ⟨eu.trans mu, ec.trans mc, er.trans mr, ms⟩

/-! ### The modifiers -/

theorem Moves.onYbi {f : Ybi → Ybi} (h : Moves s0 s) (hf : YbiMoves s.ybi (f s.ybi) := by exact YbiMoves.refl _) :
    Moves s0 (s.onYbi f) :=
  h.trans ⟨(Keeps.refl s).onYbi hf.fits, hf.address, hf.listening, hf.mute, id, id⟩

theorem Moves.onLle {f : Lle → Lle} (h : Moves s0 s) (hf : s.lle.fits = true → (f s.lle).fits = true := by exact fun x => x) :
    Moves s0 (s.onLle f) :=
  h.trans ⟨(Keeps.refl s).onLle hf, rfl, id, id, id, id⟩

theorem Moves.onSync {f : Showtime → Showtime} (h : Moves s0 s)
    (hf : s.lle.fits = true → Lle.fits { s.lle with sync := f s.lle.sync } = true := by exact fun x => x) :
    Moves s0 (s.onSync f) :=
  h.trans ⟨(Keeps.refl s).onSync hf, rfl, id, id, id, id⟩

theorem Moves.onPlp {f : Plp → Plp} (h : Moves s0 s) (hf : s.plp.fits = true → (f s.plp).fits = true) :
    Moves s0 (s.onPlp f) :=
  h.trans ⟨(Keeps.refl s).onPlp hf, rfl, id, id, id, id⟩

theorem Moves.onCct {f : Cct → Cct} (h : Moves s0 s) (hf : s.cct.fits = true → (f s.cct).fits = true := by exact fun x => x) :
    Moves s0 (s.onCct f) :=
  h.trans ⟨(Keeps.refl s).onCct hf, rfl, id, id, id, id⟩

theorem Moves.onLth {f : Lth → Lth} (h : Moves s0 s) : Moves s0 (s.onLth f) :=
  h.trans ⟨(Keeps.refl s).onLth, rfl, id, id, id, id⟩

theorem Moves.onFlt {f : Flt → Flt} (h : Moves s0 s) (hf : s.flt.fits = true → (f s.flt).fits = true := by exact fun x => x) :
    Moves s0 (s.onFlt f) :=
  h.trans ⟨(Keeps.refl s).onFlt hf, rfl, id, id, id, id⟩

theorem Moves.onCtb {f : Ctb → Ctb} (h : Moves s0 s) (hf : s.ctb.fits = true → (f s.ctb).fits = true) :
    Moves s0 (s.onCtb f) :=
  h.trans ⟨(Keeps.refl s).onCtb hf, rfl, id, id, id, id⟩

/-- A change of the VSW that leaves the ring plan and the ports, and keeps the repeat queue short. -/
theorem Moves.onVsw {f : Vsw → Vsw} (h : Moves s0 s)
    (hf : s.vsw.fits = true → (f s.vsw).fits = true := by exact fun x => x)
    (hp : (f s.vsw).plan = s.vsw.plan := by exact rfl) (he : (f s.vsw).episodes = s.vsw.episodes := by exact rfl)
    (ha : (f s.vsw).portA = s.vsw.portA := by exact rfl) (hb : (f s.vsw).portB = s.vsw.portB := by exact rfl) :
    Moves s0 (s.onVsw f) :=
  h.trans ⟨(Keeps.refl s).onVsw hf hp he, rfl, id, id, fun x => (congrArg PortRec.state ha) ▸ x,
    fun x => (congrArg PortRec.state hb) ▸ x⟩

/-- A change of a port that does not make it ring. -/
theorem Moves.onPort {p : Port} {f : PortRec → PortRec} (h : Moves s0 s)
    (hf : (f (s.port p)).state = .ringing → (s.port p).state = .ringing := by exact fun x => x) : Moves s0 (s.onPort p f) := by
  refine h.trans ?_
  cases p with
  | a => exact ⟨(Keeps.refl s).onPort, rfl, id, id, hf, id⟩
  | b => exact ⟨(Keeps.refl s).onPort, rfl, id, id, id, hf⟩

/-- A port put in a state other than RINGING. -/
theorem Moves.setPort {p : Port} {f : PortRec → PortRec} (h : Moves s0 s) (x : PortState)
    (hf : (f (s.port p)).state = x := by exact rfl) (hx : x ≠ .ringing := by decide) : Moves s0 (s.onPort p f) :=
  h.onPort fun e => absurd (hf.symm.trans e) hx

/-! ### The shared operations -/

theorem reach_frame (d : Nat) (s : State) :
    ∃ n l, s.reach d = { s with now := n, lle := l } ∧ l = { s.lle with sync := l.sync } := by
  unfold State.reach
  split
  · exact ⟨s.now, s.lle, rfl, rfl⟩
  · split
    · exact ⟨d, _, rfl, rfl⟩
    · exact ⟨d, s.lle, rfl, rfl⟩

theorem Moves.reach {d : Nat} (h : Moves s0 s) : Moves s0 (s.reach d) := by
  have k : Keeps s (s.reach d) := (Keeps.refl s).reach
  obtain ⟨n, l, e, -⟩ := reach_frame d s
  rw [e] at k ⊢
  exact h.trans ⟨k, rfl, id, id, id, id⟩

theorem Moves.onExpiry {d : Timer} {f : State → State} (h : Moves s0 s) (hf : ∀ s, Moves s0 s → Moves s0 (f s)) :
    Moves s0 (s.onExpiry d f) := by
  cases d with
  | none => exact h
  | some d => exact hf _ h.reach

theorem Moves.noticeRoutine {e : FaultEntry} (h : Moves s0 s) : Moves s0 (s.noticeRoutine e) :=
  h.tell (tells_noticeRoutine e s) (Keeps.refl s).noticeRoutine
theorem Moves.signal {e : Event} (h : Moves s0 s) : Moves s0 (s.signal e) :=
  h.tell (tells_signal e s) (Keeps.refl s).signal
theorem Moves.signalTimes {n : Nat} {e : Event} (h : Moves s0 s) : Moves s0 (State.signalTimes n e s) :=
  h.tell (tells_signalTimes n e s) (Keeps.signalTimes n (Keeps.refl s))
theorem Moves.frameDropped (h : Moves s0 s) : Moves s0 s.frameDropped :=
  h.tell (tells_frameDropped s) (Keeps.refl s).frameDropped
theorem Moves.handCall {f : TxFrame} (h : Moves s0 s) : Moves s0 (s.handCall f) :=
  h.tell (tells_handCall f s) (Keeps.refl s).handCall
theorem Moves.handRoutine {f : TxFrame} (h : Moves s0 s) : Moves s0 (s.handRoutine f) :=
  h.tell (tells_handRoutine f s) (Keeps.refl s).handRoutine
theorem Moves.raise {c : FaultCode} {x : FaultSource} (h : Moves s0 s) : Moves s0 (s.raise c x) :=
  h.tell (tells_raise c x s) (Keeps.refl s).raise
theorem Moves.makeInactive {c : FaultCode} {x : FaultSource} (h : Moves s0 s) : Moves s0 (s.makeInactive c x) :=
  h.tell (tells_makeInactive c x s) (Keeps.refl s).makeInactive
theorem Moves.protocolFault {n : Nat} (h : Moves s0 s) : Moves s0 (s.protocolFault n) :=
  h.tell (tells_protocolFault n s) (Keeps.refl s).protocolFault
theorem Moves.raiseUnlessActive {c : FaultCode} {x : FaultSource} (h : Moves s0 s) :
    Moves s0 (s.raiseUnlessActive c x) :=
  h.tell (tells_raiseUnlessActive c x s) (Keeps.refl s).raiseUnlessActive
theorem Moves.refuse {n : Nat} {k : Kind} {r : RefuseReason} {tag : Nat} (h : Moves s0 s) :
    Moves s0 (s.refuse n k r tag) := h.handCall
theorem Moves.done {n : Nat} {k : Kind} (h : Moves s0 s) : Moves s0 (s.done n k) := h.handRoutine
theorem Moves.report {n : Nat} {b : List Byte} (h : Moves s0 s) : Moves s0 (s.report n b) := h.handRoutine
theorem Moves.lineStatus (h : Moves s0 s) : Moves s0 s.lineStatus := h.handRoutine

/-- In listen-only no stream runs, so that there is none to pump (R6, R11). -/
theorem Moves.pumpStream (h : Moves s0 s) : Moves s0 s.pumpStream := by
  unfold State.pumpStream
  split
  · exact h
  · rename_i st running
    have heard : Mute s.ybi → ¬ s.ybi.listenOnly = true := fun m l => by
      obtain ⟨-, -, -, none⟩ := m l
      exact Option.some_ne_none st (running.symm.trans none)
    split
    · exact h
    · exact h.onYbi ⟨id, rfl, id, fun m l => absurd l (heard m)⟩
    · split
      · refine h.onYbi ⟨fun y => ?_, rfl, id, fun m l => absurd l (heard m)⟩
        rw [ybi_fits_iff] at y ⊢
        simp_all [Config.queueCapacity]
      · exact h

theorem Moves.startStream {l : List TxFrame} (h : Moves s0 s) : Moves s0 (s.startStream l) := by
  unfold State.startStream
  split
  · exact h
  · exact (h.onYbi ⟨id, rfl, id, fun _ x => absurd x ‹_›⟩).pumpStream

theorem Moves.handOwed (h : Moves s0 s) : Moves s0 s.handOwed := by
  unfold State.handOwed
  split
  · exact h
  · split
    · dsimp only
      split
      · exact h.onFlt
      · exact h.onFlt.noticeRoutine
    · exact h

theorem Moves.onEntry {n : Nat} {g : PresenceEntry → PresenceEntry} (h : Moves s0 s) : Moves s0 (s.onEntry n g) :=
  h.trans ⟨(Keeps.refl s).onEntry, rfl, id, id, id, id⟩

theorem Moves.clearExpectation {n : Nat} (h : Moves s0 s) : Moves s0 (s.clearExpectation n) := h.onEntry

theorem Moves.popRequest (h : Moves s0 s) : Moves s0 s.popRequest :=
  h.trans ⟨(Keeps.refl s).popRequest, rfl, id, id, id, id⟩

end Sys2Proof.Proofs.Steps
end

section
/-! What every command keeps, part two: the link (chapter 3), the showtime state (chapter 5), the outside line, the
ports at the switch, and the survey (chapter 8). -/

set_option Elab.async false

namespace Sys2Proof.Proofs.Steps

open Sys2Proof Sys2Proof.Machine

variable {s0 s : State}

/-! ### Leaving and entering a link state -/

theorem Moves.sayFar {m : FarMessage} (h : Moves s0 s) : Moves s0 (s.sayFar m) := h.onLle

/-- A changed YBI-free record of the link within its capacities when the showtime state starts anew. -/
theorem lle_fits_start {l : Lle} (h : l.retry ≤ 12) (e : l.sync = Showtime.start) : l.fits = true := by
  rw [lle_fits_iff, e]
  exact ⟨h, by decide⟩

theorem Moves.departShowtime {r : DropReason} {x : LinkState} (h : Moves s0 s) : Moves s0 (s.departShowtime r x) := by
  have cut : ∀ p : Plp, p.cutShort.fits = true := fun p => by rw [plp_fits_iff]; simp
  have asked := (((h.onLle (f := fun l => { l with lastShow := some s.showValues, lastDrop := r })).signal
    (e := .retrain)).onLle (f := fun l => { l with slot := none, switchWaiting := none, powerWaiting := none, shieldWaiting := none })).onPlp
      (f := Plp.cutShort) fun _ => cut _
  exact (((asked.repeat (fun _ => Moves.frameDropped) _).onLle fun l =>
    lle_fits_start ((lle_fits_iff _).mp l).1 rfl).makeInactive.makeInactive).lineStatus

theorem Moves.leaveLink {r : DropReason} {x : LinkState} (h : Moves s0 s) : Moves s0 (s.leaveLink r x) := by
  unfold State.leaveLink
  split
  · exact h.departShowtime
  · exact h.onLle.makeInactive
  · exact h.onLle

theorem Moves.enterDown {r : DropReason} (h : Moves s0 s) : Moves s0 (s.enterDown r) := h.leaveLink.onLle
theorem Moves.enterQuiet (h : Moves s0 s) : Moves s0 s.enterQuiet := h.leaveLink.onLle
theorem Moves.enterRetrainWait {r : DropReason} {ms : Nat} (h : Moves s0 s) : Moves s0 (s.enterRetrainWait r ms) :=
  h.leaveLink.onLle
theorem Moves.enterLockout (h : Moves s0 s) : Moves s0 s.enterLockout := h.leaveLink.onLle.raise
theorem Moves.drop {r : DropReason} (h : Moves s0 s) : Moves s0 (s.drop r) := h.enterRetrainWait

theorem Moves.trainingFailure {r : FailureReason} (h : Moves s0 s) : Moves s0 (s.trainingFailure r) := by
  have counted : Moves s0 (s.onLle fun l => { l with lastFailure := r, retry := min Config.retryMax (s.lle.retry + 1) }) :=
    h.onLle fun l => by
      rw [lle_fits_iff] at l ⊢
      exact ⟨Nat.min_le_left _ _, l.2⟩
  exact Moves.ite counted.signal.enterLockout counted.signal.enterRetrainWait

theorem Moves.addHolder {x : Holder} (h : Moves s0 s) : Moves s0 (s.addHolder x) :=
  Moves.ite h (Moves.ite h.onLle h.onLle.enterQuiet)

theorem Moves.removeHolder {x : Holder} (h : Moves s0 s) : Moves s0 (s.removeHolder x) :=
  Moves.ite (Moves.ite h.onLle.enterDown h.onLle) h

theorem Moves.enterShowtime (h : Moves s0 s) : Moves s0 s.enterShowtime := by
  unfold State.enterShowtime
  refine Moves.lineStatus (Moves.onPlp (Moves.makeInactive (h.onLle fun _ => ?_)) fun p => ?_)
  · rw [lle_fits_iff]
    exact ⟨Nat.zero_le _, by simp [Showtime.start]⟩
  · rw [plp_fits_iff] at p ⊢
    exact ⟨p.1, of_decide_eq_true⟩

/-! ### The overhead request slot -/

theorem Moves.pumpOverhead (h : Moves s0 s) : Moves s0 s.pumpOverhead := by
  unfold State.pumpOverhead
  refine Moves.ite ?_ h
  split
  · exact h.onLle.onLle
  · split
    · exact h.onLle.onLle
    · split
      · exact h.onLle.onLle
      · split
        · exact h.onLle
        · exact h

theorem Moves.answerFar {n : Nat} {a : FarAnswer} (h : Moves s0 s) : Moves s0 (s.answerFar n a) := h.sayFar.onLle

theorem Moves.takeFar {n : Nat} {f : State → State} (h : Moves s0 s) (hf : Moves s0 (f s)) :
    Moves s0 (s.takeFar n f) := by
  unfold State.takeFar
  refine Moves.ite ?_ h
  split
  · exact Moves.ite h.sayFar hf
  · exact hf

/-! ### Keeping sync -/

theorem Moves.watchMargin (h : Moves s0 s) : Moves s0 s.watchMargin := by
  refine h.onSync fun l => ?_
  split <;> exact l

theorem Moves.deferVisit (h : Moves s0 s) : Moves s0 s.defer := by
  unfold State.defer
  split
  · refine h.onSync fun l => ?_
    rw [lle_fits_iff] at l ⊢
    exact ⟨l.1, by simpa [Config.debtMax] using ‹_›, l.2.2⟩
  · exact h.signal

theorem Moves.measureGroup {g : Nat} {m : List Int} (h : Moves s0 s) : Moves s0 (s.measureGroup g m) := by
  unfold State.measureGroup
  exact h.onLle

theorem placeUrgent_length (e : SwapEntry) (l : List SwapEntry) : (placeUrgent e l).length = l.length + 1 := by
  have parts := congrArg List.length (List.takeWhile_append_dropWhile (p := fun x => decide (x.reason = .urgent)) (l := l))
  simp only [List.length_append] at parts
  simp only [placeUrgent, List.length_append, List.length_cons]
  omega

/-- A decision on a group that the queue holds does not lengthen it (R89). -/
theorem decideSwap_length_held {e : SwapEntry} {l : List SwapEntry} (h : l.any (fun x => x.group == e.group) = true) :
    (decideSwap e l).length ≤ l.length := by
  have fewer : (l.filter fun x => x.group != e.group).length < l.length := by
    obtain ⟨x, hx, hg⟩ := List.any_eq_true.mp h
    exact List.length_filter_lt_length_iff_exists.mpr ⟨x, hx, by simpa using hg⟩
  unfold decideSwap
  split
  · rename_i none
    obtain ⟨x, hx, hg⟩ := List.any_eq_true.mp h
    exact absurd hg (List.find?_eq_none.mp none x hx)
  · dsimp only
    split
    · simp
    · split
      · rw [placeUrgent_length]; exact fewer
      · rw [List.length_append]; exact fewer

/-- A decision lengthens the queue by no more than one entry (R88). -/
theorem decideSwap_length_le (e : SwapEntry) (l : List SwapEntry) : (decideSwap e l).length ≤ l.length + 1 := by
  cases held : l.any (fun x => x.group == e.group) with
  | true => exact (decideSwap_length_held held).trans (Nat.le_succ _)
  | false =>
    have none : l.find? (fun x => x.group == e.group) = none :=
      List.find?_eq_none.mpr fun x hx => by simpa using List.any_eq_false.mp held x hx
    unfold decideSwap
    rw [none]
    cases e.reason with
    | urgent => exact (placeUrgent_length e l).le
    | upshift => simp

/-- The part of the swap queue that stands before an outstanding head, and the rest behind it. -/
theorem swapQueue_parts (b : Bool) (q : List SwapEntry) :
    (if b = true then q.take 1 else []).length + (if b = true then q.drop 1 else q).length = q.length := by
  cases b
  · simp
  · simp; omega

theorem Moves.applySwap {g : Nat} (h : Moves s0 s) : Moves s0 (s.applySwap g).1 := by
  have parts := swapQueue_parts s.lle.swapOutstanding s.lle.sync.swapQueue
  unfold State.applySwap
  dsimp only
  generalize (if s.lle.swapOutstanding = true then s.lle.sync.swapQueue.take 1 else []) = head at parts ⊢
  generalize (if s.lle.swapOutstanding = true then s.lle.sync.swapQueue.drop 1 else s.lle.sync.swapQueue) = rest at parts ⊢
  have short : ∀ q : List SwapEntry, (s.lle.sync.swapQueue.length ≤ 8 → q.length ≤ 8) →
      ∀ b, s.lle.fits = true →
        Lle.fits { s.lle with sync := { s.lle.sync with swapQueue := q, queueBlocked := b } } = true := by
    intro q hq b l
    rw [lle_fits_iff] at l ⊢
    exact ⟨l.1, l.2.1, hq l.2.2.1, l.2.2.2⟩
  split
  · split
    · dsimp only
      refine h.onSync (short _ (fun l => ?_) false)
      have := List.length_filter_le (fun x : SwapEntry => x.group != g) rest
      rw [List.length_append]
      omega
    · exact h
  · rename_i r _
    split
    · exact h
    · rename_i room
      dsimp only
      refine h.onSync (short _ (fun l => ?_) s.lle.sync.queueBlocked)
      rw [List.length_append]
      cases held : rest.any (fun x => x.group == g) with
      | true =>
        have := decideSwap_length_held (e := ⟨g, s.proposed g, r⟩) held
        omega
      | false =>
        have := decideSwap_length_le ⟨g, s.proposed g, r⟩ rest
        have room : ¬ Config.swapCapacity ≤ s.lle.sync.swapQueue.length := by simpa [held] using room
        rw [Config.swapCapacity] at room
        omega

theorem Moves.refresh {regular : Bool} {m : List Int} (h : Moves s0 s) : Moves s0 (s.refresh regular m) := by
  have swapped : Moves s0 ((s.measureGroup s.lle.sync.pointer m).applySwap s.lle.sync.pointer).1 := h.measureGroup.applySwap
  have paid : ∀ {t}, Moves s0 t → Moves s0 (t.onSync fun y => { y with debt := y.debt - 1 }) := fun ht =>
    ht.onSync fun l => by
      rw [lle_fits_iff] at l ⊢
      exact ⟨l.1, (Nat.sub_le _ _).trans l.2.1, l.2.2⟩
  have went : Moves s0 (((s.measureGroup s.lle.sync.pointer m).applySwap s.lle.sync.pointer).1.onSync
      (Showtime.advance s.lle.sync.pointer)) := swapped.onSync
  exact (Moves.ite (Moves.ite went (paid went)) (Moves.ite swapped.onSync.deferVisit swapped.onSync)).watchMargin

theorem Moves.catchUp (h : Moves s0 s) : Moves s0 s.catchUp :=
  Moves.ite (Moves.ite h h.onSync) (Moves.ite h.onSync h)

theorem Moves.alignTable (h : Moves s0 s) : Moves s0 s.alignTable :=
  Moves.ite h.onLle (Moves.ite h h.onLle)

theorem Moves.judgeGuard (h : Moves s0 s) : Moves s0 s.judgeGuard := by
  unfold State.judgeGuard
  split
  · exact h.onSync.signal.alignTable
  · exact h.onSync.alignTable
  · exact h.onSync.alignTable
  · exact h

theorem Moves.recomputeDepth (h : Moves s0 s) : Moves s0 s.recomputeDepth :=
  have asked := Moves.ite h.onSync (Moves.ite h.onSync.onLle (Moves.ite h.onSync h.onSync.onLle))
  Moves.ite asked (Moves.ite asked.onSync.raise asked.onSync.makeInactive)

theorem Moves.lockRules {i : Impulse} (h : Moves s0 s) : Moves s0 (s.lockRules i) := by
  unfold State.lockRules
  dsimp only
  split
  · split
    · exact h
    · exact h.onSync
  · exact Moves.ite h.signal.onSync h

theorem Moves.missPrediction {k : FenceLock} (h : Moves s0 s) : Moves s0 (s.missPrediction k) :=
  Moves.ite h.onSync h.onSync.recomputeDepth

/-- The head of the swap queue has left. -/
theorem Moves.dropHead {f : Showtime → Showtime} (h : Moves s0 s)
    (hq : (f s.lle.sync).swapQueue = s.lle.sync.swapQueue.drop 1 := by exact rfl)
    (hd : (f s.lle.sync).debt = s.lle.sync.debt := by exact rfl)
    (hi : (f s.lle.sync).impulses = s.lle.sync.impulses := by exact rfl) : Moves s0 (s.onSync f) :=
  h.onSync fun l => by
    rw [lle_fits_iff] at l ⊢
    dsimp only
    rw [hq, hd, hi, List.length_drop]
    exact ⟨l.1, l.2.1, (Nat.sub_le _ _).trans l.2.2.1, l.2.2.2⟩

theorem Moves.swapAbandoned (h : Moves s0 s) : Moves s0 s.swapAbandoned :=
  Moves.ite h.signal.dropHead.drop h.signal.dropHead

theorem Moves.agreed {r : OverheadRequest} (h : Moves s0 s) : Moves s0 (s.agreed r) := by
  unfold State.agreed
  split
  · exact h.onLle.alignTable.watchMargin
  · exact h.onLle
  · exact h.onLle.recomputeDepth
  · exact h.onLle.signal.dropHead.watchMargin

theorem Moves.turnedDown {r : OverheadRequest} (h : Moves s0 s) : Moves s0 (s.turnedDown r) := by
  unfold State.turnedDown
  split
  · exact h.onSync.alignTable
  · exact h.onSync.alignTable
  · exact Moves.ite h h.drop
  · exact h.onLle
  · exact h.onSync
  · exact h

theorem Moves.declined {r : OverheadRequest} (h : Moves s0 s) : Moves s0 (s.declined r) := by
  unfold State.declined
  split
  · exact h.dropHead
  · exact h.turnedDown

theorem Moves.abandoned {r : OverheadRequest} (h : Moves s0 s) : Moves s0 (s.abandoned r) := by
  unfold State.abandoned
  split
  · exact h.swapAbandoned
  · exact h.turnedDown

theorem Moves.takeAnswer {n : Nat} {f : OverheadRequest → State → State} (h : Moves s0 s)
    (hf : ∀ r s, Moves s0 s → Moves s0 (f r s)) : Moves s0 (s.takeAnswer n f) := by
  unfold State.takeAnswer
  split
  · exact h
  · exact Moves.ite (hf _ _ h.onLle) h

theorem Moves.controlPower (h : Moves s0 s) : Moves s0 s.controlPower := by
  unfold State.controlPower
  refine Moves.ite ?_ h
  dsimp only
  have kept : Moves s0 (match s.lle.powerWaiting, s.ceiling with
      | some .cutback, .high => s.onLle fun l => { l with powerWaiting := none }
      | some .restore, .mid => s.onLle fun l => { l with powerWaiting := none }
      | _, _ => s) := by
    split
    · exact h.onLle
    · exact h.onLle
    · exact h
  exact Moves.ite kept (Moves.ite kept.onLle (Moves.ite kept.onLle kept))

theorem Moves.codeword {e : Event} {f : Showtime → Showtime} (h : Moves s0 s)
    (hf : ∀ l : Lle, l.fits = true → Lle.fits { l with sync := f l.sync } = true) : Moves s0 (s.codeword e f) :=
  Moves.ite (h.signal.onSync (hf _)) h

theorem Moves.endSecond (h : Moves s0 s) : Moves s0 s.endSecond :=
  have judged := Moves.ite (Moves.ite h.signal.signal h.signal).signal (Moves.ite h.signal.signal h.signal)
  Moves.ite judged.onSync.drop judged.onSync

/-! ### The outside line and the ports -/

theorem Moves.senseVoltage (h : Moves s0 s) : Moves s0 s.senseVoltage := by
  unfold State.senseVoltage
  exact h.onVsw

theorem Moves.senseRinging (h : Moves s0 s) : Moves s0 s.senseRinging := by
  unfold State.senseRinging
  exact h.onVsw


/-- The repeat queue is emptied with every other field of the VSW but the plan, the episodes and the ports. -/
theorem Moves.setLine {x : LineState} (h : Moves s0 s) : Moves s0 (s.setLine x) := by
  unfold State.setLine
  refine Moves.ite h ?_
  dsimp only
  refine Moves.lineStatus (Moves.onLth (Moves.senseRinging (Moves.senseVoltage (h.onVsw (fun _ => ?_) ?_ ?_ ?_ ?_))))
  · rw [vsw_fits_iff]; exact Nat.zero_le _
  all_goals split <;> rfl

theorem Moves.portRefused {p : Port} {r : RefuseReason} (h : Moves s0 s) : Moves s0 (s.portRefused p r) :=
  h.setPort .dialtone
theorem Moves.portConnected {p : Port} {x : Tone} (h : Moves s0 s) : Moves s0 (s.portConnected p x) :=
  h.setPort .connected

theorem dropDigits_length (p : Port) (v : Vsw) : (v.dropDigits p).repeatQueue.length ≤ v.repeatQueue.length := by
  have part : ∀ l : List RepeatDigit, (l.filter fun d => decide (d.port ≠ p)).length ≤ l.length := fun l =>
    List.length_filter_le _ l
  unfold Vsw.dropDigits
  dsimp only
  split_ifs
  · have := part (v.repeatQueue.drop 1)
    simp only [List.length_append, List.length_take, List.length_drop] at this ⊢
    omega
  · exact part _

theorem Moves.dropDigits {p : Port} (h : Moves s0 s) : Moves s0 (s.onVsw (Vsw.dropDigits p)) :=
  h.onVsw fun v => by
    rw [vsw_fits_iff] at v ⊢
    exact (dropDigits_length p s.vsw).trans v

theorem Moves.portReleased {p : Port} (h : Moves s0 s) : Moves s0 (s.portReleased p) :=
  Moves.ite (h.dropDigits.setPort .dialtone) h.dropDigits

theorem Moves.portHeld {p : Port} (h : Moves s0 s) : Moves s0 (s.portHeld p) := h.setPort .dialtone

theorem Moves.watchCurrent {p : Port} (h : Moves s0 s) : Moves s0 (s.watchCurrent p) := by
  unfold State.watchCurrent
  exact h.onPort

theorem beginOutpulse_frame (now : Nat) (v : Vsw) : ∃ o, v.beginOutpulse now = { v with outpulse := o } := by
  unfold Vsw.beginOutpulse
  split
  · exact ⟨_, rfl⟩
  · exact ⟨v.outpulse, rfl⟩

theorem Moves.beginOutpulse {f : Vsw → Vsw} {now : Nat} (h : Moves s0 s)
    (hf : s.vsw.fits = true → (f s.vsw).fits = true) (hp : (f s.vsw).plan = s.vsw.plan := by exact rfl)
    (he : (f s.vsw).episodes = s.vsw.episodes := by exact rfl) (ha : (f s.vsw).portA = s.vsw.portA := by exact rfl)
    (hb : (f s.vsw).portB = s.vsw.portB := by exact rfl) : Moves s0 (s.onVsw fun v => (f v).beginOutpulse now) := by
  obtain ⟨o, e⟩ := beginOutpulse_frame now (f s.vsw)
  refine h.onVsw (fun v => ?_) ?_ ?_ ?_ ?_
  · rw [e]; exact hf v
  all_goals rw [e]; assumption

theorem Moves.repeatDigit {p : Port} {d : Nat} (h : Moves s0 s) : Moves s0 (s.repeatDigit p d) := by
  unfold State.repeatDigit
  split
  · refine h.beginOutpulse fun _ => ?_
    rw [vsw_fits_iff, List.length_append]
    exact ‹s.vsw.repeatQueue.length < Config.repeatCapacity›
  · exact h

theorem Moves.advanceOutpulse {o : Outpulse} (h : Moves s0 s) : Moves s0 (s.onVsw (Vsw.advanceOutpulse o)) := by
  unfold Vsw.advanceOutpulse
  split
  · refine h.onVsw fun v => ?_
    rw [vsw_fits_iff] at v ⊢
    dsimp only
    split
    · exact (List.length_drop ▸ Nat.sub_le _ _).trans v
    · exact v
  · split <;> exact h.onVsw
  · exact h.beginOutpulse id

/-! ### The survey -/

theorem Moves.writeEntry {i : Item} {x : ItemStatus} {r : Option ItemResult} (h : Moves s0 s) :
    Moves s0 (s.writeEntry i x r) := h.onLth
theorem Moves.onRunning {f : Survey → Survey} (h : Moves s0 s) : Moves s0 (s.onRunning f) := h.onLth

theorem Moves.answerSurvey {r : Survey} (h : Moves s0 s) : Moves s0 (s.answerSurvey r) := by
  unfold State.answerSurvey
  refine Moves.foldl (fun _ _ => Moves.handRoutine) _ ?_
  split
  · exact h.handRoutine
  · exact h

theorem Moves.startSurvey {r : Survey} (h : Moves s0 s) : Moves s0 (s.startSurvey r) :=
  Moves.ite h.onLth.writeEntry.onRunning h.onLth

theorem Moves.finishSurvey {r : Survey} (h : Moves s0 s) : Moves s0 (s.finishSurvey r) := h.onLth.answerSurvey

theorem Moves.continueSurvey (fuel : Nat) (h : Moves s0 s) : Moves s0 (State.continueSurvey fuel s) := by
  induction fuel generalizing s with
  | zero => exact h
  | succ fuel ih =>
    unfold State.continueSurvey
    split
    · exact h.onLth
    · refine Moves.ite h.onLth (Moves.ite h.onLth ?_)
      dsimp only
      split
      · exact h.finishSurvey
      · exact ih h.finishSurvey.onLth.startSurvey

theorem Moves.beginItem {i : Item} (h : Moves s0 s) : Moves s0 (s.beginItem i) := h.onLth
theorem Moves.beginVoltage {i : Item} (h : Moves s0 s) : Moves s0 (s.beginVoltage i) := h.onLth.setLine.beginItem
theorem Moves.beginMetallic {b : Bool} {i : Item} (h : Moves s0 s) : Moves s0 (s.beginMetallic b i) :=
  (Moves.ite h.addHolder.onLth h).onLth.setLine.beginItem

theorem Moves.endPhase (h : Moves s0 s) : Moves s0 s.endPhase := by
  have ended : Moves s0 (s.onLth fun l =>
    { l with stage := .restoring, relay := .rest, itemTimer := none, restoreTimer := some (s.now + Config.restoreMs) }) :=
    h.onLth
  refine Moves.ite ?_ ended
  have attempted : Moves s0 (State.heldAttempt _) := Moves.ite ended.enterDown ended
  exact Moves.ite attempted.removeHolder.onLth attempted

theorem Moves.nextInPhase {i : Item} (h : Moves s0 s) : Moves s0 (s.nextInPhase i) := by
  unfold State.nextInPhase
  split
  · exact h.beginItem
  · exact h.endPhase

theorem Moves.abortSurvey (h : Moves s0 s) : Moves s0 s.abortSurvey := by
  unfold State.abortSurvey
  split
  · exact h.writeEntry.onRunning.endPhase.onLth
  · exact h

theorem Moves.keepFault {c : FaultCode} {b : Bool} (h : Moves s0 s) : Moves s0 (s.keepFault c b) :=
  Moves.ite h.raiseUnlessActive h.makeInactive

theorem Moves.judgeHigh {b : Bool} (h : Moves s0 s) : Moves s0 (s.judgeHigh b) := by
  unfold State.judgeHigh
  dsimp only
  split
  · exact h.keepFault.onLth.addHolder
  · exact h.keepFault.onLth.removeHolder
  · exact h.keepFault

theorem Moves.judgeItem {i : Item} {r : LoopReadings} (h : Moves s0 s) : Moves s0 (s.judgeItem i r) := by
  unfold State.judgeItem
  split
  · exact h.keepFault.judgeHigh
  · exact h.keepFault
  · exact h.keepFault
  · exact h

theorem Moves.completeItem {i : Item} {r : LoopReadings} (h : Moves s0 s) : Moves s0 (s.completeItem i r) :=
  h.writeEntry.onRunning.onLth.judgeItem.nextInPhase

theorem Moves.takeTest {n : Nat} {l : List Item} {b : Bool} (h : Moves s0 s) : Moves s0 (s.takeTest n l b) := by
  unfold State.takeTest
  refine Moves.ite h.refuse (Moves.ite h.writeEntry.handRoutine (Moves.ite h ?_))
  split
  · exact h.startSurvey.continueSurvey 2
  · refine Moves.ite h.onRunning ?_
    split
    · exact h.onLth
    · exact Moves.ite h.onLth h.refuse

end Sys2Proof.Proofs.Steps
end

section
/-! What every command keeps, part three: the calls (chapter 7), the house ports (R105 to R118), the supply faults and
what follows an event but the ringing. -/

set_option Elab.async false

namespace Sys2Proof.Proofs.Steps

open Sys2Proof Sys2Proof.Machine

variable {s0 s : State}

/-! ### Records, parties and holds -/

/-- A change of the CCT that lengthens neither of its two tables. -/
theorem Moves.onTables {f : Cct → Cct} (h : Moves s0 s) (hc : (f s.cct).calls.length ≤ s.cct.calls.length)
    (hd : (f s.cct).deferred.length ≤ s.cct.deferred.length := by exact Nat.le_refl _) : Moves s0 (s.onCct f) :=
  h.onCct fun c => by
    rw [cct_fits_iff] at c ⊢
    exact ⟨hc.trans c.1, hd.trans c.2⟩

theorem Moves.onCall {id : Nat} {f : CallRec → CallRec} (h : Moves s0 s) : Moves s0 (s.onCall id f) :=
  h.onTables (by simp)

theorem Moves.addCall {r : CallRec} (h : Moves s0 s) (room : s.tableFull = false) : Moves s0 (s.addCall r) :=
  h.onCct fun c => by
    rw [cct_fits_iff] at c ⊢
    have free : s.cct.calls.length < 4 := Nat.not_le.mp (of_decide_eq_false room)
    exact ⟨by simpa using free, c.2⟩

theorem Moves.dismiss {id : Nat} {e : Endpoint} (h : Moves s0 s) : Moves s0 (s.dismiss id e) := by
  cases e with
  | station n =>
    unfold State.dismiss
    dsimp only
    split
    · exact (Moves.ite h.clearExpectation h).handCall
    · exact h.handCall
  | port p => exact h.portReleased

theorem Moves.removeCall {id : Nat} (h : Moves s0 s) : Moves s0 (s.removeCall id) := by
  unfold State.removeCall
  split
  · exact h
  · exact Moves.foldl (fun _ _ hs => hs.dismiss) _ (h.onTables (List.length_filter_le _ _))

theorem Moves.toClearing {id : Nat} (h : Moves s0 s) : Moves s0 (s.toClearing id) := by
  unfold State.toClearing
  split
  · exact h
  · exact Moves.ite h.onCall.setLine.signal h.onCall.setLine

theorem Moves.leave {id : Nat} {e : Endpoint} (h : Moves s0 s) : Moves s0 (s.leave id e) := by
  have left : ∀ (f : CallRec → CallRec), Moves s0 (match e with
      | .port p => (s.onCall id f).onVsw (Vsw.dropDigits p)
      | .station _ => s.onCall id f) := by
    intro f
    cases e with
    | port p => exact h.onCall.dropDigits
    | station n => exact h.onCall
  unfold State.leave
  split
  · exact h
  · dsimp only
    split
    · exact Moves.ite (left _).toClearing (left _)
    · exact (left _).removeCall
    · exact Moves.ite (left _).removeCall (left _)
    · exact left _

theorem Moves.leaveAndEnd {id : Nat} {e : Endpoint} (h : Moves s0 s) : Moves s0 (s.leaveAndEnd id e) :=
  h.onCall.removeCall

theorem Moves.makeHeld {id : Nat} (h : Moves s0 s) : Moves s0 (s.makeHeld id) := by
  unfold State.makeHeld
  split
  · exact h
  · split
    · exact h
    · have put (l : List Party) {t : State} (ht : Moves s0 t) : Moves s0 (l.foldl (fun s p => s.dismiss id p.who) t) :=
        Moves.foldl (fun _ _ hs => hs.dismiss) l ht
      have emptied {t : State} (ht : Moves s0 t) :
          Moves s0 (t.onVsw fun v => { v with repeatQueue := [], outpulse := v.outpulse.map (Outpulse.cut t.now) }) :=
        ht.onVsw fun _ => (vsw_fits_iff _).mpr (Nat.zero_le _)
      have counted : Moves s0 (s.onCct fun t => { t with nextToken := nextToken s.cct.nextToken }) := h.onCct
      dsimp only
      split
      · exact (emptied (put _ counted.onCall)).handCall
      · exact (emptied (put _ counted.onCall)).portHeld

theorem Moves.giveHeld {id : Nat} {e : Endpoint} (h : Moves s0 s) : Moves s0 (s.giveHeld id e) := by
  cases e with
  | station n => exact h.onCall
  | port p =>
    unfold State.giveHeld
    exact h.onCall.portConnected.onPort

theorem Moves.retrieveForPort {p : Port} (h : Moves s0 s) : Moves s0 (s.retrieveForPort p) := by
  unfold State.retrieveForPort
  split
  · dsimp only
    split
    · exact h.leaveAndEnd.giveHeld
    · exact h.giveHeld
  · exact Moves.ite h.onPort (h.setPort .dialtone)

theorem Moves.depart {id : Nat} {e : Endpoint} (h : Moves s0 s) : Moves s0 (s.depart id e) := by
  unfold State.depart
  split
  · exact h
  · split
    · exact h.leave
    · exact Moves.ite h.onCall.removeCall.giveHeld h.leaveAndEnd

theorem Moves.recallWaits {id : Nat} (h : Moves s0 s) : Moves s0 (s.recallWaits id) := h.onCall

theorem Moves.attemptRecall {c : CallRec} (h : Moves s0 s) : Moves s0 (s.attemptRecall c) := by
  unfold State.attemptRecall
  split
  · exact h
  · exact Moves.ite h.recallWaits h.onCall

/-! ### Grants and their withdrawal -/

theorem Moves.grant {n tag id sent : Nat} (h : Moves s0 s) : Moves s0 (s.grant n tag id sent) :=
  h.onEntry.handCall

theorem Moves.letIn {c : Claimant} {id : Nat} {x : Tone} (h : Moves s0 s) : Moves s0 (s.letIn c id x) := by
  cases c with
  | station n tag sent => exact h.grant
  | port p => exact h.portConnected

theorem Moves.refuseClaim {c : Claimant} {r : RefuseReason} (h : Moves s0 s) :
    Moves s0 (s.refuseClaim c r) := by
  cases c with
  | station n tag sent => exact h.refuse
  | port p => exact h.portRefused

theorem Moves.undoGrant {n id : Nat} (h : Moves s0 s) : Moves s0 (s.undoGrant n id) := by
  unfold State.undoGrant
  split
  · exact h
  · split
    · exact Moves.foldl (fun _ _ hs => hs.dismiss) _ h.onCall
    · exact Moves.ite h.leaveAndEnd h.leave

theorem Moves.withdraw {n : Nat} {a b : Bool} (h : Moves s0 s) : Moves s0 (s.withdraw n a b) := by
  unfold State.withdraw
  split
  · exact h
  · exact
      have released := Moves.ite h.clearExpectation.handCall h.clearExpectation
      (Moves.ite released.protocolFault released).undoGrant

theorem Moves.dropDeferred {n : Nat} (h : Moves s0 s) : Moves s0 (s.dropDeferred n) :=
  h.onTables (Nat.le_refl _) (List.length_filter_le _ _)

theorem Moves.withdrawPortClaim {p : Port} (h : Moves s0 s) : Moves s0 (s.withdrawPortClaim p) :=
  (h.onTables (Nat.le_refl _) (List.length_filter_le _ _)).onPort

theorem Moves.takeFrame {n : Nat} (h : Moves s0 s) : Moves s0 (s.takeFrame n) := h.withdraw.dropDeferred

/-! ### The decisions of claims -/

theorem tableFull_of_outsideTest {c : Claimant} (free : s.outsideTest c = none) : s.tableFull = false := by
  simp only [State.outsideTest] at free
  grind

theorem tableFull_of_intercomTest {c : Claimant} {e : Endpoint} (free : s.intercomTest c e = none) :
    s.tableFull = false := by
  simp only [State.intercomTest] at free
  grind

theorem Moves.grantOutside {c : Claimant} (h : Moves s0 s) (free : s.outsideTest c = none) :
    Moves s0 (s.grantOutside c) :=
  (h.addCall (tableFull_of_outsideTest free)).setLine.letIn

theorem Moves.grantAnswer {c : Claimant} {id : Nat} (h : Moves s0 s) : Moves s0 (s.grantAnswer c id) := by
  cases c with
  | station n tag sent =>
    unfold State.grantAnswer
    exact h.onCall.setLine.letIn
  | port p =>
    unfold State.grantAnswer State.markCoAnswer
    exact h.onVsw.onCall.setLine.letIn

theorem Moves.answerIncoming {c : Claimant} {id : Nat} (h : Moves s0 s) : Moves s0 (s.answerIncoming c id) := by
  unfold State.answerIncoming
  split
  · exact h.refuseClaim
  · exact h.grantAnswer

theorem Moves.grantJoin {c : Claimant} {id : Nat} (h : Moves s0 s) : Moves s0 (s.grantJoin c id) :=
  h.onCall.letIn

theorem Moves.joinCall {c : Claimant} {r : CallRec} (h : Moves s0 s) : Moves s0 (s.joinCall c r) := by
  unfold State.joinCall
  refine Moves.ite h.refuseClaim (Moves.ite h.answerIncoming ?_)
  split
  · exact h.refuseClaim
  · exact h.grantJoin

theorem Moves.decideJoin {c : Claimant} {id : Nat} (h : Moves s0 s) : Moves s0 (s.decideJoin c id) := by
  unfold State.decideJoin
  dsimp only
  split
  · exact h.refuseClaim
  · exact h.joinCall

theorem Moves.answerIntercom {c : Claimant} {r : CallRec} (h : Moves s0 s) :
    Moves s0 (s.answerIntercom c r) := by
  unfold State.answerIntercom
  refine Moves.ite h.refuseClaim ?_
  dsimp only
  split
  · exact h.onCall.letIn.onPort
  · exact h.onCall.letIn

theorem Moves.answerCall {c : Claimant} {r : CallRec} (h : Moves s0 s) : Moves s0 (s.answerCall c r) := by
  unfold State.answerCall
  split
  · exact h.refuseClaim
  · exact h.answerIncoming
  · exact h.joinCall
  · exact Moves.ite h.answerIntercom h.refuseClaim
  · cases c with
    | station n tag sent => exact h.refuseClaim
    | port p => exact Moves.ite h.giveHeld h.refuseClaim
  · exact h.refuseClaim

theorem Moves.decideAnswer {c : Claimant} {id : Nat} (h : Moves s0 s) : Moves s0 (s.decideAnswer c id) := by
  unfold State.decideAnswer
  split
  · split
    · exact h.answerIncoming
    · refine Moves.ite h.refuseClaim ?_
      split
      · exact h.joinCall
      · exact h.refuseClaim
  · split
    · exact h.refuseClaim
    · exact h.answerCall

theorem Moves.defer140 {c : Claimant} (h : Moves s0 s) : Moves s0 (s.defer140 c) :=
by
  unfold State.defer140
  dsimp only
  split
  · rename_i room
    refine h.abortSurvey.onCct fun c => ?_
    rw [cct_fits_iff] at c ⊢
    exact ⟨c.1, by simpa [Config.deferredCapacity] using room⟩
  · exact h.abortSurvey.refuseClaim

theorem Moves.decideOutside {c : Claimant} (h : Moves s0 s) : Moves s0 (s.decideOutside c) := by
  unfold State.decideOutside
  split
  · split
    · exact h.refuseClaim
    · exact h.grantOutside ‹_›
  · split
    · exact h.answerIncoming
    · exact h.refuseClaim
  · exact h.defer140
  · exact h.refuseClaim
  · exact h.refuseClaim

theorem Moves.placeIntercom {c : Claimant} {e : Endpoint} (h : Moves s0 s) (free : s.intercomTest c e = none) :
    Moves s0 (s.placeIntercom c e) := by
  have room := tableFull_of_intercomTest free
  unfold State.placeIntercom
  dsimp only
  split
  · exact (h.addCall room).letIn
  · split
    · exact (h.addCall room).letIn.onCall.handCall
    · exact (h.addCall room).letIn.onCall

theorem Moves.decideIntercom {c : Claimant} {e : Endpoint} (h : Moves s0 s) :
    Moves s0 (s.decideIntercom c e) := by
  unfold State.decideIntercom
  split
  · exact h.refuseClaim
  · exact h.placeIntercom ‹_›

theorem Moves.decideRetrieve {n tag id token : Nat} (h : Moves s0 s) :
    Moves s0 (s.decideRetrieve n tag id token) := by
  unfold State.decideRetrieve
  split
  · exact h.refuse
  · refine Moves.ite h.refuse ?_
    split
    · exact h.refuse
    · exact h.onCall.grant

theorem Moves.decideDeferred (h : Moves s0 s) : Moves s0 s.decideDeferred :=
  Moves.foldl (fun _ _ hs => hs.decideOutside) _ (h.onTables (Nat.le_refl _) (Nat.zero_le _))

theorem Moves.leaveTest (h : Moves s0 s) : Moves s0 s.leaveTest := h.setLine.decideDeferred

/-! ### Ringing on the line, and absence -/

theorem Moves.ringStart (h : Moves s0 s) : Moves s0 s.ringStart := by
  unfold State.ringStart
  split
  · exact h.signal
  · rename_i room
    exact h.addCall (by simpa only [Bool.not_eq_true] using room)

theorem Moves.ringEnd (h : Moves s0 s) : Moves s0 s.ringEnd := by
  unfold State.ringEnd
  split
  · exact h
  · exact h.removeCall.signal

theorem Moves.endRinging {x : LineState} (h : Moves s0 s) : Moves s0 (s.endRinging x) :=
  Moves.ite h.setLine.ringEnd h.setLine

theorem Moves.handOverLine (h : Moves s0 s) : Moves s0 s.handOverLine := by
  unfold State.handOverLine
  split
  · exact h.setLine
  · exact h.setLine
  · exact h.endRinging
  · exact h.setLine
  · exact h

theorem Moves.stationGone {n : Nat} {x : Option GrantExpectation} (h : Moves s0 s) :
    Moves s0 (s.stationGone n x) := by
  have undone : Moves s0 (match x with | some g => s.undoGrant n g.callId | none => s) := by
    cases x with
    | some g => exact h.undoGrant
    | none => exact h
  unfold State.stationGone
  dsimp only
  refine Moves.foldl (fun _ _ hs => hs.removeCall) _ ?_
  split
  · exact undone.dropDeferred.onCct.leave
  · exact undone.dropDeferred.onCct

/-! ### The house ports -/

theorem Moves.portClaim {p : Port} {f : State → State} (h : Moves s0 s) (hf : Moves s0 (f s)) :
    Moves s0 (s.portClaim p f) :=
  Moves.ite h hf

theorem Moves.portOutside {p : Port} (h : Moves s0 s) : Moves s0 (s.portOutside p) :=
  h.onPort.portClaim h.onPort.decideOutside

theorem Moves.awaitDecision {p : Port} (h : Moves s0 s) : Moves s0 (s.awaitDecision p) := h.setPort .dialtone

theorem Moves.offHookCases {p : Port} {b : Bool} (h : Moves s0 s) : Moves s0 (s.offHookCases p b) := by
  have awaiting := h.awaitDecision (p := p)
  unfold State.offHookCases
  split
  · exact Moves.ite awaiting.answerCall (awaiting.portClaim awaiting.answerCall)
  · exact Moves.ite (awaiting.portClaim awaiting.decideAnswer) <|
      Moves.ite (awaiting.portClaim awaiting.decideAnswer) <|
        Moves.ite (awaiting.portClaim awaiting.decideOutside) (h.setPort .dialtone)

theorem Moves.takeOffHook {p : Port} (h : Moves s0 s) : Moves s0 (s.takeOffHook p) :=
  h.abortSurvey.onPort.offHookCases.watchCurrent

theorem Moves.lapseWindow {p : Port} (h : Moves s0 s) : Moves s0 (s.lapseWindow p) := by
  unfold State.lapseWindow
  split
  · exact h
  · exact Moves.ite h h.onPort
  · exact Moves.ite h h.onPort.retrieveForPort

theorem Moves.firstDigit {p : Port} {d : Option Nat} (h : Moves s0 s) : Moves s0 (s.firstDigit p d) := by
  unfold State.firstDigit
  split
  · exact h
  · exact Moves.ite (h.onPort.setPort .collecting) <| Moves.ite h.onPort.retrieveForPort <|
      Moves.ite h.onPort.portOutside h.onPort.onPort

theorem Moves.collectDigit {p : Port} {d : Option Nat} (h : Moves s0 s) : Moves s0 (s.collectDigit p d) := by
  unfold State.collectDigit
  refine Moves.ite h ?_
  split
  · exact h.setPort .dialtone
  · exact h.onPort
  · split
    · exact h.setPort .dialtone
    · exact h.onPort.portClaim h.onPort.decideIntercom

theorem Moves.takeDigit {p : Port} {d : Option Nat} (h : Moves s0 s) : Moves s0 (s.takeDigit p d) := by
  unfold State.takeDigit
  split
  · exact h.firstDigit
  · exact h.collectDigit
  · exact h

theorem Moves.endPulses {p : Port} (h : Moves s0 s) : Moves s0 (s.endPulses p) := by
  unfold State.endPulses
  refine Moves.ite h.onPort (Moves.ite h.onPort.lapseWindow ?_)
  dsimp only
  split
  · split
    · exact Moves.ite h.onPort.repeatDigit h.onPort
    · exact h.onPort
  · exact h.onPort.takeDigit

theorem Moves.flashConnected {p : Port} (h : Moves s0 s) : Moves s0 (s.flashConnected p) := by
  unfold State.flashConnected
  split
  · exact h
  · exact Moves.ite h.makeHeld h

theorem Moves.takeFlash {p : Port} (h : Moves s0 s) : Moves s0 (s.takeFlash p) := by
  unfold State.takeFlash
  dsimp only
  split
  · exact Moves.ite h.onPort.retrieveForPort h.onPort.flashConnected
  · split
    · exact Moves.ite h.onPort.retrieveForPort h.onPort
    · exact h.onPort.lapseWindow
  · exact Moves.ite h.onPort.withdrawPortClaim.retrieveForPort h.onPort
  · exact h.onPort

theorem Moves.closeBreak {p : Port} {n : Nat} (h : Moves s0 s) : Moves s0 (s.closeBreak p n) :=
  have closed := h.onPort
  Moves.ite (Moves.ite closed.onPort closed) <| Moves.ite closed.takeFlash <|
    Moves.ite closed.onPort closed.lapseWindow

theorem Moves.takeOnHook {p : Port} (h : Moves s0 s) : Moves s0 (s.takeOnHook p) := by
  have idle : Moves s0 ((s.withdrawPortClaim p).onPort p fun _ => PortRec.onHookAt (s.withdrawPortClaim p).now) :=
    h.withdrawPortClaim.setPort .onHook
  unfold State.takeOnHook
  dsimp only
  split
  · exact idle.depart.makeInactive.makeInactive
  · exact idle.makeInactive.makeInactive

theorem Moves.enterHowler {p : Port} (h : Moves s0 s) : Moves s0 (s.enterHowler p) := by
  unfold State.enterHowler
  exact h.withdrawPortClaim.setPort .howler

theorem Moves.firstWindowEnds {p : Port} (h : Moves s0 s) : Moves s0 (s.firstWindowEnds p) := by
  unfold State.firstWindowEnds
  exact h.onPort

theorem Moves.postFlashEnds {p : Port} (h : Moves s0 s) : Moves s0 (s.postFlashEnds p) :=
  Moves.ite h.onPort.lapseWindow h.onPort

theorem Moves.portOut (h : Moves s0 s) : Moves s0 s.portOut :=
  (h.withdrawPortClaim.setPort .outOfService).makeInactive.makeInactive

theorem Moves.servePortB (h : Moves s0 s) : Moves s0 s.servePortB :=
  Moves.ite (Moves.ite (Moves.ite h h.portOut) (Moves.ite (h.setPort .onHook) h)) h

theorem Moves.beginCheck {p : Port} (h : Moves s0 s) : Moves s0 (s.beginCheck p) := h.onPort

theorem Moves.endCheck {p : Port} {b : Bool} (h : Moves s0 s) : Moves s0 (s.endCheck p b) :=
  Moves.ite h.onPort.makeInactive h.onPort.raiseUnlessActive

/-! ### The supply -/

theorem Moves.supplyFaults {x y : SupplyState} (h : Moves s0 s) : Moves s0 (s.supplyFaults x y) :=
  have low := Moves.ite (Moves.ite h h.raise) h.makeInactive
  Moves.ite low.makeInactive (Moves.ite low.raise low)

theorem Moves.driveRail (h : Moves s0 s) : Moves s0 s.driveRail :=
  h.trans ⟨(Keeps.refl s).onSup rfl rfl, rfl, id, id, id, id⟩

/-! ### What follows an event -/

section settling
variable {before : State}

theorem Moves.settlePortB (h : Moves s0 s) : Moves s0 (s.settlePortB before) := Moves.ite h h.servePortB

theorem Moves.settleRecall (h : Moves s0 s) : Moves s0 (s.settleRecall before) := by
  refine Moves.ite h (Moves.foldl (fun s c hs => ?_) _ h)
  split
  · exact Moves.ite hs.recallWaits hs
  · exact hs

theorem Moves.settlePair (h : Moves s0 s) : Moves s0 (s.settlePair before) :=
  have paired := Moves.ite h h.onVsw
  Moves.ite paired paired.onVsw

theorem Moves.settleGuard (h : Moves s0 s) : Moves s0 (s.settleGuard before) := Moves.ite h.judgeGuard h

theorem Moves.settleLink (h : Moves s0 s) : Moves s0 (s.settleLink before) :=
  Moves.ite h h.driveRail.controlPower.pumpOverhead.driveRail.catchUp

theorem Moves.settleWait (h : Moves s0 s) : Moves s0 (s.settleWait before) := by
  unfold State.settleWait
  split
  · exact Moves.ite h h.onLth
  · exact Moves.ite h h.onLth
  · exact h

end settling

end Sys2Proof.Proofs.Steps
end

section
/-! What every command keeps, part four: the requests of stations, the queries and the counters, reception and sending,
and the bodies of the remaining commands. -/

set_option Elab.async false

namespace Sys2Proof.Proofs.Steps

open Sys2Proof Sys2Proof.Machine

variable {s0 s : State}

/-! ### Requests of stations -/

theorem Moves.serve {pick : Delivered → Bool} {f : Delivered → State → State} (h : Moves s0 s)
    (hf : ∀ d s, Moves s0 s → Moves s0 (f d s)) : Moves s0 (s.serve pick f) := by
  unfold State.serve
  split
  · exact h
  · exact hf _ _ h.popRequest.takeFrame

theorem Moves.asManager {d : Delivered} {f : State → State} (h : Moves s0 s) (hf : Moves s0 (f s)) :
    Moves s0 (s.asManager d f) :=
  Moves.ite hf h.refuse

theorem Moves.withTag {d : Delivered} {f : State → State} (h : Moves s0 s) (hf : Moves s0 (f s)) :
    Moves s0 (s.withTag d f) :=
  Moves.ite h.refuse hf

theorem Moves.hookOn {d : Delivered} (h : Moves s0 s) : Moves s0 (s.hookOn d) := by
  unfold State.hookOn
  refine Moves.ite ?_ h.refuse
  split
  · exact h.depart
  · exact h

theorem Moves.hookFlash {d : Delivered} (h : Moves s0 s) : Moves s0 (s.hookFlash d) := by
  unfold State.hookFlash
  dsimp only
  split
  · exact h
  · refine Moves.ite h.makeHeld ?_
    split
    · exact Moves.ite h.leaveAndEnd.giveHeld h
    · exact h

theorem Moves.claimAny {d : Delivered} (h : Moves s0 s) : Moves s0 (s.claimAny d) :=
  Moves.ite (Moves.ite h.decideOutside h.onCct) h

theorem Moves.claimIntercom {d : Delivered} (h : Moves s0 s) : Moves s0 (s.claimIntercom d) := by
  unfold State.claimIntercom
  split
  · exact h.refuse
  · exact h.decideIntercom

theorem Moves.connectStation {n : Nat} {x : GrantExpectation} (h : Moves s0 s) :
    Moves s0 (s.connectStation n x) := by
  unfold State.connectStation
  dsimp only
  split
  · split
    · exact Moves.ite h.clearExpectation.onCall.onPort h.clearExpectation.onCall
    · exact h.clearExpectation.onCall
  · exact h.clearExpectation.onCall

theorem Moves.takeUp {d : Delivered} (h : Moves s0 s) : Moves s0 (s.takeUp d) := by
  have taken := h.popRequest.dropDeferred (n := d.src)
  unfold State.takeUp
  dsimp only
  split
  · exact taken.refuse
  · exact Moves.ite taken.connectStation taken.withdraw.refuse

theorem Moves.takeHold {d : Delivered} (h : Moves s0 s) : Moves s0 (s.takeHold d) := by
  unfold State.takeHold State.holdCall
  split
  · exact h.refuse
  · refine Moves.ite h.refuse (Moves.ite h.refuse (Moves.ite h.refuse (Moves.ite h.refuse ?_)))
    split
    · exact h.handCall
    · exact h.makeHeld

theorem Moves.releaseCall {n : Nat} {c : CallRec} (h : Moves s0 s) {t : State}
    (released : s.releaseCall n c = some t) : Moves s0 t := by
  unfold State.releaseCall at released
  dsimp only at released
  split at released
  · cases released
    exact h.depart
  · split at released
    · cases released
      exact h.toClearing
    · split at released
      · cases released
        exact h.removeCall
      · cases released

theorem Moves.takeRelease {d : Delivered} (h : Moves s0 s) : Moves s0 (s.takeRelease d) := by
  unfold State.takeRelease
  split
  · exact h.refuse
  · refine Moves.ite h.refuse ?_
    split
    · exact (h.releaseCall ‹_›).handCall
    · exact h.refuse

theorem Moves.hearGrant {d : Delivered} {tag : Nat} (h : Moves s0 s) : Moves s0 (s.hearGrant d tag) :=
  have heard := Moves.ite h.popRequest.takeFrame h.popRequest.dropDeferred
  Moves.ite heard.onCct heard

theorem Moves.hearTake {d : Delivered} {tag : Nat} (h : Moves s0 s) : Moves s0 (s.hearTake d tag) := by
  have heard : Moves s0 (((s.popRequest).dropDeferred d.src).dropPending d.src tag) := h.popRequest.dropDeferred.onCct
  unfold State.hearTake
  dsimp only
  split
  · exact Moves.ite heard.withdraw heard
  · exact heard

theorem Moves.anyExpires {p : PendingAny} (h : Moves s0 s) : Moves s0 (s.anyExpires p) :=
  Moves.ite h.onCct.decideOutside h.onCct

theorem Moves.recallDue {id : Nat} (h : Moves s0 s) : Moves s0 (s.recallDue id) := by
  unfold State.recallDue
  dsimp only
  split
  · exact Moves.ite h.onCall h.onCall.attemptRecall
  · exact h.onCall

theorem Moves.recallAgain {id : Nat} (h : Moves s0 s) : Moves s0 (s.recallAgain id) := by
  unfold State.recallAgain
  dsimp only
  split
  · exact h.onCall.attemptRecall
  · exact h.onCall

/-! ### Queries and management -/

theorem Moves.queryLoop {d : Delivered} (h : Moves s0 s) : Moves s0 (s.queryLoop d) := by
  unfold State.queryLoop
  split
  · split
    · exact h.refuse
    · exact Moves.ite h.refuse h.report
  · exact h

theorem Moves.querySummary {d : Delivered} (h : Moves s0 s) : Moves s0 (s.querySummary d) :=
  Moves.ite h.report h.refuse

theorem Moves.queryFaults {pick : FaultEntry → Bool} {d : Delivered} (h : Moves s0 s) :
    Moves s0 (s.queryFaults pick d) :=
  Moves.ite h.refuse (Moves.ite h.report h.startStream)

theorem Moves.queryPresence {d : Delivered} (h : Moves s0 s) : Moves s0 (s.queryPresence d) :=
  Moves.ite h.report (Moves.ite h.refuse h.startStream)

theorem Moves.queryConfiguration {d : Delivered} (h : Moves s0 s) : Moves s0 (s.queryConfiguration d) := by
  unfold State.queryConfiguration
  split
  · exact Moves.ite h.refuse h.report
  · exact h

theorem Moves.testRequest {n bits : Nat} {b : Bool} (h : Moves s0 s) : Moves s0 (s.testRequest n bits b) :=
  Moves.ite h.takeTest (Moves.ite h.takeTest (Moves.ite h h.takeTest))

theorem Moves.controlHold {d : Delivered} (h : Moves s0 s) : Moves s0 (s.controlHold d) :=
  Moves.ite h.done.addHolder h.refuse

theorem Moves.controlRetrain {d : Delivered} (h : Moves s0 s) : Moves s0 (s.controlRetrain d) := by
  unfold State.controlRetrain
  split
  · exact h.refuse
  · exact h.done
  · exact h.done.enterDown

theorem Moves.clearRetry {d : Delivered} (h : Moves s0 s) : Moves s0 (s.clearRetry d) := by
  have cleared : Moves s0 (s.onLle fun l => { l with retry := 0 }) :=
    h.onLle fun l => by
      rw [lle_fits_iff] at l ⊢
      exact ⟨Nat.zero_le _, l.2⟩
  unfold State.clearRetry
  dsimp only
  split
  · exact cleared.done.enterDown
  · exact cleared.done.enterDown
  · exact cleared.done

/-- A change of one counter that keeps its value in range and its selection, or leaves counters 0 and 1 (R192). -/
theorem ctb_onCounter_fits {b : Ctb} {n : Nat} {f : Counter → Counter}
    (hv : ∀ c, c.value ≤ Config.counterTop → (f c).value ≤ Config.counterTop)
    (hs : n < 2 → ∀ c, (f c).selection = c.selection) (h : b.fits = true) : (b.onCounter n f).fits = true := by
  have selection (k : Nat) (hk : k < 2) :
      (b.onCounter n f).counters[k]?.map (·.selection) = b.counters[k]?.map (·.selection) := by
    simp only [Ctb.onCounter, List.getElem?_modify]
    cases b.counters[k]? with
    | none => rfl
    | some c =>
      by_cases e : n = k
      · simp [e, hs (e ▸ hk)]
      · simp [e]
  simp only [Ctb.fits, Bool.and_eq_true, decide_eq_true_eq, List.all_eq_true] at h ⊢
  obtain ⟨⟨⟨eight, top⟩, first⟩, second⟩ := h
  refine ⟨⟨⟨by simpa [Ctb.onCounter] using eight, fun c hc => ?_⟩, (selection 0 (by decide)).trans first⟩,
    (selection 1 (by decide)).trans second⟩
  obtain ⟨k, hk, rfl⟩ := List.mem_iff_getElem.mp hc
  simp only [Ctb.onCounter, List.length_modify] at hk
  simp only [Ctb.onCounter, List.getElem_modify]
  split
  · exact hv _ (top _ (List.getElem_mem hk))
  · exact top _ (List.getElem_mem hk)

/-- A change of one counter, as a COUNTER command makes it. -/
theorem Moves.onCounter {n : Nat} {f : Counter → Counter} (h : Moves s0 s)
    (hv : ∀ c, c.value ≤ Config.counterTop → (f c).value ≤ Config.counterTop)
    (hs : n < 2 → ∀ c, (f c).selection = c.selection := by exact fun _ _ => rfl) :
    Moves s0 (s.onCtb (Ctb.onCounter n f)) :=
  h.onCtb (ctb_onCounter_fits hv hs)

theorem Moves.readCounter {m n : Nat} (h : Moves s0 s) : Moves s0 (s.readCounter m n) := by
  unfold State.readCounter
  split
  · exact h.refuse
  · exact h.report

theorem Moves.clearCounter {m n : Nat} (h : Moves s0 s) : Moves s0 (s.clearCounter m n) := by
  unfold State.clearCounter
  split
  · exact h.refuse
  · exact Moves.ite (h.onCounter fun _ _ => Nat.zero_le _).report h.refuse

/-- R197: the selections of counters 0 and 1 are fixed. -/
theorem Counter.set_selection {n : Nat} {x : Option Nat} {b : Option Bool} (low : n < 2) (c : Counter) :
    (c.set n x b).selection = c.selection := if_pos low

theorem Moves.setCounter {m n : Nat} {x : Option Nat} {b : Option Bool} (h : Moves s0 s) :
    Moves s0 (s.setCounter m n x b) := by
  unfold State.setCounter
  split
  · exact Moves.ite h.refuse h
  · exact Moves.ite (h.onCounter (f := Counter.set n x b) (fun _ v => v) fun low c => Counter.set_selection low c).done h

theorem Moves.delegateCounter {m n a : Nat} (h : Moves s0 s) : Moves s0 (s.delegateCounter m n a) :=
  have given (a : Option Nat) : Moves s0 (s.onCtb (Ctb.onCounter n fun c => { c with delegate := a })) :=
    h.onCounter fun _ v => v
  Moves.ite h.refuse (Moves.ite (given _).done (Moves.ite (given _).done h.refuse))

/-! ### The start of the part and the Yard Bus -/

theorem insertEntry_length (e : PresenceEntry) (l : List PresenceEntry) : (insertEntry e l).length = l.length + 1 := by
  have parts := congrArg List.length
    (List.takeWhile_append_dropWhile (p := fun x => decide (x.address < e.address)) (l := l))
  simp only [List.length_append] at parts
  simp only [insertEntry, List.length_append, List.length_cons]
  omega

theorem oldestAbsent_mem {l : List PresenceEntry} {e : PresenceEntry} (h : oldestAbsent l = some e) : e ∈ l := by
  have key (m : List PresenceEntry) (b : Option PresenceEntry) (e : PresenceEntry)
      (h : m.foldl (fun best e => match best with
        | none => some e
        | some b => if b.age < e.age then some e else some b) b = some e) : b = some e ∨ e ∈ m := by
    induction m generalizing b with
    | nil => exact .inl h
    | cons x m ih =>
      rcases ih _ h with found | found
      · cases b with
        | none => exact .inr (by simp_all)
        | some b =>
          simp only at found
          split at found
          · exact .inr (by simp_all)
          · exact .inl found
      · exact .inr (List.mem_cons_of_mem _ found)
  rcases key _ _ _ h with found | found
  · cases found
  · exact List.mem_of_mem_filter found

/-- R15: the table with a place for a new entry has one entry fewer than it may have. -/
theorem placeForEntry_room {l m : List PresenceEntry} (h : placeForEntry l = some m) (full : l.length ≤ 23) :
    m.length + 1 ≤ 23 := by
  unfold placeForEntry at h
  split at h
  · cases h
    exact ‹_›
  · obtain ⟨old, found, rfl⟩ := Option.map_eq_some_iff.mp h
    have fewer : (l.filter fun e => e.address != old.address).length < l.length :=
      List.length_filter_lt_length_iff_exists.mpr ⟨old, oldestAbsent_mem found, by simp⟩
    exact fewer.trans_le full

theorem Moves.refreshSender {n : Nat} {x : Option (Role × Bool × RingMode × Nat)} (h : Moves s0 s) :
    Moves s0 (s.refreshSender n x) := by
  unfold State.refreshSender
  split
  · exact Moves.ite h.onEntry h.onEntry.makeInactive
  · split
    · exact h
    · rename_i l place
      refine h.onYbi ⟨fun y => ?_, rfl, id, id⟩
      rw [ybi_fits_iff] at y ⊢
      obtain ⟨u, c, r, x, p⟩ := y
      exact ⟨u, c, r, x, (insertEntry_length _ l).trans_le (placeForEntry_room place p)⟩

theorem Moves.takePresence {n : Nat} {x : Option (Role × Bool × RingMode × Nat)} (h : Moves s0 s) :
    Moves s0 (s.takePresence n x) := by
  unfold State.takePresence
  split
  · exact h
  · exact h.onEntry

theorem Moves.takeLineStatus {n : Nat} {b : List Byte} (h : Moves s0 s) : Moves s0 (s.takeLineStatus n b) := by
  unfold State.takeLineStatus
  split
  · exact h.onEntry
  · exact h

theorem Moves.deliver {f : RxFrame} {k : Kind} (h : Moves s0 s) : Moves s0 (s.deliver f k) := by
  unfold State.deliver
  split
  · exact Moves.ite h.takeFrame.refuse h
  · split
    · exact h.frameDropped
    · rename_i room
      refine h.onYbi ⟨fun y => ?_, rfl, id, id⟩
      rw [ybi_fits_iff] at y ⊢
      obtain ⟨u, c, r, -, p⟩ := y
      exact ⟨u, c, r, by simpa [Config.rxCapacity] using room, p⟩

theorem Moves.routeFrame {f : RxFrame} (h : Moves s0 s) : Moves s0 (s.routeFrame f) := by
  unfold State.routeFrame
  split
  · exact h.signal
  · exact h
  · exact h
  · exact Moves.ite h.deliver h

theorem Moves.takeValid {f : RxFrame} (h : Moves s0 s) : Moves s0 (s.takeValid f) :=
  have known := Moves.ite h.refreshSender.takePresence.takeLineStatus h.refreshSender.takePresence
  Moves.ite known.routeFrame known

theorem Moves.judge {b : List Byte} {x y : Bool} (h : Moves s0 s) : Moves s0 (s.judge b x y) := by
  unfold State.judge
  split
  · exact Moves.ite h.signal h
  · exact h.takeValid

theorem Moves.ownSlot {c : UrgencyClass} (h : Moves s0 s) : Moves s0 (s.ownSlot c) := by
  unfold State.ownSlot
  have counted (n : Nat) (b : Bool) : Moves s0 (s.onYbi fun y => { y with bus := .idle, slot := n, yielding := b }) :=
    h.onYbi ⟨id, rfl, id, id⟩
  dsimp only
  split
  · exact counted _ _
  · exact Moves.ite ((counted _ _).onYbi ⟨id, rfl, id, id⟩) (counted _ _)

theorem Moves.headLeaves {c : UrgencyClass} {b : BusState} {n : Nat} (h : Moves s0 s) :
    Moves s0 (s.headLeaves c b n) := by
  have shorter (l : List TxFrame) {k : Nat} (hl : l.length ≤ k) : (l.drop 1).length ≤ k :=
    (List.length_drop.trans_le (Nat.sub_le _ _)).trans hl
  have empty {l : List TxFrame} (hl : l = []) : l.drop 1 = [] := by rw [hl]; rfl
  refine h.onYbi ⟨fun y => ?_, by cases c <;> rfl, by cases c <;> exact fun x => x, fun m l => ?_⟩
  · rw [ybi_fits_iff] at y ⊢
    obtain ⟨hu, hc, hr, hx, hp⟩ := y
    cases c with
    | urgent => exact ⟨shorter _ hu, hc, hr, hx, hp⟩
    | call => exact ⟨hu, shorter _ hc, hr, hx, hp⟩
    | routine => exact ⟨hu, hc, shorter _ hr, hx, hp⟩
  · cases c with
    | urgent =>
      obtain ⟨hu, hc, hr, hs⟩ := m l
      exact ⟨empty hu, hc, hr, hs⟩
    | call =>
      obtain ⟨hu, hc, hr, hs⟩ := m l
      exact ⟨hu, empty hc, hr, hs⟩
    | routine =>
      obtain ⟨hu, hc, hr, hs⟩ := m l
      exact ⟨hu, hc, empty hr, hs⟩

theorem Moves.afterLeaving {c : UrgencyClass} {f : Option TxFrame} (h : Moves s0 s) :
    Moves s0 (s.afterLeaving c f) := by
  unfold State.afterLeaving
  split
  · have left : Moves s0 (s.onYbi fun y => { y with stream := y.stream.map fun r => { r with inQueue := false } }) :=
      h.onYbi ⟨id, rfl, id, fun m l => by
        obtain ⟨hu, hc, hr, hs⟩ := m l
        exact ⟨hu, hc, hr, by rw [hs]; rfl⟩⟩
    exact (Moves.ite left h).handOwed.pumpStream
  · exact h

theorem Moves.markReported {f : Option TxFrame} (h : Moves s0 s) : Moves s0 (s.markReported f) := by
  unfold State.markReported
  split
  · exact h.onFlt reportedBy_fits
  · exact h

theorem Moves.enterListenOnly (h : Moves s0 s) : Moves s0 s.enterListenOnly := by
  refine Moves.onFlt (h.onYbi ⟨fun y => ?_, rfl, fun _ => rfl, fun _ _ => ⟨rfl, rfl, rfl, rfl⟩⟩)
  rw [ybi_fits_iff] at y ⊢
  obtain ⟨-, -, -, x, p⟩ := y
  exact ⟨Nat.zero_le _, Nat.zero_le _, Nat.zero_le _, x, p⟩

theorem Moves.goAbsent {n : Nat} (h : Moves s0 s) : Moves s0 (s.goAbsent n) :=
  Moves.stationGone <| h.onEntry.raise.onCtb <| ctb_map_fits (fun c v => by split <;> exact v) fun c => by
    split <;> rfl

/-! ### The link, the ports, the line and the survey -/

theorem Moves.endProbe {m : List Int} (h : Moves s0 s) : Moves s0 (s.endProbe m) :=
  Moves.ite h.onLle.onLle.sayFar h.onLle.trainingFailure

theorem Moves.takeTables {a b : List Nat} (h : Moves s0 s) : Moves s0 (s.takeTables a b) :=
  Moves.ite h.trainingFailure h.onLle.enterShowtime

theorem Moves.lockoutEnds (h : Moves s0 s) : Moves s0 s.lockoutEnds := Moves.ite h.onLle h.enterDown

theorem Moves.overheadExpires {o : Outstanding} (h : Moves s0 s) : Moves s0 (s.overheadExpires o) :=
  Moves.ite h.onLle.sayFar h.onLle.abandoned

theorem Moves.farSwap {n g : Nat} {t : TableName} {b : List Nat} (h : Moves s0 s) :
    Moves s0 (s.farSwap n t g b) :=
  Moves.ite (h.onLle fun l => by cases t <;> exact l).answerFar h.answerFar

theorem Moves.refreshDue {m : List Int} (h : Moves s0 s) : Moves s0 (s.refreshDue m) :=
  Moves.ite h.onSync.refresh h.onSync.deferVisit

/-- R96: the list holds the last 8 events. -/
theorem listImpulse_length (i : Impulse) (l : List Impulse) : (listImpulse i l).length ≤ 8 := by
  simp only [listImpulse, Config.impulseCapacity, List.length_drop, List.length_append, List.length_singleton]
  omega

theorem Moves.takeImpulse {i : Impulse} (h : Moves s0 s) : Moves s0 (s.takeImpulse i) :=
  (h.signal.onSync fun l => by
    rw [lle_fits_iff] at l ⊢
    obtain ⟨retry, debt, swap, -⟩ := l
    exact ⟨retry, debt, swap, listImpulse_length i _⟩).lockRules.recomputeDepth

theorem Moves.marginWatchEnds (h : Moves s0 s) : Moves s0 s.marginWatchEnds := by
  unfold State.marginWatchEnds
  split
  · exact h.onSync.raise
  · exact h.onSync.makeInactive
  · exact h

theorem Moves.loopClosed {p : Port} (h : Moves s0 s) : Moves s0 (s.loopClosed p) := by
  unfold State.loopClosed
  split
  · exact h.takeOffHook
  · exact h.takeOffHook
  · exact h
  · split
    · exact h
    · exact h.closeBreak

theorem Moves.feedStands (h : Moves s0 s) : Moves s0 s.feedStands :=
  Moves.ite h.onVsw h.onVsw.makeInactive.handOverLine

theorem Moves.takeBurst (h : Moves s0 s) : Moves s0 s.takeBurst := by
  unfold State.takeBurst
  split
  · exact h.setLine.onVsw.senseRinging.ringStart
  · exact h.onVsw.senseRinging
  · exact h

theorem Moves.beginPhase (h : Moves s0 s) : Moves s0 s.beginPhase := by
  unfold State.beginPhase
  split
  · split
    · exact h.beginVoltage
    · exact h
  · split
    · exact h.beginMetallic
    · exact h
  · exact h

theorem Moves.restored (h : Moves s0 s) : Moves s0 s.restored := h.onLth.leaveTest.continueSurvey 2


end Sys2Proof.Proofs.Steps
end

section
/-! What every command keeps, part five: the ringing (section 6.4), the supply state, and the whole of what follows an
event. -/

set_option Elab.async false

namespace Sys2Proof.Proofs.Steps

open Sys2Proof Sys2Proof.Machine

variable {s0 s t u before : State}

/-! ### What passes -/

/-- What a command other than DEVICE_RESET and CONFIG_READ_DONE leaves, its ringing apart. -/
structure Passes (s t : State) : Prop where
  pending : t.pending = s.pending
  rank : t.cfl.rank = s.cfl.rank
  record : t.cfl.record = s.cfl.record
  defaulted : t.cfl.defaulted = s.cfl.defaulted
  address : t.ybi.ownAddress = s.ybi.ownAddress
  fits : s.fits = true → t.fits = true
  listening : s.ybi.listenOnly = true → t.ybi.listenOnly = true
  mute : Mute s.ybi → Mute t.ybi

theorem Passes.refl (s : State) : Passes s s := ⟨rfl, rfl, rfl, rfl, rfl, id, id, id⟩

theorem Passes.trans (h : Passes s t) (g : Passes t u) : Passes s u :=
  ⟨g.pending.trans h.pending, g.rank.trans h.rank, g.record.trans h.record, g.defaulted.trans h.defaulted,
    g.address.trans h.address, fun x => g.fits (h.fits x), fun x => g.listening (h.listening x),
    fun x => g.mute (h.mute x)⟩

theorem Moves.passes (h : Moves s t) : Passes s t :=
  ⟨h.keeps.pending, congrArg Cfl.rank h.keeps.cfl, congrArg Cfl.record h.keeps.cfl, congrArg Cfl.defaulted h.keeps.cfl,
    h.address, h.keeps.fits, h.listening, h.mute⟩

theorem Passes.moves (h : Passes s0 s) (g : Moves s t) : Passes s0 t := h.trans g.passes

theorem Passes.ite {c : Prop} [Decidable c] (h : Passes s0 s) (g : Passes s0 t) :
    Passes s0 (if c then s else t) := by
  split
  · exact h
  · exact g

theorem Passes.onPins {f : Pins → Pins} (h : Passes s0 s) : Passes s0 (s.onPins f) :=
  h.trans ⟨rfl, rfl, rfl, rfl, rfl, id, id, id⟩

theorem Passes.onSup {f : Sup → Sup} (h : Passes s0 s) : Passes s0 (s.onSup f) :=
  h.trans ⟨rfl, rfl, rfl, rfl, rfl, id, id, id⟩

/-- A change of the CFL that leaves the record, its mark and the rank. -/
theorem Passes.onCfl {f : Cfl → Cfl} (h : Passes s0 s) (hr : (f s.cfl).record = s.cfl.record)
    (hd : (f s.cfl).defaulted = s.cfl.defaulted) (hk : (f s.cfl).rank = s.cfl.rank) : Passes s0 (s.onCfl f) :=
  h.trans ⟨rfl, hk, hr, hd, rfl, fun x => by
    rw [← x]
    unfold State.fits
    rw [State.onCfl_cfl, hr]
    rfl, id, id⟩

theorem Passes.onPort {p : Port} {f : PortRec → PortRec} (h : Passes s0 s) : Passes s0 (s.onPort p f) :=
  h.trans (by cases p <;> exact ⟨rfl, rfl, rfl, rfl, rfl, id, id, id⟩)

/-- A change of the VSW that leaves the repeat queue. -/
theorem Passes.onVsw {f : Vsw → Vsw} (h : Passes s0 s)
    (hq : (f s.vsw).repeatQueue = s.vsw.repeatQueue := by exact rfl) : Passes s0 (s.onVsw f) :=
  h.trans ⟨rfl, rfl, rfl, rfl, rfl, fun x => by
    rw [← x]
    unfold State.fits Vsw.fits
    rw [State.onVsw_vsw, hq]
    rfl, id, id⟩

/-! ### The ring plan -/

theorem Passes.followPlan {p : Port} (h : Passes s0 s) : Passes s0 (s.followPlan p) := by
  unfold State.followPlan
  split
  · exact h.onPort
  · exact h.onPort
  · exact h

theorem Passes.demandRing (h : Passes s0 s) : Passes s0 s.demandRing := by
  unfold State.demandRing
  exact h.onSup

theorem Moves.judgePlan {old : RingPlan} (h : Moves s0 s) : Moves s0 (s.judgePlan old) :=
  Moves.ite h.signalTimes.makeInactive h.signalTimes.raiseUnlessActive

/-- The RINGs of a plan, to the episodes it calls for (R128). -/
theorem Moves.sendRings {c : Episode → State → Prop} [∀ e s, Decidable (c e s)] {l : List Episode} (h : Moves s0 s) :
    Moves s0 (l.foldl (fun s e => if c e s then s.sendRing e else s) s) :=
  Moves.foldl (fun _ _ hs => Moves.ite hs.handCall hs) l h

theorem Passes.planOnce {l : List Episode} (h : Passes s0 s) : Passes s0 (s.planOnce l) := by
  have planned : Passes s0 (s.onVsw fun v => { v with plan := s.computePlan }) := h.onVsw
  exact Passes.demandRing <|
    Passes.moves (Passes.followPlan <| Passes.followPlan <| planned.moves (Moves.refl _).judgePlan)
      (Moves.sendRings (c := fun e t => (l.any (fun b => b.callId == e.callId) ||
        !s.vsw.plan.namesSame e.callId t.vsw.plan) = true) (Moves.refl _))

theorem Passes.planUntil (n : Nat) {l : List Episode} (h : Passes s0 s) : Passes s0 (State.planUntil n l s) := by
  induction n generalizing l s with
  | zero => exact h.planOnce
  | succ n ih => exact Passes.ite h.planOnce (ih h.planOnce)

theorem Passes.syncEpisodes (h : Passes s0 s) : Passes s0 s.syncEpisodes.1 :=
  Passes.moves h.onVsw (Moves.foldl (fun _ _ hs => hs.handCall) _ (Moves.refl _))

theorem Passes.settleRinging (h : Passes s0 s) : Passes s0 (s.settleRinging before) := by
  have synced : Passes s0 (if s.cct.calls = before.cct.calls then (s, []) else s.syncEpisodes).1 := by
    split
    · exact h
    · exact h.syncEpisodes
  exact Passes.ite (synced.planUntil 2) (Passes.ite synced (Passes.ite synced synced.demandRing))

/-- What follows an event passes, whatever the event was. -/
theorem Passes.settle (h : Passes s0 s) : Passes s0 (s.settle before) :=
  (h.moves (Moves.refl _).settlePortB.settleRecall).settleRinging.moves
    (Moves.refl _).settlePair.settleGuard.settleLink.settleWait

/-! ### Loads that a supply state can drive -/

theorem loadsFit_iff {x : SupplyState} {l : List Load} :
    loadsFit x l = true ↔ unitsOf l ≤ x.ringCapacity ∧ (x = .batteryLow → ∀ d ∈ l, d.who = .port .a) := by
  by_cases hx : x = .batteryLow <;> simp [loadsFit, hx]

theorem unitsOf_cons (d : Load) (l : List Load) : unitsOf (d :: l) = d.units + unitsOf l := by
  have key (m : List Load) (n : Nat) : m.foldl (fun n x => n + x.units) n = n + unitsOf m := by
    induction m generalizing n with
    | nil => rfl
    | cons e m ih =>
      rw [List.foldl_cons, ih, show unitsOf (e :: m) = 0 + e.units + unitsOf m from ih _]
      omega
  rw [unitsOf, List.foldl_cons, key]
  omega

theorem unitsOf_sublist {l m : List Load} (h : l.Sublist m) : unitsOf l ≤ unitsOf m := by
  induction h with
  | slnil => exact Nat.le_refl _
  | cons d _ ih =>
    rw [unitsOf_cons]
    omega
  | cons_cons d _ ih =>
    rw [unitsOf_cons, unitsOf_cons]
    omega

theorem loadsFit_sublist {x : SupplyState} {l m : List Load} (h : l.Sublist m) (fits : loadsFit x m = true) :
    loadsFit x l = true := by
  obtain ⟨units, low⟩ := loadsFit_iff.mp fits
  exact loadsFit_iff.mpr ⟨(unitsOf_sublist h).trans units, fun e d hd => low e d (h.subset hd)⟩

theorem loadsFit_nil (x : SupplyState) : loadsFit x [] = true := loadsFit_iff.mpr ⟨Nat.zero_le _, fun _ _ h => nomatch h⟩

theorem drivable_sublist (x : SupplyState) (l : List Load) : (drivable x l).Sublist l := by
  cases x with
  | mains => exact List.Sublist.refl l
  | battery => exact List.Sublist.refl l
  | batteryLow => exact List.filter_sublist

theorem shedTo_sublist (n : Nat) (l : List Load) : (shedTo n l).Sublist l := by
  induction l generalizing n with
  | nil => exact List.Sublist.refl _
  | cons d l ih =>
    unfold shedTo
    split
    · exact (ih _).cons_cons d
    · exact List.nil_sublist _

theorem unitsOf_shedTo (n : Nat) (l : List Load) : unitsOf (shedTo n l) ≤ n := by
  induction l generalizing n with
  | nil => exact Nat.zero_le _
  | cons d l ih =>
    unfold shedTo
    split
    · rw [unitsOf_cons]
      have := ih (n - d.units)
      omega
    · exact Nat.zero_le _

/-- R39: what is left after shedding, the supply state can drive. -/
theorem loadsFit_shed (x : SupplyState) (l : List Load) : loadsFit x (shedTo x.ringCapacity (drivable x l)) = true := by
  refine loadsFit_iff.mpr ⟨unitsOf_shedTo _ _, fun e d hd => ?_⟩
  subst e
  exact of_decide_eq_true (List.mem_filter.mp ((shedTo_sublist _ _).subset hd)).2

/-! ### The plan that R126 computes -/

theorem fitLoads_sublist (n : Nat) (l : List PlannedLoad) : (fitLoads n l).1.Sublist l := by
  induction l generalizing n with
  | nil => exact List.Sublist.refl _
  | cons c l ih =>
    unfold fitLoads
    split
    · exact (ih _).cons_cons c
    · exact (ih _).cons c

theorem unitsOf_fitLoads (n : Nat) (l : List PlannedLoad) : unitsOf ((fitLoads n l).1.map (·.load)) ≤ n := by
  induction l generalizing n with
  | nil => exact Nat.zero_le _
  | cons c l ih =>
    unfold fitLoads
    split
    · rw [List.map_cons, unitsOf_cons]
      have := ih (n - c.load.units)
      omega
    · exact ih n

theorem targetEpisode_some {e : Endpoint} {ok : Nat → Bool} {id : Nat} (h : s.targetEpisode e ok = some id) :
    ok id = true := by
  obtain ⟨x, found, rfl⟩ := Option.map_eq_some_iff.mp h
  have := List.find?_some found
  simp only [Bool.and_eq_true] at this
  exact this.2

theorem incomingEpisode_some {ok : Nat → Bool} {id : Nat} (h : s.incomingEpisode ok = some id) : ok id = true := by
  obtain ⟨x, found, rfl⟩ := Option.map_eq_some_iff.mp h
  have := List.find?_some found
  simp only [Bool.and_eq_true] at this
  exact this.2

/-- In BATTERY_LOW no port but A rings (R39, R126). -/
theorem portCandidate_batteryLow (low : s.sup.supply = .batteryLow) : s.portCandidate .b = none := by
  have never (id : Nat) : s.portRingable .b id = false := by simp [State.portRingable, low]
  cases found : s.portCandidate .b with
  | none => rfl
  | some id =>
    rcases Option.or_eq_some_iff.mp found with target | ⟨-, incoming⟩
    · exact absurd (targetEpisode_some target) (by simp [never])
    · exact absurd (incomingEpisode_some incoming) (by simp [never])

/-- In BATTERY_LOW no station rings (R39, R126). -/
theorem stationCandidate_batteryLow (low : s.sup.supply = .batteryLow) (e : PresenceEntry) :
    s.stationCandidate e = none := by
  have never (id : Nat) (b : Bool) : s.stationRingable e id b = false := by simp [State.stationRingable, low]
  cases found : s.stationCandidate e with
  | none => rfl
  | some id =>
    rcases Option.or_eq_some_iff.mp found with target | ⟨-, incoming⟩
    · exact absurd (targetEpisode_some target) (by simp [never])
    · exact absurd (incomingEpisode_some incoming) (by simp [never])

theorem candidates_batteryLow (low : s.sup.supply = .batteryLow) : ∀ c ∈ s.candidates, c.load.who = .port .a := by
  intro c hc
  have stations : (s.ybi.presence.filterMap fun e =>
      if e.ringMode = .pair then
        (s.stationCandidate e).map fun id =>
          ({ load := { who := .station e.address, units := e.units }, callId := id } : PlannedLoad)
      else none) = [] := by
    simp [stationCandidate_batteryLow low]
  unfold State.candidates at hc
  dsimp only at hc
  rw [stations, portCandidate_batteryLow low] at hc
  cases found : s.portCandidate .a with
  | none => simp [found] at hc
  | some id =>
    simp only [found, Option.map_some, Option.map_none, List.append_nil, List.filterMap_cons, List.filterMap_nil,
      List.mem_singleton] at hc
    rw [hc]

theorem computePlan_fits (s : State) : loadsFit s.sup.supply (s.computePlan.loads.map (·.load)) = true := by
  refine loadsFit_iff.mpr ⟨unitsOf_fitLoads _ _, fun low d hd => ?_⟩
  obtain ⟨c, hc, rfl⟩ := List.mem_map.mp hd
  exact candidates_batteryLow low c ((fitLoads_sublist _ _).subset hc)

/-! ### Ringing that is due a plan -/

/-- The converter drives and holds what the supply state `x` can drive. -/
def Within (x : SupplyState) (c : Converter) : Prop :=
  loadsFit x (c.burst.getD []) = true ∧ loadsFit x (c.held.getD []) = true

/-- R126 between an event and what follows it: the converter is within the supply state; the plan is, unless the supply
state is another than before, `x`, so that a plan is due; and without an episode nothing rings. -/
structure RingsDue (x : SupplyState) (s : State) : Prop where
  converter : Within s.sup.supply s.sup.converter
  plan : s.sup.supply = x → loadsFit s.sup.supply (s.vsw.plan.loads.map (·.load)) = true
  silent : s.vsw.episodes = [] → s.vsw.plan.loads = [] ∧ s.portsSilent

theorem ringsWithin_iff (s : State) : s.ringsWithin = true ↔ RingsDue s.sup.supply s := by
  constructor
  · intro h
    simp only [State.ringsWithin, Bool.and_eq_true, Bool.or_eq_true, Bool.not_eq_true', List.isEmpty_eq_false_iff,
      List.isEmpty_iff, decide_eq_true_eq] at h
    obtain ⟨⟨⟨burst, held⟩, plan⟩, silent⟩ := h
    exact ⟨⟨burst, held⟩, fun _ => plan, fun none => silent.resolve_left (absurd none)⟩
  · intro h
    simp only [State.ringsWithin, Bool.and_eq_true, Bool.or_eq_true, Bool.not_eq_true', List.isEmpty_eq_false_iff,
      List.isEmpty_iff, decide_eq_true_eq]
    exact ⟨⟨h.converter, h.plan rfl⟩, Decidable.or_iff_not_imp_left.mpr fun none => h.silent (not_not.mp none)⟩

/-- What moves leaves the ringing as it is, and makes no port ring. -/
theorem RingsDue.moves {x : SupplyState} (h : RingsDue x s) (g : Moves s t) : RingsDue x t := by
  obtain ⟨supply, converter, plan, episodes⟩ : t.sup.supply = s.sup.supply ∧ t.sup.converter = s.sup.converter ∧
      t.vsw.plan = s.vsw.plan ∧ t.vsw.episodes = s.vsw.episodes := by
    simpa only [State.ringPart, Prod.mk.injEq] using g.keeps.ring
  refine ⟨by rw [supply, converter]; exact h.converter, by rw [supply, plan]; exact h.plan, fun none => ?_⟩
  obtain ⟨loads, silentA, silentB⟩ := h.silent (episodes.symm.trans none)
  exact ⟨by rw [plan]; exact loads, fun r => silentA (g.silentA r), fun r => silentB (g.silentB r)⟩

theorem demand_within {x : SupplyState} {now : Nat} {l : List Load} {c : Converter} (h : Within x c)
    (fits : loadsFit x l = true) : Within x (c.demand x now l) := by
  unfold Converter.demand
  split
  · split
    · exact h
    · exact ⟨h.1, fits⟩
  · exact ⟨h.1, fits⟩
  · split
    · exact ⟨loadsFit_nil x, h.2⟩
    · exact ⟨loadsFit_sublist (drivable_sublist x l) fits, h.2⟩

theorem settled_within {x : SupplyState} {now : Nat} {c : Converter} (h : Within x c) : Within x (c.settled x now) := by
  obtain ⟨-, held⟩ := h
  unfold Converter.settled
  dsimp only
  split
  · rename_i d l e
    rw [e] at held
    exact ⟨loadsFit_sublist (drivable_sublist x _) held, loadsFit_nil x⟩
  · exact ⟨loadsFit_nil x, loadsFit_nil x⟩

theorem shed_within (x : SupplyState) (c : Converter) : Within x (c.shed x) := by
  constructor
  · cases h : c.burst with
    | none => simp [Converter.shed, h, loadsFit_nil]
    | some l => simp [Converter.shed, h, loadsFit_shed]
  · cases h : c.held with
    | none => simp [Converter.shed, h, loadsFit_nil]
    | some l => simp [Converter.shed, h, loadsFit_shed]

theorem RingsDue.demandRing {x : SupplyState} (h : RingsDue x s)
    (plan : loadsFit s.sup.supply (s.vsw.plan.loads.map (·.load)) = true) : RingsDue x s.demandRing :=
  ⟨demand_within h.converter (loadsFit_sublist (List.filter_sublist.map _) plan), h.plan, h.silent⟩

theorem followPlan_frame (p : Port) (s : State) :
    (s.followPlan p).sup = s.sup ∧ (s.followPlan p).vsw.plan = s.vsw.plan ∧
      (s.followPlan p).vsw.episodes = s.vsw.episodes := by
  unfold State.followPlan
  split <;> cases p <;> exact ⟨rfl, rfl, rfl⟩

/-- A port that the plan does not name is not in RINGING after it (R117). -/
theorem followPlan_silent_port {p : Port} (h : s.vsw.plan.loads = []) : ((s.followPlan p).port p).state ≠ .ringing := by
  have unnamed : (s.vsw.plan.ringsFor (.port p)).isSome = false := by simp [RingPlan.ringsFor, h]
  unfold State.followPlan
  split
  · rename_i named
    exact absurd (named.symm.trans unnamed) (by decide)
  · cases p <;> exact (by decide : PortState.onHook ≠ .ringing)
  · rename_i notNamed
    exact fun ringing => notNamed ringing unnamed

theorem followPlan_other {p q : Port} (h : p ≠ q) : (s.followPlan p).port q = s.port q := by
  unfold State.followPlan
  split <;> cases p <;> cases q <;> first | rfl | exact absurd rfl h

theorem followPlans_silent (h : s.vsw.plan.loads = []) : ((s.followPlan .a).followPlan .b).portsSilent := by
  have planB : (s.followPlan .a).vsw.plan.loads = [] := by
    rw [(followPlan_frame .a s).2.1]
    exact h
  refine ⟨?_, followPlan_silent_port (p := .b) planB⟩
  have stands : ((s.followPlan .a).followPlan .b).port .a = (s.followPlan .a).port .a := followPlan_other (by decide)
  exact fun ringing => followPlan_silent_port (p := .a) h ((congrArg PortRec.state stands).symm.trans ringing)

/-- R126 but for the ports, which are still to follow the plan. -/
structure Planned (s : State) : Prop where
  converter : Within s.sup.supply s.sup.converter
  plan : loadsFit s.sup.supply (s.vsw.plan.loads.map (·.load)) = true
  silent : s.vsw.episodes = [] → s.vsw.plan.loads = []

theorem Planned.of_ring (h : Planned s) (ring : t.ringPart = s.ringPart) : Planned t := by
  obtain ⟨supply, converter, plan, episodes⟩ : t.sup.supply = s.sup.supply ∧ t.sup.converter = s.sup.converter ∧
      t.vsw.plan = s.vsw.plan ∧ t.vsw.episodes = s.vsw.episodes := by
    simpa only [State.ringPart, Prod.mk.injEq] using ring
  exact ⟨by rw [supply, converter]; exact h.converter, by rw [supply, plan]; exact h.plan,
    by rw [plan, episodes]; exact h.silent⟩

theorem Planned.computed (h : Within s.sup.supply s.sup.converter) :
    Planned (s.onVsw fun v => { v with plan := s.computePlan }) :=
  ⟨h, computePlan_fits s, fun none => congrArg RingPlan.loads (computePlan_silent (s := s) none)⟩

theorem Planned.followPlan {p : Port} (h : Planned s) : Planned (s.followPlan p) := by
  obtain ⟨sup, plan, episodes⟩ := followPlan_frame p s
  exact h.of_ring (by unfold State.ringPart; rw [sup, plan, episodes])

/-- Once the ports have followed the plan, the ringing is within the supply state (R126). -/
theorem Planned.followed (h : Planned s) : RingsDue s.sup.supply ((s.followPlan .a).followPlan .b) := by
  have after := h.followPlan (p := .a) |>.followPlan (p := .b)
  have plan : ((s.followPlan .a).followPlan .b).vsw.plan = s.vsw.plan :=
    (followPlan_frame .b _).2.1.trans (followPlan_frame .a s).2.1
  exact ⟨after.converter, fun _ => after.plan, fun none =>
    ⟨after.silent none, followPlans_silent (plan ▸ after.silent none)⟩⟩

theorem ringsWithin_of_due (h : RingsDue s.sup.supply s) : s.ringsWithin = true := (ringsWithin_iff s).mpr h

/-- What moves keeps the ringing within the supply state. -/
theorem Moves.ringsWithin (g : Moves s t) (h : s.ringsWithin = true) : t.ringsWithin = true := by
  have due := ((ringsWithin_iff s).mp h).moves g
  have supply : t.sup.supply = s.sup.supply := congrArg Prod.fst g.keeps.ring
  exact ringsWithin_of_due (supply ▸ due)

theorem ringsWithin_demandRing (h : s.ringsWithin = true) : s.demandRing.ringsWithin = true := by
  have due := (ringsWithin_iff s).mp h
  exact ringsWithin_of_due (due.demandRing (due.plan rfl))

/-- One plan puts the ringing within the supply state, whatever it was. -/
theorem ringsWithin_planOnce {l : List Episode} (h : Within s.sup.supply s.sup.converter) :
    (s.planOnce l).ringsWithin = true := by
  have moved := (Moves.refl (s.onVsw fun v => { v with plan := s.computePlan })).judgePlan (old := s.vsw.plan)
  have judged := (Planned.computed h).of_ring moved.keeps.ring
  have supply (t : State) : ((t.followPlan .a).followPlan .b).sup.supply = t.sup.supply :=
    congrArg Sup.supply ((followPlan_frame .b _).1.trans (followPlan_frame .a t).1)
  have followed := ringsWithin_of_due (supply _ ▸ judged.followed)
  have sent (es : List Episode) := (Moves.sendRings (l := es) (c := fun e t =>
    (l.any (fun b => b.callId == e.callId) || !s.vsw.plan.namesSame e.callId t.vsw.plan) = true)
      (Moves.refl _)).ringsWithin followed
  exact ringsWithin_demandRing (sent _)

theorem ringsWithin_planUntil (n : Nat) {l : List Episode} (h : Within s.sup.supply s.sup.converter) :
    (State.planUntil n l s).ringsWithin = true := by
  induction n generalizing l s with
  | zero => exact ringsWithin_planOnce h
  | succ n ih =>
    unfold State.planUntil
    dsimp only
    split
    · exact ringsWithin_planOnce h
    · exact ih ((ringsWithin_iff _).mp (ringsWithin_planOnce h)).converter

/-! ### The plan after an event -/

/-- The episodes follow the call table; nothing else of the ringing does, before a plan. -/
theorem syncEpisodes_frame (s : State) :
    ∃ l, s.syncEpisodes.1.sup = s.sup ∧ s.syncEpisodes.1.vsw = { s.vsw with episodes := l } := by
  let l := s.vsw.episodes.filter (fun e => s.cct.episodes.contains (e.callId, e.kind)) ++ s.syncEpisodes.2
  have told : Tells (s.onVsw fun v => { v with episodes := l }) s.syncEpisodes.1 :=
    Tells.foldl (fun _ _ => tells_handCall _ _) _ _
  obtain ⟨q, e, -⟩ := told
  exact ⟨l, by rw [e]; rfl, by rw [e]; rfl⟩

/-- No plan is due when supply, episodes and ports are as they were (R126). -/
theorem ringsWithin_settleRinging (h : RingsDue before.sup.supply s) : (s.settleRinging before).ringsWithin = true := by
  obtain ⟨r, hr⟩ : ∃ r, r = if s.cct.calls = before.cct.calls then (s, []) else s.syncEpisodes := ⟨_, rfl⟩
  obtain ⟨l, sup, vsw⟩ : ∃ l, r.1.sup = s.sup ∧ r.1.vsw = { s.vsw with episodes := l } := by
    rw [hr]
    split
    · exact ⟨s.vsw.episodes, rfl, rfl⟩
    · exact syncEpisodes_frame s
  unfold State.settleRinging
  rw [← hr]
  dsimp only
  split
  · exact ringsWithin_planUntil 2 (by rw [sup]; exact h.converter)
  · rename_i undue
    simp only [State.planDue, Bool.or_eq_true, decide_eq_true_eq, not_or, not_not] at undue
    obtain ⟨⟨⟨⟨episodes, supply⟩, -⟩, -⟩, -⟩ := undue
    have stands : r.1.ringsWithin = true := by
      refine ringsWithin_of_due ⟨by rw [sup]; exact h.converter, fun _ => ?_, fun none => ?_⟩
      · rw [vsw, sup]
        exact h.plan (sup ▸ supply)
      · have old : s.vsw.episodes = [] := List.map_eq_nil_iff.mp (by rw [← episodes, none]; rfl)
        simp only [State.portsSilent, vsw]
        exact h.silent old
    split
    · exact stands
    · split
      · exact stands
      · exact ringsWithin_demandRing stands

theorem ringsWithin_settle (h : RingsDue before.sup.supply s) : (s.settle before).ringsWithin = true :=
  (Moves.refl _).settlePair.settleGuard.settleLink.settleWait.ringsWithin
    (ringsWithin_settleRinging (h.moves (Moves.refl _).settlePortB.settleRecall))

end Sys2Proof.Proofs.Steps
end

section
/-! What every command keeps, part six: one command after the other, and the statements O3 and O5 to O8. -/

set_option Elab.async false

namespace Sys2Proof.Proofs.Steps

open Sys2Proof Sys2Proof.Machine

variable {s t : State}

/-! ### From the effect of a command to its next state -/

/-- What a command has brought about before what follows it. -/
structure Begun (s t : State) : Prop where
  passes : Passes s t
  due : s.ringsWithin = true → RingsDue s.sup.supply t

/-- What a command other than DEVICE_RESET and CONFIG_READ_DONE brings about. -/
structure Ended (s t : State) : Prop where
  passes : Passes s t
  rings : s.ringsWithin = true → t.ringsWithin = true

theorem Ended.refl (s : State) : Ended s s := ⟨Passes.refl s, id⟩

theorem Ended.trans {u : State} (h : Ended s t) (g : Ended t u) : Ended s u :=
  ⟨h.passes.trans g.passes, fun x => g.rings (h.rings x)⟩

theorem Begun.refl (s : State) : Begun s s := ⟨Passes.refl s, (ringsWithin_iff s).mp⟩

theorem Begun.moves {u : State} (h : Begun s t) (g : Moves t u) : Begun s u :=
  ⟨h.passes.moves g, fun x => (h.due x).moves g⟩

theorem Moves.begun (h : Moves s t) : Begun s t := (Begun.refl s).moves h

theorem Begun.onPins {f : Pins → Pins} (h : Begun s t) : Begun s (t.onPins f) :=
  ⟨h.passes.onPins, fun x => ⟨(h.due x).converter, (h.due x).plan, (h.due x).silent⟩⟩

/-- A change of the SUP that leaves the supply state, and the converter within it. -/
theorem Begun.onSup {f : Sup → Sup} (h : Begun s t) (hs : (f t.sup).supply = t.sup.supply := by exact rfl)
    (hc : Within t.sup.supply t.sup.converter → Within t.sup.supply (f t.sup).converter := by exact fun x => x) :
    Begun s (t.onSup f) :=
  ⟨h.passes.onSup, fun x =>
    ⟨by rw [State.onSup_sup, hs]; exact hc (h.due x).converter, by rw [State.onSup_sup, hs]; exact (h.due x).plan,
      (h.due x).silent⟩⟩

theorem Begun.settle (h : Begun s t) : Ended s (t.settle s) :=
  ⟨h.passes.settle, fun x => ringsWithin_settle (h.due x)⟩

/-- The outcome is a next state, which follows from `s` as every command's does. -/
def Leads (s : State) (o : Host.Outcome State Fault Refusal) : Prop := ∀ t, o = .next t → Ended s t

theorem leads_next (h : Ended s t) : Leads s (.next t) := fun _ e => by
  cases e
  exact h

theorem leads_begun (h : Begun s t) : Leads s (finish s t) := leads_next h.settle

theorem leads_finish (h : Moves s t) : Leads s (finish s t) := leads_begun h.begun

/-- A command that takes the request at the head of the receive buffer. -/
theorem leads_serve {pick : Delivered → Bool} {f : Delivered → State → State}
    (hf : ∀ d t, Moves s t → Moves s (f d t)) : Leads s (finish s (s.serve pick f)) :=
  leads_finish ((Moves.refl s).serve hf)

/-- A command that is only the expiry of a timer. -/
theorem leads_onExpiry {d : Timer} {f : State → State} (hf : ∀ t, Moves s t → Moves s (f t)) :
    Leads s (finish s (s.onExpiry d f)) :=
  leads_finish ((Moves.refl s).onExpiry hf)

/-- A command that acts when its condition holds, and changes nothing otherwise. -/
theorem leads_ite {c : Prop} [Decidable c] (h : Moves s t) : Leads s (finish s (if c then t else s)) :=
  leads_finish (Moves.ite h (Moves.refl s))

/-- The expiry of a timer whose effect is more than a move. -/
theorem begun_onExpiry {d : Timer} {f : State → State} (hf : ∀ t, Moves s t → Begun s (f t)) :
    Begun s (s.onExpiry d f) := by
  cases d with
  | none => exact Begun.refl s
  | some d => exact hf _ (Moves.refl s).reach

/-! ### The commands -/

/-- R32, R39: the supply state stands, or it is taken with the loads shed, and the rest of the part follows. -/
theorem deriveSupply_cases (s : State) : s.deriveSupply = s ∨
    (supplyOf s.sup.mainsOk s.sup.battLow ≠ s.sup.supply ∧ Moves (s.onSup fun p =>
      { p with
        supply := supplyOf s.sup.mainsOk s.sup.battLow
        converter := p.converter.shed (supplyOf s.sup.mainsOk s.sup.battLow) }) s.deriveSupply) := by
  unfold State.deriveSupply
  dsimp only
  split
  · exact .inl rfl
  · rename_i changed
    have followed (t : State) (x y : SupplyState) : Moves t ((t.supplyFaults x y).supplyHolder y) :=
      Moves.ite (Moves.refl t).supplyFaults.addHolder (Moves.refl t).supplyFaults.removeHolder
    exact .inr ⟨changed, Moves.ite (followed _ _ _).enterDown (followed _ _ _)⟩

/-- A change of supply state calls for a plan (R126). -/
theorem Begun.deriveSupply (h : Begun s t) (same : t.sup.supply = s.sup.supply) : Begun s t.deriveSupply := by
  rcases deriveSupply_cases t with stands | ⟨changed, moves⟩
  · rw [stands]
    exact h
  · refine Begun.moves ⟨h.passes.onSup, fun r => ⟨shed_within _ _, fun e => ?_, (h.due r).silent⟩⟩ moves
    exact absurd (e.trans same.symm) changed

theorem Begun.beginReady (h : Moves s t) : Begun s t.beginReady := by
  have ready : Begun s (t.onCfl fun c => { c with state := .ready, listenTimer := none }) :=
    ⟨h.passes.onCfl rfl rfl rfl, fun r => ⟨(h.begun.due r).converter, (h.begun.due r).plan, (h.begun.due r).silent⟩⟩
  exact ready.moves
    ((Moves.refl _).handRoutine.lineStatus.onYbi ⟨id, rfl, id, id⟩).beginCheck.beginCheck.senseVoltage.senseRinging

theorem Begun.takeCurrent (p : Port) (n : Nat) (s : State) : Begun s (s.takeCurrent p n) := by
  have set : Begun s (s.onPins (Pins.setCurrent p n)) := (Begun.refl s).onPins
  unfold State.takeCurrent
  dsimp only
  split
  · exact set.moves (Moves.refl _).watchCurrent
  · exact set

theorem Moves.idlePoint {s0 : State} (h : Moves s0 s) : Moves s0 s.idlePoint := h.onYbi ⟨id, rfl, id, id⟩

/-- A frame that has been heard, with what follows its idle point. -/
theorem Ended.hear (f : List Byte × Bool) (s : State) : Ended s (s.hear f) := by
  have h := Moves.refl s
  exact (Moves.ite h (Moves.ite h.idlePoint h.idlePoint.judge)).begun.settle

theorem Ended.hears (l : List (List Byte × Bool)) (s : State) : Ended s (l.foldl State.hear s) := by
  induction l generalizing s with
  | nil => exact Ended.refl s
  | cons f l ih => exact (Ended.hear f s).trans (ih _)

/-- The late on-hook of a port is an event of its own (log entry 40). -/
theorem Ended.lateOnHook (p : Port) (s : State) : Ended s (s.lateOnHook p) := by
  unfold State.lateOnHook
  split
  · exact (Moves.refl s).takeOnHook.begun.settle
  · exact Ended.refl s

theorem leads_frameReceived (low : Nat) (wire : List WireRun) :
    Leads s (execFrameReceived low wire s) := by
  have h := Moves.refl s
  unfold execFrameReceived
  split
  · exact leads_finish h
  · exact leads_next (Ended.hears _ s)
  · exact leads_next (Ended.hears _ s)

theorem leads_frameSent : Leads s (execFrameSent s) := by
  have h := Moves.refl s
  refine leads_finish ?_
  split
  · exact h.headLeaves.markReported.afterLeaving
  · exact h

theorem leads_collision : Leads s (execCollision s) := by
  have h := Moves.refl s
  refine leads_finish ?_
  split
  · exact Moves.ite h.headLeaves.enterListenOnly.raise h.headLeaves.afterLeaving
  · exact h

theorem leads_take : Leads s (execTake s) := by
  have h := Moves.refl s
  refine leads_finish ?_
  split
  · exact h.takeUp
  · exact h

theorem leads_overheardGrant : Leads s (execOverheardGrant s) := by
  have h := Moves.refl s
  refine leads_finish ?_
  split
  · split
    · exact h.hearGrant
    · exact h
  · exact h

theorem leads_overheardTake : Leads s (execOverheardTake s) := by
  have h := Moves.refl s
  refine leads_finish ?_
  split
  · exact h.hearTake
  · exact h

theorem leads_pendingAnyExpiry (n : Nat) : Leads s (execPendingAnyExpiry n s) := by
  have h := Moves.refl s
  refine leads_finish ?_
  split
  · exact h.reach.anyExpires
  · exact h

theorem leads_test : Leads s (execTest s) := by
  have h := Moves.refl s
  refine leads_serve fun d s h => ?_
  split
  · exact h.testRequest
  · exact h

theorem leads_counterRead : Leads s (execCounterRead s) := by
  have h := Moves.refl s
  refine leads_serve fun d s h => ?_
  split
  · exact h.readCounter
  · exact h

theorem leads_counterReadClear : Leads s (execCounterReadClear s) := by
  have h := Moves.refl s
  refine leads_serve fun d s h => ?_
  split
  · exact h.clearCounter
  · exact h

theorem leads_counterSet : Leads s (execCounterSet s) := by
  have h := Moves.refl s
  refine leads_serve fun d s h => ?_
  split
  · exact h.setCounter
  · exact h

theorem leads_counterDelegate : Leads s (execCounterDelegate s) := by
  have h := Moves.refl s
  refine leads_serve fun d s h => h.asManager ?_
  split
  · exact h.delegateCounter
  · exact h

theorem leads_railSettleEnd : Leads s (execRailSettleEnd s) := by
  have h := Moves.refl s
  refine leads_begun ?_
  split
  · exact h.reach.begun.onSup
  · exact h.begun

theorem leads_overheadTimerExpiry : Leads s (execOverheadTimerExpiry s) := by
  have h := Moves.refl s
  refine leads_finish ?_
  split
  · exact h.reach.overheadExpires
  · exact h

theorem leads_predictionMiss : Leads s (execPredictionMiss s) := by
  have h := Moves.refl s
  refine leads_finish ?_
  split
  · exact h.onSync.missPrediction
  · exact h

theorem leads_outpulseTimerExpiry : Leads s (execOutpulseTimerExpiry s) := by
  have h := Moves.refl s
  refine leads_finish ?_
  split
  · exact h.reach.advanceOutpulse
  · exact h

theorem leads_automaticCheckStart : Leads s (execAutomaticCheckStart s) := by
  have h := Moves.refl s
  refine leads_finish ?_
  split
  · exact Moves.ite h.startSurvey.beginVoltage h
  · exact h

theorem leads_itemTimerExpiry (r : LoopReadings) : Leads s (execItemTimerExpiry r s) := by
  have h := Moves.refl s
  refine leads_finish ?_
  split
  · exact h.onExpiry fun _ => Moves.completeItem
  · exact h

theorem accept_fits {f : List Byte} {p : Plp} (h : p.fits = true) : (p.accept f).fits = true := by
  unfold Plp.accept
  split
  · rename_i ready
    rw [plp_fits_iff] at h ⊢
    have room := h.2 ready
    exact ⟨by simpa using room, fun free => by simpa [Config.payloadCapacity] using of_decide_eq_true free⟩
  · exact h

/-- R64: a frame leaves for the link. -/
theorem frameSent_fits {p : Plp} (h : p.fits = true) :
    Plp.fits (match p.queue with
      | [] => p
      | _ :: rest => { p with queue := rest, ready := decide (rest.length < Config.payloadCapacity) }) = true := by
  split
  · exact h
  · rename_i f rest e
    rw [plp_fits_iff, e] at h
    rw [plp_fits_iff]
    exact ⟨(Nat.le_succ _).trans h.1, fun free => of_decide_eq_true free⟩

theorem leads_portLoopClosed (p : Port) (s : State) : Leads s (execPortLoopClosed p s) := by
  have h := Moves.refl (s.lateOnHook p)
  exact leads_next ((Ended.lateOnHook p s).trans (Moves.ite h.loopClosed h).begun.settle)

/-- R127: a phase of a cadence goes on, and no episode begins or ends. -/
theorem Begun.nextPhase {f : Episode → Episode} (h : Moves s t) :
    Begun s (t.onVsw fun v => { v with episodes := v.episodes.map f }) :=
  ⟨h.passes.onVsw, fun r => ⟨(h.begun.due r).converter, (h.begun.due r).plan, fun none =>
    (h.begun.due r).silent (List.map_eq_nil_iff.mp none)⟩⟩

/-- Every command, whatever its operands. -/
theorem leads_exec (i : Instr) (s : State) (reset : ∀ straps mainsOk battLow, i ≠ .deviceReset straps mainsOk battLow)
    (config : ∀ memory, i ≠ .configReadDone memory) : Leads s (exec i s) := by
  have h := Moves.refl s
  have h := Moves.refl s
  cases i with
  | deviceReset straps mainsOk battLow => exact absurd rfl (reset _ _ _)
  | configReadDone memory => exact absurd rfl (config _)
  | listenTimerExpiry => exact leads_begun (begun_onExpiry fun _ => Begun.beginReady)
  | frameReceived low wire => exact leads_frameReceived low wire
  | ownSlotBegins cls => exact leads_ite h.ownSlot
  | frameSent => exact leads_frameSent
  | collision => exact leads_collision
  | yieldEnd => exact leads_ite (h.onYbi ⟨id, rfl, id, id⟩)
  | backlogTimerExpiry => exact leads_onExpiry fun _ hs => (hs.onYbi ⟨id, rfl, id, id⟩).makeInactive
  | presenceTimerExpiry => exact leads_onExpiry fun _ hs => (hs.onYbi ⟨id, rfl, id, id⟩).handRoutine
  | presenceAgeing => exact leads_onExpiry fun _ hs => hs.onYbi ⟨fun y => by
      rw [ybi_fits_iff] at y ⊢
      simpa using y, rfl, id, id⟩
  | stationAbsent station => exact leads_ite h.goAbsent
  | hookOn => exact leads_serve fun _ _ => Moves.hookOn
  | hookFlash => exact leads_serve fun _ _ => Moves.hookFlash
  | claimOutside => exact leads_serve fun _ _ hs => hs.withTag hs.decideOutside
  | claimOutsideAny => exact leads_serve fun _ _ => Moves.claimAny
  | claimAnswer => exact leads_serve fun _ _ hs => hs.withTag hs.decideAnswer
  | claimIntercom => exact leads_serve fun _ _ hs => hs.withTag hs.claimIntercom
  | claimJoin => exact leads_serve fun _ _ hs => hs.withTag hs.decideJoin
  | take => exact leads_take
  | hold => exact leads_serve fun _ _ => Moves.takeHold
  | retrieve => exact leads_serve fun _ _ hs => hs.withTag hs.decideRetrieve
  | release => exact leads_serve fun _ _ => Moves.takeRelease
  | overheardGrant => exact leads_overheardGrant
  | overheardTake => exact leads_overheardTake
  | grantDeadlineExpiry station => exact leads_onExpiry fun _ => Moves.withdraw
  | pendingAnyExpiry station => exact leads_pendingAnyExpiry station
  | intercomRingExpiry callId => exact leads_onExpiry fun _ => Moves.removeCall
  | holdAgeRecall callId => exact leads_onExpiry fun _ => Moves.recallDue
  | recallRetryExpiry callId => exact leads_onExpiry fun _ => Moves.recallAgain
  | holdAgeRelease callId => exact leads_onExpiry fun _ => Moves.toClearing
  | clearingGuardExpiry callId => exact leads_onExpiry fun _ => Moves.removeCall
  | queryLink => exact leads_serve fun _ _ => Moves.report
  | queryLoopRecord => exact leads_serve fun _ _ => Moves.queryLoop
  | queryFaultSummary => exact leads_serve fun _ _ => Moves.querySummary
  | queryFaultAll => exact leads_serve fun _ _ => Moves.queryFaults
  | queryFaultActive => exact leads_serve fun _ _ => Moves.queryFaults
  | queryPresenceTable => exact leads_serve fun _ _ => Moves.queryPresence
  | queryConfiguration => exact leads_serve fun _ _ => Moves.queryConfiguration
  | test => exact leads_test
  | linkControlHold => exact leads_serve fun _ _ hs => hs.asManager hs.controlHold
  | linkControlRelease => exact leads_serve fun _ _ hs => hs.asManager hs.done.removeHolder
  | linkControlRetrain => exact leads_serve fun _ _ hs => hs.asManager hs.controlRetrain
  | clearRetry => exact leads_serve fun _ _ hs => hs.asManager hs.clearRetry
  | clearFaults => exact leads_serve fun _ _ hs => hs.asManager (hs.onFlt cleared_fits).done
  | counterRead => exact leads_counterRead
  | counterReadClear => exact leads_counterReadClear
  | counterSet => exact leads_counterSet
  | counterDelegate => exact leads_counterDelegate
  | mainsOkChange level => exact leads_begun h.begun.onPins.onSup
  | mainsOkDebounced =>
    exact leads_begun (begun_onExpiry fun _ hs => hs.begun.onSup.deriveSupply (congrArg Prod.fst hs.keeps.ring))
  | battLowChange asserted => exact leads_begun h.begun.onPins.onSup
  | battLowDebounced =>
    exact leads_begun (begun_onExpiry fun _ hs => hs.begun.onSup.deriveSupply (congrArg Prod.fst hs.keeps.ring))
  | railSettleEnd => exact leads_railSettleEnd
  | converterSettleEnd =>
    exact leads_begun (begun_onExpiry fun _ hs => hs.begun.onSup rfl settled_within)
  | converterIdleExpiry =>
    exact leads_begun (begun_onExpiry fun _ hs => hs.begun.onSup rfl fun w => ⟨loadsFit_nil _, w.2⟩)
  | handshakeStart => exact leads_ite h.onLle.sayFar
  | farEndAnswer => exact leads_ite h.onLle
  | handshakeTimeout => exact leads_onExpiry fun _ => Moves.trainingFailure
  | probeEnd snr => exact leads_onExpiry fun _ => Moves.endProbe
  | probeSignalLoss => exact leads_ite h.trainingFailure
  | farTablesReceived normal guard => exact leads_ite h.takeTables
  | loadTimeout => exact leads_onExpiry fun _ => Moves.trainingFailure
  | backoffExpiry => exact leads_onExpiry fun _ => Moves.enterDown
  | lockoutExpiry => exact leads_onExpiry fun _ => Moves.lockoutEnds
  | overheadAgree number => exact leads_finish (h.takeAnswer fun _ _ => Moves.agreed)
  | overheadDecline number => exact leads_finish (h.takeAnswer fun _ _ => Moves.declined)
  | overheadTimerExpiry => exact leads_overheadTimerExpiry
  | farEndSwap number table group bits => exact leads_finish (h.takeFar h.farSwap)
  | farEndSwitch number table => exact leads_finish (h.takeFar h.onLle.answerFar)
  | farEndRetrain number => exact leads_finish (h.takeFar h.enterDown)
  | payloadFrameOffered payload => exact leads_ite (h.onPlp accept_fits)
  | payloadFrameSent => exact leads_ite (h.onPlp frameSent_fits)
  | refreshTimerExpiry measured => exact leads_onExpiry fun _ => Moves.refreshDue
  | catchUpExpiry measured => exact leads_onExpiry fun _ hs => hs.onSync.refresh
  | guardExit => exact leads_onExpiry fun _ hs => hs.onSync.alignTable
  | switchRetryExpiry => exact leads_onExpiry fun _ hs => hs.onSync.alignTable
  | impulseEvent start length => exact leads_ite h.takeImpulse
  | predictionMiss => exact leads_predictionMiss
  | correctedCodeword => exact leads_finish (h.codeword fun _ l => l)
  | uncorrectedCodeword => exact leads_finish (h.codeword fun _ l => l)
  | secondTimerExpiry => exact leads_onExpiry fun _ hs => hs.onSync.endSecond
  | signalAbsent => exact leads_ite h.onSync
  | signalPresent => exact leads_ite h.onSync
  | lossOfSignalExpiry => exact leads_onExpiry fun _ hs => hs.drop.onLth
  | marginWatchExpiry => exact leads_onExpiry fun _ => Moves.marginWatchEnds
  | portLoopClosed port => exact leads_portLoopClosed port s
  | portLoopOpened port => exact leads_ite h.onPort
  | portOnHook port => exact leads_ite (h.onExpiry fun _ => Moves.takeOnHook (p := port))
  | digitPauseExpiry port => exact leads_onExpiry fun _ => Moves.endPulses
  | dtmfDigit port key => exact leads_finish h.takeDigit
  | firstDigitWindowExpiry port => exact leads_onExpiry fun _ => Moves.firstWindowEnds
  | interDigitExpiry port => exact leads_onExpiry fun _ hs => hs.setPort .dialtone
  | postFlashWindowExpiry port => exact leads_onExpiry fun _ => Moves.postFlashEnds
  | offHookTimerExpiry port => exact leads_onExpiry fun _ => Moves.enterHowler
  | howlerTimerExpiry port => exact leads_onExpiry fun _ hs => (hs.setPort .lockedOff).raise
  | noLoadTimerExpiry port => exact leads_onExpiry fun _ => Moves.beginCheck
  | noLoadCheckDone port ringerFound => exact leads_onExpiry fun _ => Moves.endCheck
  | loopCurrentChange port milliamp => exact leads_begun (Begun.takeCurrent _ _ s)
  | lowCurrentExpiry port => exact leads_onExpiry fun _ hs => hs.onPort.raise
  | lineVoltageChange millivolt => exact leads_begun (h.begun.onPins.moves (Moves.refl _).senseVoltage)
  | offHookBandHeld => exact leads_onExpiry fun _ => Moves.endRinging
  | onHookBandHeld => exact leads_onExpiry fun _ => Moves.setLine
  | noFeedExpiry => exact leads_onExpiry fun _ hs => hs.onVsw.raise.handOverLine
  | feedRestored => exact leads_onExpiry fun _ => Moves.feedStands
  | ringingVoltageChange present => exact leads_begun (h.begun.onPins.moves (Moves.refl _).senseRinging)
  | ringBurstDetected => exact leads_ite (h.onExpiry fun _ => Moves.takeBurst)
  | ringBurstEnd => exact leads_onExpiry fun _ hs => hs.onVsw.senseRinging
  | ringEndTimeout => exact leads_onExpiry fun _ => Moves.endRinging
  | releaseGuardExpiry => exact leads_onExpiry fun _ => Moves.setLine
  | outpulseTimerExpiry => exact leads_outpulseTimerExpiry
  | cadencePhaseExpiry callId => exact leads_begun (begun_onExpiry fun _ => Begun.nextPhase)
  | testRingDetected => exact leads_ite (h.onExpiry fun _ hs => hs.onVsw.abortSurvey)
  | surveyPhaseStart => exact leads_ite h.beginPhase
  | automaticCheckStart => exact leads_automaticCheckStart
  | itemTimerExpiry readings => exact leads_itemTimerExpiry readings
  | restoreTimerExpiry => exact leads_onExpiry fun _ => Moves.restored
  | waitTimerExpiry => exact leads_onExpiry fun _ hs => hs.onRunning.continueSurvey 2
  | holdOffExpiry => exact leads_onExpiry fun _ hs => hs.onLth
  | periodicCheckExpiry => exact leads_onExpiry fun _ hs => hs.onLth
  | recheckTimerExpiry => exact leads_onExpiry fun _ hs => hs.onLth
  | lampFlashToggle => exact leads_onExpiry fun _ hs => hs.onFlt fun x => x
  | anotherStationStartBit => exact leads_ite (h.onYbi ⟨id, rfl, id, id⟩)


/-! ### DEVICE_RESET and CONFIG_READ_DONE -/

theorem reset_fits : State.reset.fits = true := by decide

theorem afterReset_fits (straps : Nat) (mainsOk battLow : Bool) (s : State) :
    (s.afterReset straps mainsOk battLow).fits = true := by
  rw [← reset_fits]
  rfl

theorem afterReset_mute (straps : Nat) (mainsOk battLow : Bool) (s : State) :
    Mute (s.afterReset straps mainsOk battLow).ybi :=
  fun _ => ⟨rfl, rfl, rfl, rfl⟩

/-- After a reset nothing rings, whatever the supply state. -/
theorem afterReset_due (straps : Nat) (mainsOk battLow : Bool) (x : SupplyState) (s : State) :
    RingsDue x (s.afterReset straps mainsOk battLow).deriveSupply := by
  have onHook : PortState.onHook ≠ .ringing := by decide
  have silent (y : SupplyState) (c : Converter) (hc : Within y c) :
      RingsDue x ((s.afterReset straps mainsOk battLow).onSup fun p => { p with supply := y, converter := c }) :=
    ⟨hc, fun _ => loadsFit_nil y, fun _ => ⟨rfl, onHook, onHook⟩⟩
  rcases deriveSupply_cases (s.afterReset straps mainsOk battLow) with stands | ⟨-, moves⟩
  · rw [stands]
    exact silent .mains Converter.reset ⟨loadsFit_nil _, loadsFit_nil _⟩
  · exact (silent _ _ (shed_within _ _)).moves moves

theorem managementPlace_le (l : List Nat) (x : Nat) : managementPlace l x ≤ 24 := by
  unfold managementPlace
  split
  · exact Nat.zero_le _
  · omega

/-- R27: as many places as addresses, each within 0..24. -/
theorem managementPlaces_spec (l : List Nat) :
    (managementPlaces l).length = l.length ∧ ∀ n ∈ managementPlaces l, n ≤ 24 := by
  have key (acc : List Nat) (h : ∀ n ∈ acc, n ≤ 24) :
      (l.foldl (fun acc x => acc ++ [managementPlace acc x]) acc).length = acc.length + l.length ∧
        ∀ n ∈ l.foldl (fun acc x => acc ++ [managementPlace acc x]) acc, n ≤ 24 := by
    induction l generalizing acc with
    | nil => exact ⟨rfl, h⟩
    | cons x l ih =>
      obtain ⟨length, le⟩ := ih (acc ++ [managementPlace acc x]) fun n hn => by
        rcases List.mem_append.mp hn with old | new
        · exact h n old
        · rw [List.mem_singleton.mp new]
          exact managementPlace_le acc x
      exact ⟨by simp only [List.foldl_cons, length, List.length_append, List.length_cons, List.length_nil]; omega, le⟩
  simpa [managementPlaces] using key [] (fun _ h => nomatch h)

theorem inRange_default : ConfigRecord.default.inRange = true := by decide

/-- R27: a record that is read from a memory is in range, whatever the memory. -/
theorem inRange_clampRecord (m : List Byte) : (clampRecord m).inRange = true := by
  have places := managementPlaces_spec [(m.getD 21 0).toNat, (m.getD 22 0).toNat, (m.getD 23 0).toNat, (m.getD 24 0).toNat]
  rw [ConfigRecord.inRange, Bool.and_eq_true, Bool.and_eq_true]
  refine ⟨⟨?_, decide_eq_true places.1⟩, List.all_eq_true.mpr fun n hn => decide_eq_true (places.2 n hn)⟩
  simp only [Bool.and_eq_true, decide_eq_true_eq]
  simp only [clampRecord, clampNat]
  omega

/-- R28: the default events change no value, and leave counters 0 and 1. -/
theorem takeEvents_fits {l : List Nat} {b : Ctb} (h : b.fits = true) : (b.takeEvents l).fits = true := by
  have counter (k : Nat) : (b.takeEvents l).counters[k]? = b.counters[k]?.map fun c =>
      if k < 2 then c else { c with selection := l.getD (k - 2) c.selection } := by
    simp [Ctb.takeEvents, List.getElem?_map, List.getElem?_zipIdx, Function.comp_def]
  simp only [Ctb.fits, Bool.and_eq_true, decide_eq_true_eq, List.all_eq_true] at h ⊢
  obtain ⟨⟨⟨eight, top⟩, first⟩, second⟩ := h
  refine ⟨⟨⟨by simpa [Ctb.takeEvents] using eight, fun c hc => ?_⟩, ?_⟩, ?_⟩
  · obtain ⟨k, hk⟩ := List.mem_iff_getElem?.mp hc
    rw [counter] at hk
    obtain ⟨d, hd, rfl⟩ := Option.map_eq_some_iff.mp hk
    have value := top d (List.mem_of_getElem? hd)
    split <;> exact value
  · rw [counter, Option.map_map, ← first]
    rfl
  · rw [counter, Option.map_map, ← second]
    rfl

/-- R26, R27: the record that CONFIG_READ_DONE puts in force. -/
def loadedRecord (memory : Option (List Byte)) : ConfigRecord :=
  match usableMemory memory with
  | some m => clampRecord m
  | none => ConfigRecord.default

theorem inRange_loadedRecord (memory : Option (List Byte)) : (loadedRecord memory).inRange = true := by
  unfold loadedRecord
  split
  · exact inRange_clampRecord _
  · exact inRange_default

/-- R26: the CFL with the record in force. -/
def loadedCfl (memory : Option (List Byte)) (now : Nat) (c : Cfl) : Cfl :=
  { c with
    state := .listen, record := loadedRecord memory, defaulted := (usableMemory memory).isNone
    listenTimer := some (now + Config.listenMs) }

/-- R25, R26: the faults of a start-up, in their order. -/
def startFaults (missing : Bool) (s : State) : State :=
  let s := if s.ybi.ownAddress = 0 ∨ 24 < s.ybi.ownAddress then s.raise .busAddressInvalid .bus else s
  if missing then s.raise .configDefaulted .config else s

/-- R28: what the record in force sets. -/
def handOver (r : ConfigRecord) (s : State) : State :=
  let s := s.onLle fun l => { l with d := r.dInit }
  let s := s.onCtb (Ctb.takeEvents r.counterEvents)
  if r.startHeld then s.addHolder .management else s

theorem endLoading_eq (memory : Option (List Byte)) (s : State) :
    s.endLoading memory = handOver (loadedRecord memory)
      (startFaults (usableMemory memory).isNone (s.onCfl (loadedCfl memory s.now))) := rfl

/-- R26 to R28: all that follows the record is a move. -/
theorem endLoading_moves (memory : Option (List Byte)) (s : State) :
    Moves (s.onCfl (loadedCfl memory s.now)) (s.endLoading memory) := by
  have h := Moves.refl (s.onCfl (loadedCfl memory s.now))
  have faults {b : Bool} : Moves (s.onCfl (loadedCfl memory s.now))
      (startFaults b (s.onCfl (loadedCfl memory s.now))) :=
    Moves.ite (Moves.ite h.raise h).raise (Moves.ite h.raise h)
  have taken {r : ConfigRecord} {t : State} (ht : Moves (s.onCfl (loadedCfl memory s.now)) t) :
      Moves (s.onCfl (loadedCfl memory s.now))
        ((t.onLle fun l => { l with d := r.dInit }).onCtb (Ctb.takeEvents r.counterEvents)) :=
    ht.onLle.onCtb takeEvents_fits
  rw [endLoading_eq]
  exact Moves.ite (taken faults).addHolder (taken faults)

/-! ### Every command -/

/-- What every command leaves, whatever its operands. -/
structure Obeys (i : Instr) (s t : State) : Prop where
  pending : t.pending = s.pending
  fits : s.fits = true → t.fits = true
  rings : s.ringsWithin = true → t.ringsWithin = true
  mute : Mute s.ybi → Mute t.ybi
  stands : (∀ straps mainsOk battLow, i ≠ .deviceReset straps mainsOk battLow) →
    t.ybi.ownAddress = s.ybi.ownAddress ∧ t.cfl.rank = s.cfl.rank ∧
      (s.ybi.listenOnly = true → t.ybi.listenOnly = true) ∧
        ((∀ memory, i ≠ .configReadDone memory) →
          t.cfl.record = s.cfl.record ∧ t.cfl.defaulted = s.cfl.defaulted)

theorem Ended.obeys {i : Instr} (h : Ended s t) : Obeys i s t :=
  ⟨h.passes.pending, h.passes.fits, h.rings, h.passes.mute, fun _ =>
    ⟨h.passes.address, h.passes.rank, h.passes.listening, fun _ => ⟨h.passes.record, h.passes.defaulted⟩⟩⟩

theorem obeys_deviceReset (straps : Fin 32) (mainsOk battLow : Bool) (s : State) :
    Obeys (.deviceReset straps mainsOk battLow) s ((s.afterReset straps.val mainsOk battLow).deriveSupply.settle s) := by
  have passes := ((Begun.refl (s.afterReset straps.val mainsOk battLow)).deriveSupply rfl).passes.settle (before := s)
  exact ⟨passes.pending, fun _ => passes.fits (afterReset_fits _ _ _ s),
    fun _ => ringsWithin_settle (afterReset_due _ _ _ _ s), fun _ => passes.mute (afterReset_mute _ _ _ s),
    fun reset => absurd rfl (reset _ _ _)⟩

theorem obeys_configReadDone (memory : Option (List Byte)) (s : State) :
    Obeys (.configReadDone memory) s (State.settle (if s.cfl.state = .loading then s.endLoading memory else s) s) := by
  split
  · have moves := endLoading_moves memory s
    have passes := moves.passes.settle (before := s)
    refine ⟨passes.pending, fun fits => passes.fits ?_, fun rings => ringsWithin_settle (RingsDue.moves ?_ moves),
      passes.mute, fun _ => ⟨passes.address, passes.rank, passes.listening, fun config => absurd rfl (config _)⟩⟩
    · simp only [State.fits, Bool.and_eq_true] at fits ⊢
      obtain ⟨⟨⟨⟨⟨⟨⟨-, ybi⟩, lle⟩, plp⟩, vsw⟩, cct⟩, flt⟩, ctb⟩ := fits
      exact ⟨⟨⟨⟨⟨⟨⟨inRange_loadedRecord memory, ybi⟩, lle⟩, plp⟩, vsw⟩, cct⟩, flt⟩, ctb⟩
    · have due := (ringsWithin_iff s).mp rings
      exact ⟨due.converter, due.plan, due.silent⟩
  · exact (Begun.refl s).settle.obeys

theorem obeys_exec (i : Instr) (s t : State) (next : exec i s = .next t) : Obeys i s t := by
  by_cases reset : ∀ straps mainsOk battLow, i ≠ .deviceReset straps mainsOk battLow
  · by_cases config : ∀ memory, i ≠ .configReadDone memory
    · exact (leads_exec i s reset config t next).obeys
    · obtain ⟨memory, rfl⟩ := not_forall_not.mp config
      cases next
      exact obeys_configReadDone memory s
  · obtain ⟨straps, rest⟩ := not_forall.mp reset
    obtain ⟨mainsOk, rest⟩ := not_forall.mp rest
    obtain ⟨battLow, rfl⟩ := not_forall_not.mp rest
    cases next
    exact obeys_deviceReset straps mainsOk battLow s

/-- A step is a command on the state with the queue's rest, or the passing of a millisecond. -/
theorem step_cases (next : step s = .next t) :
    (∃ i rest, s.pending = i :: rest ∧ exec i { s with pending := rest } = .next t) ∨
      (s.pending = [] ∧ t = s.reach (s.now + 1)) := by
  unfold step at next
  split at next
  · exact .inl ⟨_, _, ‹_›, next⟩
  · cases next
    exact .inr ⟨‹_›, rfl⟩

/-- Settles O5: every command leaves the capacities, and so does the clock. -/
theorem everyStepKeepsTheCapacities : Obligations.EveryStepKeepsTheCapacities := by
  intro s t fits next
  rcases step_cases next with ⟨i, rest, -, run⟩ | ⟨-, rfl⟩
  · exact (obeys_exec i _ t run).fits fits
  · exact (Moves.refl s).reach.keeps.fits fits

/-- Settles O6: the plan that R126 computes fits, and between plans nothing is driven that does not. -/
theorem everyStepKeepsRingingWithinCapacity : Obligations.EveryStepKeepsRingingWithinCapacity := by
  intro s t rings next
  rcases step_cases next with ⟨i, rest, -, run⟩ | ⟨-, rfl⟩
  · exact (obeys_exec i _ t run).rings rings
  · exact (Moves.refl s).reach.ringsWithin rings

/-- Settles O3: what a command moves, the queue of commands is not among it. -/
theorem commandsLeaveTheQueue : Obligations.CommandsLeaveTheQueue := fun c s t next => (obeys_exec c s t next).pending

/-- Settles O7, by the commands that set each of them. -/
theorem recordAndAddressStand : Obligations.RecordAndAddressStand := by
  intro c s t next reset
  obtain ⟨address, rank, -, record⟩ := (obeys_exec c s t next).stands reset
  exact ⟨address, rank, record⟩

/-- Settles O8: the queues and the stream take nothing in listen-only. -/
theorem listenOnlyStaysMute : Obligations.ListenOnlyStaysMute := by
  intro c s t next mute
  have obeys := obeys_exec c s t next
  refine ⟨obeys.mute mute, fun listening reset => ?_⟩
  obtain ⟨-, -, stays, -⟩ := obeys.stands reset
  exact stays listening

end Sys2Proof.Proofs.Steps
end

section
/-! The step of the machine and its reset (O1, O2, O4), and the rules of chapters 4 and 7 that hold of the operations
themselves (O53, O55, O57). -/

set_option Elab.async false

namespace Sys2Proof.Proofs.Rules

open Sys2Proof Sys2Proof.Machine Sys2Proof.Proofs.Steps

variable {s t : State}

/-! ### The step and the reset -/

/-- Settles O1, by the front of the queue. -/
theorem stepRunsFrontCommand : Obligations.StepRunsFrontCommand := by
  intro c rest s front
  unfold step
  rw [front]

theorem step_of_empty (h : s.pending = []) : step s = .next (s.reach (s.now + 1)) := by
  unfold step
  rw [h]

/-- Time that goes on: the clock, and in SHOWTIME the symbol count. -/
theorem reach_of_lt {d : Nat} (h : s.now < d) : s.reach d =
    { s with now := d, lle := if s.lle.link = .showtime then
        { s.lle with sync := { s.lle.sync with
          symbolCount := max s.lle.sync.symbolCount (Config.symbolsPerMs * (d - s.lle.sync.began)) } } else s.lle } :=
  if_neg (Nat.not_le.mpr h)

/-- Settles O2, by the link being in SHOWTIME or not. -/
theorem emptyQueuePassesAMillisecond : Obligations.EmptyQueuePassesAMillisecond := by
  intro s empty
  refine ⟨_, step_of_empty empty, ?_⟩
  rw [reach_of_lt (Nat.lt_succ_self s.now)]
  by_cases link : s.lle.link = .showtime
  · simp only [link, ↓reduceIte, ne_eq, not_true_eq_false, false_implies, true_and, forall_const]
    exact Nat.le_max_right _ _
  · simp [link]

/-- Settles O4, by evaluation of the reset state. -/
theorem resetState : Obligations.ResetState := by
  unfold Obligations.ResetState
  decide +kernel

/-! ### The smoothing of the recorded SNR (R66) -/

/-- The recorded SNR and the GUARD bits stand. -/
def SameValues (s t : State) : Prop := t.lle.snr = s.lle.snr ∧ t.lle.guard = s.lle.guard

theorem SameValues.refl (s : State) : SameValues s s := ⟨rfl, rfl⟩

theorem SameValues.onSync {f : Showtime → Showtime} (h : SameValues s t) : SameValues s (t.onSync f) := h

/-- What a decision on a swap leaves: the values that were measured. -/
theorem SameValues.applySwap {g : Nat} (h : SameValues s t) : SameValues s (t.applySwap g).1 := by
  unfold State.applySwap
  extract_lets bits head rest held
  split
  · split
    · exact h.onSync
    · exact h
  · split
    · exact h
    · exact h.onSync

theorem SameValues.deferVisit (h : SameValues s t) : SameValues s t.defer := by
  unfold State.defer
  split
  · exact h.onSync
  · obtain ⟨q, e, -⟩ := tells_signal .refreshDeferred t
    rw [e]
    exact h

/-- R83, R84: whatever becomes of the decision, the measured values stand after a refresh. -/
theorem refresh_values (regular : Bool) (m : List Int) (s : State) :
    SameValues (s.measureGroup s.lle.sync.pointer m) (s.refresh regular m) := by
  have decided := (SameValues.refl (s.measureGroup s.lle.sync.pointer m)).applySwap (g := s.lle.sync.pointer)
  unfold State.refresh
  extract_lets g r swapped blocked after
  refine SameValues.onSync ?_
  unfold after
  split
  · split
    · exact decided.onSync
    · exact decided.onSync.onSync
  · split
    · exact decided.onSync.deferVisit
    · exact decided.onSync

theorem saturate_le (m : Int) : saturate m ≤ 255 := by
  unfold saturate
  omega

theorem smooth_eq {old : Nat} (h : old ≤ 255) (m : Int) : smooth old m = (3 * old + saturate m + 2) / 4 := by
  have := saturate_le m
  unfold smooth
  omega

/-- Settles O53: the values stand after the measurement, and the rest is arithmetic. -/
theorem recordedSnrIsSmoothed : Obligations.RecordedSnrIsSmoothed := by
  refine ⟨fun regular m s => refresh_values regular m s, fun old m h => ?_⟩
  have le := saturate_le m
  rw [smooth_eq h]
  refine ⟨rfl, ?_, ?_, ?_⟩
  · omega
  · omega
  · unfold saturate
    omega

/-! ### The lift and the depth (R75, R77) -/

/-- The first lift of the list at which a test holds, or the last of all. -/
theorem find_lift (p : Nat → Bool) : ∃ k, k ≤ 16 ∧ (lifts.find? p).getD 64 = 4 * k ∧
    (∀ j, j < k → p (4 * j) = false) ∧ (p ((lifts.find? p).getD 64) = true ∨ (lifts.find? p).getD 64 = 64) := by
  cases found : lifts.find? p with
  | none =>
    have never := List.find?_eq_none.mp found
    exact ⟨16, Nat.le_refl _, rfl, fun j hj => by
      simpa using never (4 * j) (List.mem_map_of_mem (List.mem_range.mpr (by omega))), .inr rfl⟩
  | some e =>
    obtain ⟨pe, i, hi, rfl, before⟩ := List.find?_eq_some_iff_getElem.mp found
    simp only [lifts, List.length_map, List.length_range] at hi
    refine ⟨i, by omega, by simp [lifts], fun j hj => ?_, .inl pe⟩
    simpa [lifts] using before j hj

theorem raiseDepth_le (floor bits d n : Nat) : d ≤ raiseDepth floor bits d n ∧ raiseDepth floor bits d n ≤ d + n := by
  induction n with
  | zero => exact ⟨Nat.le_refl _, Nat.le_refl _⟩
  | succ n ih =>
    unfold raiseDepth
    split <;> omega

/-- R77: a raise goes no further than the floor allows. -/
theorem raiseDepth_floor {floor bits d n : Nat} (raised : raiseDepth floor bits d n ≠ d) :
    floor ≤ netRate bits (raiseDepth floor bits d n) := by
  induction n with
  | zero => exact absurd rfl raised
  | succ n ih =>
    unfold raiseDepth at raised ⊢
    split
    · assumption
    · rename_i low
      rw [if_neg low] at raised
      exact ih raised

/-- R77: and no less far. -/
theorem raiseDepth_largest {floor bits d n x : Nat} (above : raiseDepth floor bits d n < x) (le : x ≤ d + n) :
    netRate bits x < floor := by
  induction n with
  | zero =>
    unfold raiseDepth at above
    omega
  | succ n ih =>
    unfold raiseDepth at above
    split at above
    · omega
    · rename_i low
      rcases Nat.lt_or_ge x (d + (n + 1)) with less | more
      · exact ih above (by omega)
      · have : x = d + (n + 1) := by omega
        subst this
        exact Nat.not_le.mp low

/-- Settles O55, by the first lift that serves and the largest depth that does. -/
theorem liftAndShieldDepth : Obligations.LiftAndShieldDepth := by
  refine ⟨fun r leak d snr => ?_, fun r l need within => ?_⟩
  · obtain ⟨k, le, e, before, last⟩ :=
      find_lift fun e => decide (netRate (bitTotal (tableBits .normal r e leak snr)) d ≤ r.rateCap)
    exact ⟨k, le, e, fun j hj => Nat.not_le.mp (of_decide_eq_false (before j hj)), last.imp_left of_decide_eq_true⟩
  · unfold requestedDepth
    dsimp only
    split
    · rename_i lower
      exact ⟨Nat.min_le_right _ _, fun _ => rfl, fun higher => absurd lower (Nat.not_le.mpr higher)⟩
    · rename_i higher
      split
      · rename_i below
        refine ⟨within, fun lower => absurd lower higher, fun _ => ⟨Nat.le_refl _, by omega, fun h => absurd rfl h, ?_⟩⟩
        exact fun floor => absurd floor (Nat.not_le.mpr below)
      · have bounds := raiseDepth_le r.rateFloor (bitTotal l.inForce) l.d (min need r.dMax - l.d)
        refine ⟨by omega, fun lower => absurd lower higher, fun _ => ⟨bounds.1, by omega, raiseDepth_floor, ?_⟩⟩
        exact fun _ x above le => raiseDepth_largest above (by omega)

/-! ### A free call id (R131) -/

/-- Five ids in a row are all different, wherever they begin. -/
theorem callIds_nodup (n : Nat) :
    [n, nextCallId n, nextCallId (nextCallId n), nextCallId (nextCallId (nextCallId n)),
      nextCallId (nextCallId (nextCallId (nextCallId n)))].Nodup := by
  have next (m : Nat) : (m < 255 ∧ nextCallId m = m + 1) ∨ (255 ≤ m ∧ nextCallId m = 1) := by
    unfold nextCallId
    split <;> omega
  have h1 := next n
  have h2 := next (nextCallId n)
  have h3 := next (nextCallId (nextCallId n))
  have h4 := next (nextCallId (nextCallId (nextCallId n)))
  simp only [List.nodup_cons, List.mem_cons, List.not_mem_nil, or_false, not_or, not_false_eq_true, List.nodup_nil,
    and_true]
  omega

/-- R131: the search gives up an id only for one that is taken, and so does not end on one. -/
theorem freeCallId_taken {used : List Nat} {fuel n : Nat} (h : freeCallId used fuel n ∈ used) :
    n ∈ used ∧ (1 ≤ fuel → freeCallId used (fuel - 1) (nextCallId n) ∈ used) := by
  cases fuel with
  | zero => exact ⟨h, fun h => absurd h (by decide)⟩
  | succ fuel =>
    unfold freeCallId at h
    split at h
    · rename_i taken
      exact ⟨by simpa using taken, fun _ => h⟩
    · rename_i free
      exact absurd (by simpa using h) free

/-- Settles O57: four records leave one of five ids free. -/
theorem newCallIdIsFree : Obligations.NewCallIdIsFree := by
  intro c few taken
  obtain ⟨first, rest⟩ := freeCallId_taken taken
  obtain ⟨second, rest⟩ := freeCallId_taken (rest (by decide))
  obtain ⟨third, rest⟩ := freeCallId_taken (rest (by decide))
  obtain ⟨fourth, rest⟩ := freeCallId_taken (rest (by decide))
  obtain ⟨fifth, -⟩ := freeCallId_taken (rest (by decide))
  have five := (List.subperm_of_subset (callIds_nodup c.nextCallId) (l₂ := c.calls.map (·.id)) (by
    simp only [List.cons_subset, List.nil_subset, and_true]
    exact ⟨first, second, third, fourth, fifth⟩)).length_le
  simp only [List.length_cons, List.length_nil, List.length_map] at five
  omega

end Sys2Proof.Proofs.Rules
end

section
/-! Chapter 9: what a raise does to the fault table. The entries that eviction leaves (R178), the entry of a raise
(R176), and the statement O59. -/

set_option Elab.async false

namespace Sys2Proof.Proofs.Table

open Sys2Proof Sys2Proof.Machine

/-! ### The oldest entry of those chosen -/

/-- The older of the best so far and the next. -/
def older (best : Option FaultEntry) (e : FaultEntry) : Option FaultEntry :=
  match best with
  | none => some e
  | some b => if e.lastChange < b.lastChange then some e else some b

theorem oldestOf_eq (p : FaultEntry → Bool) (l : List FaultEntry) : oldestOf p l = (l.filter p).foldl older none := rfl

theorem oldestOf_none {p : FaultEntry → Bool} {l : List FaultEntry} (h : ∀ x ∈ l, p x = false) :
    oldestOf p l = none := by
  rw [oldestOf_eq, List.filter_eq_nil_iff.mpr fun x hx => by simp [h x hx]]
  rfl

/-- Nothing later takes the place of an entry that is as old. -/
theorem foldl_older_keeps {e : FaultEntry} {l : List FaultEntry} (h : ∀ x ∈ l, e.lastChange ≤ x.lastChange) :
    l.foldl older (some e) = some e := by
  induction l with
  | nil => rfl
  | cons x l ih =>
    have first : older (some e) x = some e := if_neg (Nat.not_lt.mpr (h x (List.mem_cons_self ..)))
    rw [List.foldl_cons, first]
    exact ih fun y hy => h y (List.mem_cons_of_mem _ hy)

theorem foldl_older_mem {l : List FaultEntry} {b : Option FaultEntry} {x : FaultEntry} (h : l.foldl older b = some x) :
    b = some x ∨ x ∈ l := by
  induction l generalizing b with
  | nil => exact .inl h
  | cons y l ih =>
    rcases ih h with found | found
    · cases b with
      | none =>
        cases found
        exact .inr (List.mem_cons_self ..)
      | some b =>
        simp only [older] at found
        split at found
        · cases found
          exact .inr (List.mem_cons_self ..)
        · exact .inl found
    · exact .inr (List.mem_cons_of_mem _ found)

/-- The entry that is older than every one before it, and as old as every one after it (R178). -/
theorem oldestOf_split {p : FaultEntry → Bool} {before after : List FaultEntry} {e : FaultEntry} (he : p e = true)
    (hb : ∀ x ∈ before, p x = true → e.lastChange < x.lastChange)
    (ha : ∀ x ∈ after, p x = true → e.lastChange ≤ x.lastChange) : oldestOf p (before ++ e :: after) = some e := by
  rw [oldestOf_eq, List.filter_append, List.filter_cons_of_pos he, List.foldl_append, List.foldl_cons]
  have taken : older ((before.filter p).foldl older none) e = some e := by
    cases best : (before.filter p).foldl older none with
    | none => rfl
    | some b =>
      obtain ⟨mem, chosen⟩ := List.mem_filter.mp ((foldl_older_mem best).resolve_left (by simp))
      exact if_pos (hb b mem chosen)
  rw [taken]
  exact foldl_older_keeps fun x hx => ha x (List.mem_filter.mp hx).1 (List.mem_filter.mp hx).2

theorem oldestOf_eq_none {p : FaultEntry → Bool} {l : List FaultEntry} (h : oldestOf p l = none) :
    ∀ x ∈ l, p x = false := by
  intro x hx
  by_contra chosen
  have keeps (m : List FaultEntry) (b : FaultEntry) : ∃ c, m.foldl older (some b) = some c := by
    induction m generalizing b with
    | nil => exact ⟨b, rfl⟩
    | cons y m ih =>
      rw [List.foldl_cons]
      unfold older
      dsimp only
      split
      · exact ih y
      · exact ih b
  have mem : x ∈ l.filter p := List.mem_filter.mpr ⟨hx, by simpa using chosen⟩
  rw [oldestOf_eq] at h
  cases entries : l.filter p with
  | nil => rw [entries] at mem; exact absurd mem (List.not_mem_nil)
  | cons y m =>
    rw [entries] at h
    obtain ⟨c, found⟩ := keeps m y
    exact absurd (h.symm.trans found) (by simp)

/-! ### Room in a table (R178) -/

variable {f : Flt} {k j : FaultKey} {now up : Nat}

theorem makeRoom_of_room {v : Severity} (h : f.entries.length < 16) : f.makeRoom v = f := if_pos h

theorem isProtected_congr {e x : FaultEntry} (h : e.key = x.key) : e.isProtected = x.isProtected := by
  unfold FaultEntry.isProtected
  rw [h]

/-- R178, test 2 chooses an unprotected entry of a lower severity. -/
theorem lowestActive_some {l : List FaultEntry} {v : Severity} {e : FaultEntry} (h : lowestActive l v = some e) :
    e ∈ l ∧ e.isProtected = false ∧ e.key.code.severity.code < v.code := by
  have one {w : Severity} (lower : w.code < v.code) (found : oldestOf (lowerActive w) l = some e) :
      e ∈ l ∧ e.isProtected = false ∧ e.key.code.severity.code < v.code := by
    obtain ⟨mem, chosen⟩ := oldestOf_some found
    simp only [lowerActive, Bool.and_eq_true, Bool.not_eq_true', decide_eq_true_eq] at chosen
    obtain ⟨⟨-, free⟩, severity⟩ := chosen
    exact ⟨mem, free, by rwa [severity]⟩
  cases v with
  | good => cases h
  | notice => cases h
  | degraded => exact one (by decide) h
  | out =>
    rcases Option.or_eq_some_iff.mp h with found | ⟨-, found⟩
    · exact one (by decide) found
    · exact one (by decide) found

/-- R178: eviction removes the entries of one key that is not protected, or nothing. -/
theorem makeRoom_entries (v : Severity) (f : Flt) :
    (f.makeRoom v).entries = f.entries ∨
      ∃ e ∈ f.entries, e.isProtected = false ∧ (f.makeRoom v).entries = (f.remove e.key).entries := by
  unfold Flt.makeRoom
  split
  · exact .inl rfl
  · split
    · rename_i e found
      obtain ⟨mem, chosen⟩ := oldestOf_some found
      simp only [Bool.and_eq_true, Bool.not_eq_true'] at chosen
      exact .inr ⟨e, mem, chosen.2, rfl⟩
    · split
      · rename_i e found
        obtain ⟨mem, unprotected, -⟩ := lowestActive_some found
        exact .inr ⟨e, mem, unprotected, rfl⟩
      · exact .inl rfl

/-- R178: a protected entry never leaves. -/
theorem makeRoom_protected {v : Severity} {e : FaultEntry} (mem : e ∈ f.entries) (safe : e.isProtected = true) :
    e ∈ (f.makeRoom v).entries := by
  rcases makeRoom_entries v f with stands | ⟨x, -, unprotected, gone⟩
  · rw [stands]
    exact mem
  · rw [gone]
    refine List.mem_filter.mpr ⟨mem, ?_⟩
    have other : e.key ≠ x.key := fun same => by
      rw [isProtected_congr same, unprotected] at safe
      cases safe
    simpa using other

theorem makeRoom_notices (v : Severity) (f : Flt) : (f.makeRoom v).notices = f.notices := by
  unfold Flt.makeRoom
  split
  · rfl
  · split
    · rfl
    · split <;> rfl

/-- With keys that differ, the entries of one key are the entry itself. -/
theorem remove_split {before after : List FaultEntry} {e : FaultEntry} (split : f.entries = before ++ e :: after)
    (differ : (f.entries.map (·.key)).Nodup) : (f.remove e.key).entries = before ++ after := by
  rw [split, List.map_append, List.map_cons, List.nodup_append] at differ
  obtain ⟨-, tail, apart⟩ := differ
  obtain ⟨absent, -⟩ := List.nodup_cons.mp tail
  have stays {l : List FaultEntry} (h : ∀ x ∈ l, x.key ≠ e.key) : l.filter (fun x => !decide (x.key = e.key)) = l :=
    List.filter_eq_self.mpr fun x hx => by simpa using h x hx
  simp only [Flt.remove, split, List.filter_append]
  rw [stays fun x hx same => apart _ (List.mem_map_of_mem hx) _ (List.mem_cons_self ..) same,
    List.filter_cons_of_neg (by simp), stays fun x hx same => absent (same ▸ List.mem_map_of_mem hx)]

/-! ### The entry of a raise (R176) -/

theorem update_of_absent {g : FaultEntry → FaultEntry} (absent : ∀ e ∈ f.entries, e.key ≠ k) :
    (f.update k g).entries = f.entries := by
  unfold Flt.update
  exact (List.map_congr_left fun e he => if_neg (absent e he)).trans (List.map_id' _)

theorem setLamp_rest (now : Nat) (l : Lamp) (f : Flt) :
    (f.setLamp now l).overflow = f.overflow ∧ (f.setLamp now l).owed = f.owed ∧ (f.setLamp now l).notices = f.notices := by
  unfold Flt.setLamp
  split
  · exact ⟨rfl, rfl, rfl⟩
  · split <;> exact ⟨rfl, rfl, rfl⟩

theorem resummarise_rest (now : Nat) (f : Flt) :
    (f.resummarise now).overflow = f.overflow ∧ (f.resummarise now).owed = f.owed ∧
      (f.resummarise now).notices = f.notices :=
  setLamp_rest now _ _

theorem find_none_of_absent (absent : ∀ e ∈ f.entries, e.key ≠ k) : f.find k = none :=
  List.find?_eq_none.mpr fun e he => by simpa using absent e he

theorem makeRoom_absent {v : Severity} (absent : f.find k = none) : ∀ e ∈ (f.makeRoom v).entries, e.key ≠ k :=
  fun e he => find_none absent e (makeRoom_sub he)

/-- R176: a fault without an entry takes its place at the end, when there is room. -/
theorem raised_created (absent : f.find k = none) (room : (f.makeRoom k.code.severity).entries.length < 16) :
    (f.raised k now up).2 = true ∧
      (f.raised k now up).1.entries =
        (f.makeRoom k.code.severity).entries ++ [{ FaultEntry.created k up with notice := f.notices + 1 }] ∧
      (f.raised k now up).1.overflow = (f.makeRoom k.code.severity).overflow ∧
      (f.raised k now up).1.owed = (f.makeRoom k.code.severity).owed := by
  have others := (List.map_congr_left (f := fun e : FaultEntry => if e.key = k then
    { e with reported := false, notice := f.notices + 1 } else e) fun e he =>
      if_neg (makeRoom_absent (v := k.code.severity) absent e he)).trans (List.map_id' _)
  unfold Flt.raised
  rw [absent]
  dsimp only
  rw [if_pos (show _ < Config.faultCapacity from room)]
  obtain ⟨overflow, owed, -⟩ := resummarise_rest now (Flt.callForNotice k
    { f.makeRoom k.code.severity with entries := (f.makeRoom k.code.severity).entries ++ [FaultEntry.created k up] })
  refine ⟨rfl, ?_, overflow, owed⟩
  simp only [resummarise_entries, Flt.callForNotice, Flt.update, List.map_append, List.map_cons, List.map_nil,
    makeRoom_notices]
  rw [others, if_pos (show (FaultEntry.created k up).key = k from rfl)]
  rfl

/-- R178: a fault that finds no place is not entered. -/
theorem raised_full (absent : f.find k = none) (full : ¬ (f.makeRoom k.code.severity).entries.length < 16) :
    f.raised k now up = (f.makeRoom k.code.severity, false) := by
  unfold Flt.raised
  rw [absent]
  exact if_neg full

/-! ### What is ACTIVE after a raise -/

theorem isActive_iff : f.isActive k = true ↔ ∃ e ∈ f.entries, e.key = k ∧ e.active = true := by
  simp [Flt.isActive]

theorem isActive_resummarise (now : Nat) (f : Flt) (k : FaultKey) : (f.resummarise now).isActive k = f.isActive k := by
  unfold Flt.isActive
  rw [resummarise_entries]

/-- An update of one key leaves what stands under the others. -/
theorem isActive_update_other {g : FaultEntry → FaultEntry} (h : j ≠ k) (hg : ∀ e, (g e).key = e.key) :
    (f.update k g).isActive j = f.isActive j := by
  simp only [Flt.isActive, Flt.update, List.any_map]
  congr 1
  funext e
  by_cases he : e.key = k
  · simp [he, hg, Ne.symm h]
  · simp [he]

/-- An update that leaves the state of the entries leaves what is ACTIVE. -/
theorem isActive_update_same {g : FaultEntry → FaultEntry} (hg : ∀ e, (g e).key = e.key)
    (ha : ∀ e, (g e).active = e.active) : (f.update k g).isActive j = f.isActive j := by
  simp only [Flt.isActive, Flt.update, List.any_map]
  congr 1
  funext e
  by_cases he : e.key = k
  · simp [he, hg, ha]
  · simp [he]

theorem isActive_callForNotice (f : Flt) (k j : FaultKey) : (f.callForNotice k).isActive j = f.isActive j :=
  isActive_update_same (f := { f with notices := f.notices + 1 }) (fun _ => rfl) fun _ => rfl

/-- R176: the entry of a fault that has one is ACTIVE after a raise, and no other changes its state. -/
theorem raised_found {e : FaultEntry} (found : f.find k = some e) :
    (f.raised k now up).1.isActive k = true ∧ ∀ j, j ≠ k → (f.raised k now up).1.isActive j = f.isActive j := by
  obtain ⟨mem, key⟩ := find_some found
  let g : Flt := f.update k fun e =>
    { e with active := true, occurrences := min Config.occurrencesMax (e.occurrences + 1), lastChange := up }
  have result (j : FaultKey) : (f.raised k now up).1.isActive j = g.isActive j := by
    unfold Flt.raised
    rw [found]
    dsimp only
    split
    · exact (isActive_resummarise _ _ _).trans (isActive_callForNotice _ _ _)
    · split
      · exact isActive_callForNotice _ _ _
      · rfl
  refine ⟨(result k).trans (isActive_iff.mpr ⟨_, List.mem_map_of_mem mem, ?_⟩), fun j other =>
    (result j).trans (isActive_update_other other fun _ => rfl)⟩
  rw [if_pos key]
  exact ⟨key, rfl⟩

/-- R176: a fault that finds a place is ACTIVE after a raise. -/
theorem raised_active (room : (f.makeRoom k.code.severity).entries.length < 16) :
    (f.raised k now up).1.isActive k = true := by
  cases found : f.find k with
  | some e => exact (raised_found found).1
  | none =>
    obtain ⟨-, entries, -⟩ := raised_created (now := now) (up := up) found room
    refine isActive_iff.mpr ⟨{ FaultEntry.created k up with notice := f.notices + 1 }, ?_, rfl, rfl⟩
    rw [entries]
    exact List.mem_append_right _ (List.mem_singleton_self _)

/-- A raise makes no other fault ACTIVE. -/
theorem raised_other_le (other : j ≠ k) (h : (f.raised k now up).1.isActive j = true) : f.isActive j = true := by
  cases found : f.find k with
  | some e => rwa [(raised_found found).2 j other] at h
  | none =>
    obtain ⟨e, mem, key, active⟩ := isActive_iff.mp h
    have old : e ∈ (f.makeRoom k.code.severity).entries := by
      by_cases room : (f.makeRoom k.code.severity).entries.length < 16
      · obtain ⟨-, entries, -⟩ := raised_created (now := now) (up := up) found room
        rw [entries] at mem
        refine (List.mem_append.mp mem).resolve_right fun new => other ?_
        rw [List.mem_singleton.mp new] at key
        exact key.symm
      · rwa [raised_full found room] at mem
    exact isActive_iff.mpr ⟨e, makeRoom_sub old, key, active⟩

/-- A raise leaves another entry that does not make room for it. -/
theorem raised_other_keeps (other : j ≠ k)
    (kept : ∀ e ∈ f.entries, e.key = j → e ∈ (f.makeRoom k.code.severity).entries) :
    (f.raised k now up).1.isActive j = f.isActive j := by
  refine Bool.eq_iff_iff.mpr ⟨raised_other_le other, fun h => ?_⟩
  cases found : f.find k with
  | some e => rwa [(raised_found found).2 j other]
  | none =>
    obtain ⟨e, mem, key, active⟩ := isActive_iff.mp h
    refine isActive_iff.mpr ⟨e, ?_, key, active⟩
    by_cases room : (f.makeRoom k.code.severity).entries.length < 16
    · obtain ⟨-, entries, -⟩ := raised_created (now := now) (up := up) found room
      rw [entries]
      exact List.mem_append_left _ (kept e mem key)
    · rw [raised_full found room]
      exact kept e mem key

/-- A raise into a table with room leaves the state of every other entry. -/
theorem raised_other_of_room (room : f.entries.length < 16) (other : j ≠ k) :
    (f.raised k now up).1.isActive j = f.isActive j :=
  raised_other_keeps other fun e mem _ => by rwa [makeRoom_of_room room]

/-- R178: a raise leaves the state of every other protected entry. -/
theorem raised_other_of_protected {e : FaultEntry} (other : e.key ≠ k) (safe : e.isProtected = true) :
    (f.raised k now up).1.isActive e.key = f.isActive e.key :=
  raised_other_keeps other fun _ mem same => makeRoom_protected mem ((isProtected_congr same).trans safe)

theorem madeInactive_self : (f.madeInactive k now up).1.isActive k = false := by
  unfold Flt.madeInactive
  split
  · rw [isActive_resummarise, isActive_callForNotice]
    refine Bool.eq_false_iff.mpr fun h => ?_
    obtain ⟨e, mem, key, active⟩ := isActive_iff.mp h
    obtain ⟨x, -, rfl⟩ := List.mem_map.mp mem
    split at active
    · cases active
    · rename_i apart
      rw [if_neg apart] at key
      exact apart key
  · exact Bool.eq_false_iff.mpr ‹_›

/-! ### A full table -/

/-- The keys that are protected from eviction (R178): of those that the catalogue lists, there are six. -/
theorem listed_protected {e : FaultEntry} (listed : e.key.listed = true) (safe : e.isProtected = true) :
    e.key ∈ [⟨.linkRetrainLimit, .line⟩, ⟨.foreignVoltageHigh, .line⟩, ⟨.loopOpen, .line⟩, ⟨.configDefaulted, .config⟩,
      ⟨.busAddressInvalid, .bus⟩, (⟨.busAddressConflict, .bus⟩ : FaultKey)] := by
  obtain ⟨⟨code, source⟩, active, firstSeen, lastChange, occurrences, reported, notice⟩ := e
  unfold FaultEntry.isProtected at safe
  unfold FaultKey.listed at listed
  cases code <;> cases source <;> simp_all [FaultCode.severity]

theorem remove_smaller {e : FaultEntry} (mem : e ∈ f.entries) : (f.remove e.key).entries.length < f.entries.length :=
  List.length_filter_lt_length_iff_exists.mpr ⟨e, mem, by simp⟩

/-- R178, test 1: the oldest INACTIVE entry that is not protected makes room. -/
theorem makeRoom_inactive {v : Severity} {e : FaultEntry} (full : f.entries.length = 16)
    (oldest : oldestOf (fun e => !e.active && !e.isProtected) f.entries = some e) : f.makeRoom v = f.remove e.key := by
  unfold Flt.makeRoom
  rw [if_neg (by rw [full]; decide), oldest]

/-- R178, test 2: without one, an entry of a lower severity makes room, and the overflow flag is set. -/
theorem makeRoom_lowest {v : Severity} {e : FaultEntry} (full : f.entries.length = 16)
    (none : oldestOf (fun e => !e.active && !e.isProtected) f.entries = none) (lowest : lowestActive f.entries v = some e) :
    f.makeRoom v = { f.remove e.key with overflow := true } := by
  unfold Flt.makeRoom
  rw [if_neg (by rw [full]; decide), none]
  dsimp only
  rw [lowest]

/-- R178: without either, the table stands and the overflow flag is set. -/
theorem makeRoom_stands {v : Severity} (full : f.entries.length = 16)
    (none : oldestOf (fun e => !e.active && !e.isProtected) f.entries = none) (lowest : lowestActive f.entries v = .none) :
    f.makeRoom v = { f with overflow := true } := by
  unfold Flt.makeRoom
  rw [if_neg (by rw [full]; decide), none]
  dsimp only
  rw [lowest]

/-- The severities that the catalogue gives are three. -/
theorem severity_cases (c : FaultCode) : c.severity = .notice ∨ c.severity = .degraded ∨ c.severity = .out := by
  cases c <;> decide

theorem isProtected_of_out {e : FaultEntry} (h : e.key.code.severity = .out) : e.isProtected = true := by
  simp [FaultEntry.isProtected, h]

/-- R178, test 2: the oldest entry of the lowest severity below that of the new fault. -/
theorem lowestActive_split {v : Severity} {before after : List FaultEntry} {e : FaultEntry} (he : e.active = true)
    (unprotected : e.isProtected = false) (lower : e.key.code.severity.code < v.code)
    (lowest : ∀ x ∈ before ++ e :: after, x.isProtected = false → x.key.code.severity.code < v.code →
      e.key.code.severity.code ≤ x.key.code.severity.code)
    (hb : ∀ x ∈ before, x.isProtected = false → x.key.code.severity.code = e.key.code.severity.code →
      e.lastChange < x.lastChange)
    (ha : ∀ x ∈ after, x.isProtected = false → x.key.code.severity.code = e.key.code.severity.code →
      e.lastChange ≤ x.lastChange) :
    lowestActive (before ++ e :: after) v = some e := by
  have chosen {x : FaultEntry} (h : lowerActive e.key.code.severity x = true) :
      x.isProtected = false ∧ x.key.code.severity.code = e.key.code.severity.code := by
    simp only [lowerActive, Bool.and_eq_true, Bool.not_eq_true', decide_eq_true_eq] at h
    exact ⟨h.1.2, congrArg Severity.code h.2⟩
  have own : oldestOf (lowerActive e.key.code.severity) (before ++ e :: after) = some e :=
    oldestOf_split (by simp [lowerActive, he, unprotected]) (fun x hx h => hb x hx (chosen h).1 (chosen h).2)
      fun x hx h => ha x hx (chosen h).1 (chosen h).2
  rcases severity_cases e.key.code with notice | degraded | out
  · rw [notice] at own lower
    cases v with
    | good => exact absurd lower (by decide)
    | notice => exact absurd lower (by decide)
    | degraded => exact own
    | out => exact Option.or_eq_some_iff.mpr (.inl own)
  · rw [degraded] at own lower lowest
    have no_notice : oldestOf (lowerActive .notice) (before ++ e :: after) = none := oldestOf_none fun x hx => by
      by_contra h
      simp only [lowerActive, Bool.not_eq_false, Bool.and_eq_true, Bool.not_eq_true', decide_eq_true_eq] at h
      obtain ⟨⟨-, free⟩, notice⟩ := h
      have := lowest x hx free (by rw [notice]; exact (by decide : Severity.notice.code < Severity.degraded.code).trans lower)
      rw [notice] at this
      exact absurd this (by decide)
    cases v with
    | good => exact absurd lower (by decide)
    | notice => exact absurd lower (by decide)
    | degraded => exact absurd lower (by decide)
    | out => exact Option.or_eq_some_iff.mpr (.inr ⟨no_notice, own⟩)
  · exact absurd (isProtected_of_out out) (by simp [unprotected])

/-- Among 16 entries of the catalogue one is not protected (R178). -/
theorem exists_unprotected (full : f.entries.length = 16) (differ : (f.entries.map (·.key)).Nodup)
    (listed : ∀ e ∈ f.entries, e.key.listed = true) : ∃ e ∈ f.entries, e.isProtected = false := by
  by_contra none
  have six := (List.subperm_of_subset differ (l₂ := [⟨.linkRetrainLimit, .line⟩, ⟨.foreignVoltageHigh, .line⟩,
      ⟨.loopOpen, .line⟩, ⟨.configDefaulted, .config⟩, ⟨.busAddressInvalid, .bus⟩, ⟨.busAddressConflict, .bus⟩])
    fun key hk => by
      obtain ⟨e, mem, rfl⟩ := List.mem_map.mp hk
      exact listed_protected (listed e mem) (Bool.not_eq_false _ ▸ fun h => none ⟨e, mem, h⟩)).length_le
  rw [List.length_map, full] at six
  exact absurd six (by decide)

/-- R178: a fault of severity OUT finds a place among entries of the catalogue. -/
theorem makeRoom_out (sized : f.sized = true) (listed : ∀ e ∈ f.entries, e.key.listed = true) :
    (f.makeRoom .out).entries.length < 16 := by
  simp only [Flt.sized, Bool.and_eq_true, decide_eq_true_eq] at sized
  obtain ⟨⟨length, differ⟩, -⟩ := sized
  rcases Nat.lt_or_ge f.entries.length 16 with room | full
  · rwa [makeRoom_of_room room]
  · have full : f.entries.length = 16 := Nat.le_antisymm length full
    cases first : oldestOf (fun e => !e.active && !e.isProtected) f.entries with
    | some e =>
      rw [makeRoom_inactive full first, ← full]
      exact remove_smaller (oldestOf_some first).1
    | none =>
      cases second : lowestActive f.entries .out with
      | some e =>
        rw [makeRoom_lowest full first second, ← full]
        exact remove_smaller (f := f) (lowestActive_some second).1
      | none =>
        obtain ⟨e, mem, unprotected⟩ := exists_unprotected full differ listed
        have active : e.active = true := by simpa [unprotected] using oldestOf_eq_none first e mem
        obtain ⟨noNotice, noDegraded⟩ := Option.or_eq_none_iff.mp second
        rcases severity_cases e.key.code with notice | degraded | out
        · exact absurd (oldestOf_eq_none noNotice e mem) (by simp [lowerActive, active, unprotected, notice])
        · exact absurd (oldestOf_eq_none noDegraded e mem) (by simp [lowerActive, active, unprotected, degraded])
        · exact absurd (isProtected_of_out out) (by simp [unprotected])

/-- An entry that a raise without an entry of its own does not remove stands as it is. -/
theorem raised_stands {e : FaultEntry} (absent : f.find k = none) (mem : e ∈ (f.makeRoom k.code.severity).entries) :
    e ∈ (f.raised k now up).1.entries := by
  by_cases room : (f.makeRoom k.code.severity).entries.length < 16
  · obtain ⟨-, entries, -⟩ := raised_created (now := now) (up := up) absent room
    rw [entries]
    exact List.mem_append_left _ mem
  · rwa [raised_full absent room]

/-- Settles O59, by the tests of R178 in their order. -/
theorem fullTableMakesRoom : Obligations.FullTableMakesRoom := by
  intro k now up f sized full absent
  have differ : (f.entries.map (·.key)).Nodup := by
    simp only [Flt.sized, Bool.and_eq_true, decide_eq_true_eq] at sized
    exact sized.1.2
  have room {e : FaultEntry} (mem : e ∈ f.entries) : (f.remove e.key).entries.length < 16 :=
    full ▸ remove_smaller mem
  refine ⟨?_, ?_, ?_, fun e mem safe => raised_stands absent (makeRoom_protected mem safe), ?_⟩
  · intro before e after split inactive unprotected hb ha
    have mem : e ∈ f.entries := split ▸ List.mem_append_right _ (List.mem_cons_self ..)
    have oldest : oldestOf (fun e => !e.active && !e.isProtected) f.entries = some e := by
      rw [split]
      refine oldestOf_split (by simp [inactive, unprotected]) (fun x hx h => ?_) fun x hx h => ?_
      · simp only [Bool.and_eq_true, Bool.not_eq_true'] at h
        exact hb x hx h.1 h.2
      · simp only [Bool.and_eq_true, Bool.not_eq_true'] at h
        exact ha x hx h.1 h.2
    have made := makeRoom_inactive (v := k.code.severity) full oldest
    obtain ⟨noticed, entries, overflow, owed⟩ :=
      raised_created (now := now) (up := up) absent (by rw [made]; exact room mem)
    rw [made] at entries overflow owed
    exact ⟨by rw [entries, remove_split split differ], overflow, owed, noticed⟩
  · intro before e after split active unprotected lower lowest hb ha
    have mem : e ∈ f.entries := split ▸ List.mem_append_right _ (List.mem_cons_self ..)
    have first : oldestOf (fun e => !e.active && !e.isProtected) f.entries = none := oldestOf_none fun x hx => by
      cases safe : x.isProtected with
      | true => simp
      | false => simp [active x hx safe]
    have second : lowestActive f.entries k.code.severity = some e := by
      rw [split] at lowest ⊢
      exact lowestActive_split (active e mem unprotected) unprotected lower lowest hb ha
    have made := makeRoom_lowest full first second
    obtain ⟨noticed, entries, overflow, owed⟩ :=
      raised_created (now := now) (up := up) absent (by rw [made]; exact room mem)
    rw [made] at entries overflow owed
    have left : (f.remove e.key).entries = before ++ after := remove_split split differ
    exact ⟨entries.trans (congrArg (· ++ _) left), overflow, owed, noticed⟩
  · intro high
    have first : oldestOf (fun e => !e.active && !e.isProtected) f.entries = none := oldestOf_none fun x hx => by
      cases safe : x.isProtected with
      | true => simp
      | false => simp [(high x hx safe).1]
    have second : lowestActive f.entries k.code.severity = none := by
      cases found : lowestActive f.entries k.code.severity with
      | none => rfl
      | some e =>
        obtain ⟨mem, unprotected, lower⟩ := lowestActive_some found
        exact absurd lower (Nat.not_lt.mpr (high e mem unprotected).2)
    have made := makeRoom_stands full first second
    have stands := raised_full (now := now) (up := up) absent (by rw [made, full]; decide)
    rw [stands, made]
    exact ⟨rfl, rfl⟩
  · intro listed out
    exact raised_active (by rw [out]; exact makeRoom_out sized listed)

end Sys2Proof.Proofs.Table
end

section
/-! The requests of stations that the part answers at once: the QUERY commands (O25), CLEAR_FAULTS (O28) and the
counter commands (O29). -/

set_option Elab.async false

namespace Sys2Proof.Proofs.Requests

open Sys2Proof Sys2Proof.Machine Sys2Proof.Proofs.Steps

variable {s : State} {d : Delivered} {rest : List Delivered} {pick : Delivered → Bool} {f : Delivered → State → State}

/-! ### A request at the head of the buffer that is served with an answer -/

theorem finish_serve (head : s.heads d rest) (picked : pick d = true) {t : State} (serves : f d (s.taken rest) = t)
    (calm : Undisturbed t s) : finish s (s.serve pick f) = .next t := by
  rw [serve_heads head picked, serves, finish_undisturbed calm]

theorem finish_reported (head : s.heads d rest) (picked : pick d = true) (room : s.routineRoom) {body : List Byte}
    (serves : f d (s.taken rest) = (s.taken rest).report d.src body) :
    finish s (s.serve pick f) = .next (s.routined rest (plainFrame d.src .report body)) :=
  finish_serve head picked (serves.trans (report_room room)) undisturbed_routined

theorem finish_refused (head : s.heads d rest) (picked : pick d = true) (room : s.callRoom) {k : Kind} {r : RefuseReason}
    (serves : f d (s.taken rest) = (s.taken rest).refuse d.src k r 0) :
    finish s (s.serve pick f) = .next (s.called rest (refuseFrame d.src k r 0)) :=
  finish_serve head picked (serves.trans (refuse_room room)) undisturbed_called

/-- A request whose answer is a reply stream of the frames, at least one. -/
theorem finish_streamed (head : s.heads d rest) (picked : pick d = true) (room : s.routineRoom) {l : List TxFrame}
    (some : l ≠ []) (serves : f d (s.taken rest) = (s.taken rest).startStream l) :
    finish s (s.serve pick f) = .next (streaming rest l s) := by
  refine finish_serve head picked ?_ ((Undisturbed.refl s).onYbi rfl)
  obtain ⟨x, xs, rfl⟩ := List.exists_cons_of_ne_nil some
  rw [serves, startStream_room (s := s.taken rest) room]
  rfl

/-- A management request of a manager, which the owner sees. -/
theorem asManager_manager {g : State → State} (manager : s.isManager d.src = true) :
    (s.taken rest).asManager d g = g (s.taken rest) :=
  if_pos manager

/-! ### The QUERY commands -/

theorem taken_flt : (s.taken rest).flt = s.flt := rfl

/-- ALL and ACTIVE are one answer over the entries that each reports. -/
theorem queryFaults_answers {sel : FaultEntry → Bool} {l : List FaultEntry} (head : s.heads d rest)
    (routine : s.routineRoom) (call : s.callRoom) (picked : pick d = true) (entries : l = s.flt.entries.filter sel) :
    (s.ybi.stream = none → l = [] →
      finish s (s.serve pick (State.queryFaults sel)) =
        .next (s.routined rest (plainFrame d.src .report (noFaultReport s.flt.summary s.flt.overflow)))) ∧
    (s.ybi.stream = none → l ≠ [] →
      finish s (s.serve pick (State.queryFaults sel)) = .next (streaming rest (l.zipIdx.map fun p =>
        plainFrame d.src .report (faultReport s.flt.summary s.flt.overflow (p.2 + 1) l.length p.1)) s)) ∧
    (∀ r, s.ybi.stream = some r →
      finish s (s.serve pick (State.queryFaults sel)) = .next (s.called rest (refuseFrame d.src .query .notReady 0))) := by
  subst entries
  refine ⟨fun idle none => ?_, fun idle some => ?_, fun r runs => ?_⟩
  · refine finish_reported head picked routine ?_
    simp only [State.queryFaults, State.taken, State.onYbi_ybi, State.onYbi_flt, idle, none]
    rfl
  · refine finish_streamed head picked routine (by simpa using some) ?_
    have full : (s.flt.entries.filter sel).isEmpty = false := by simpa [List.isEmpty_iff] using some
    simp only [State.queryFaults, State.taken, State.onYbi_ybi, State.onYbi_flt, idle, full]
    rfl
  · refine finish_refused head picked call ?_
    simp only [State.queryFaults, State.taken, State.onYbi_ybi, runs]
    rfl

/-- Settles O25: each command answers the request at the head of the buffer. -/
theorem queriesAreAnswered : Obligations.QueriesAreAnswered := by
  refine ⟨fun d rest s head routine call => ⟨fun m => ?_, fun n part i m item part1 => ?_, fun n part m bad => ?_,
      fun m => ?_, fun n m bad => ?_, fun part m ok => ?_, fun part m bad => ?_⟩,
    fun d rest s head routine call => ⟨fun r m runs some => ?_, ?_, fun m => ⟨fun none => ?_, fun idle some => ?_⟩⟩⟩
  · exact finish_reported head (by simp [isQueryLink, m]) routine rfl
  · refine finish_reported head (by simp [isQueryLoop, m]) routine ?_
    have served : ¬(i = .linkProfile ∧ 1 < part) := fun ⟨profile, high⟩ => part1.elim (· profile) (Nat.not_le.mpr high)
    simp only [State.queryLoop, Message.subject, m, item, served, ↓reduceIte]
    rfl
  · refine finish_refused head (by simp [isQueryLoop, m]) call ?_
    rcases bad with none | ⟨profile, high⟩
    · simp only [State.queryLoop, Message.subject, m, none]
    · simp only [State.queryLoop, Message.subject, m, profile, high, and_self, ↓reduceIte]
  · refine finish_reported head (by simp [isQueryFaultSummary, m]) routine ?_
    simp only [State.querySummary, Message.subject, m, ↓reduceIte]
    rfl
  · refine finish_refused head ?_ call ?_
    · simp only [isQueryFaultSummary, m, Bool.and_eq_true, bne_iff_ne]
      omega
    · have other : n ≠ 1 := by omega
      simp [State.querySummary, Message.subject, m, other]
  · refine finish_reported head (by simp [isQueryConfiguration, m]) routine ?_
    simp only [State.queryConfiguration, Message.subject, m, Nat.not_lt.mpr ok, ↓reduceIte]
    rfl
  · refine finish_refused head (by simp [isQueryConfiguration, m]) call ?_
    simp only [State.queryConfiguration, Message.subject, m, bad, ↓reduceIte]
  · refine finish_refused head (by simp [isQueryPresence, m]) call ?_
    have full : s.ybi.presence.isEmpty = false := by simpa [List.isEmpty_iff] using some
    simp [State.queryPresence, State.taken, full, runs]
  · rintro i l (⟨rfl, m, entries⟩ | ⟨rfl, m, entries⟩)
    · exact queryFaults_answers head routine call (by simp [isQueryFaultAll, m]) (entries.trans (by simp))
    · exact queryFaults_answers head routine call (by simp [isQueryFaultActive, m]) entries
  · refine finish_reported head (by simp [isQueryPresence, m]) routine ?_
    simp only [State.queryPresence, State.taken, State.onYbi_ybi, none]
    rfl
  · refine finish_streamed head (by simp [isQueryPresence, m]) routine (by simpa using some) ?_
    have full : s.ybi.presence.isEmpty = false := by simpa [List.isEmpty_iff] using some
    simp only [State.queryPresence, State.taken, State.onYbi_ybi, full, idle]
    rfl

/-! ### CLEAR_FAULTS -/

theorem mem_cleared_owed {k : FaultKey} {x : Flt} :
    k ∈ x.cleared.owed ↔ k ∈ x.owed ∧ ∃ e ∈ x.entries, e.active = true ∧ e.key = k := by
  simp [Flt.cleared]

theorem summaryOf_active (l : List FaultEntry) : summaryOf (l.filter fun e => e.active) = summaryOf l := by
  have stands : ∀ sev, (l.filter fun e => e.active).any (fun e => e.active && decide (e.key.code.severity = sev)) =
      l.any (fun e => e.active && decide (e.key.code.severity = sev)) := by
    intro sev
    rw [List.any_filter]
    congr 1
    funext e
    cases e.active <;> rfl
  simp only [summaryOf, stands]

theorem cleared_isActive (k : FaultKey) (x : Flt) : x.cleared.isActive k = x.isActive k := by
  simp only [Flt.isActive, Flt.cleared, List.any_filter]
  congr 1
  funext e
  cases e.active <;> simp

/-- Settles O28: what the clearing leaves of the table, and the answer. -/
theorem faultsAreCleared : Obligations.FaultsAreCleared := by
  intro d rest s head routine manager m
  refine ⟨(s.routined rest (doneFrame d.src .clearFaults)).onFlt Flt.cleared, ?_, rfl, rfl, fun k => mem_cleared_owed,
    summaryOf_active _⟩
  refine finish_serve head (by simp [isClearFaults, m]) ?_ (undisturbed_routined.onFlt (cleared_isActive _ _))
  rw [asManager_manager manager]
  unfold State.done
  rw [handRoutine_room (s := (s.taken rest).onFlt Flt.cleared) routine (by simp [doneFrame, plainFrame])]
  rfl

/-! ### The counters -/

theorem owns_iff {m : Nat} {c : Counter} (h : s.isManager m = true ∨ c.delegate = some m) :
    s.ownsCounter m c = true := by
  simpa [State.ownsCounter] using h

/-- A report of a part whose counters alone the request has changed. -/
theorem report_onCtb {g : Ctb → Ctb} {body : List Byte} {n : Nat} (routine : s.routineRoom) :
    ((s.taken rest).onCtb g).report n body = (s.routined rest (plainFrame n .report body)).onCtb g := by
  unfold State.report
  rw [handRoutine_room (s := (s.taken rest).onCtb g) routine (by simp [plainFrame])]
  rfl

theorem done_onCtb {g : Ctb → Ctb} {k : Kind} {n : Nat} (routine : s.routineRoom) :
    ((s.taken rest).onCtb g).done n k = (s.routined rest (doneFrame n k)).onCtb g := by
  unfold State.done
  rw [handRoutine_room (s := (s.taken rest).onCtb g) routine (by simp [doneFrame, plainFrame])]
  rfl

/-- Settles O29: each command on the counter that it names. -/
theorem countersAreRead : Obligations.CountersAreRead := by
  intro n c d rest s head routine counter
  have counter' : (s.taken rest).ctb.counter n = some c := counter
  refine ⟨fun m => ?_, fun m owner => ?_, fun selection inhibit m owner => ?_, fun address m n7 manager ok => ?_⟩
  · refine finish_reported head (by simp [isCounterRead, m]) routine ?_
    simp only [m, State.readCounter, counter']
  · refine finish_serve head (by simp [isCounterReadClear, m]) ?_ undisturbed_routined.onCtb
    have owns : (s.taken rest).ownsCounter d.src c = true := owns_iff (s := s) owner
    simp only [m, State.clearCounter, counter', owns, ↓reduceIte]
    exact report_onCtb routine
  · refine finish_serve head (by simp [isCounterSet, m]) ?_ undisturbed_routined.onCtb
    have owns : (s.taken rest).ownsCounter d.src c = true := owns_iff (s := s) owner
    simp only [m, State.setCounter, counter', owns, ↓reduceIte]
    exact done_onCtb routine
  · refine finish_serve head (by simp [isCounterDelegate, m]) ?_ undisturbed_routined.onCtb
    rw [asManager_manager manager]
    have named : ¬(7 < n ∨ 24 < address) := by omega
    simp only [m, State.delegateCounter, named, ↓reduceIte]
    by_cases none : address = 0
    · simp only [none, ↓reduceIte]
      exact done_onCtb routine
    · obtain ⟨-, other, present⟩ := ok.resolve_left none
      have there : address ≠ (s.taken rest).ybi.ownAddress ∧ (s.taken rest).isPresent address = true := ⟨other, present⟩
      simp only [none, there, ↓reduceIte, ne_eq, not_false_eq_true, and_self]
      exact done_onCtb routine

end Sys2Proof.Proofs.Requests
end

section
/-! The slots, the sending of frames and the bus timers (O14, O15, O16), the rail and the converter (O13), and the slow
timers of the survey and the lamp (O50). -/

set_option Elab.async false

namespace Sys2Proof.Proofs.Timers

open Sys2Proof Sys2Proof.Machine Sys2Proof.Proofs.Steps

variable {s : State}

/-! ### A timer that runs out -/

theorem onExpiry_some {x : Timer} {d : Nat} {f : State → State} (h : x = some d) : s.onExpiry x f = f (s.reach d) := by
  rw [h]
  rfl

theorem reach_now {d : Nat} (h : s.now ≤ d) : (s.reach d).now = d := by
  unfold State.reach
  split
  · exact Nat.le_antisymm h ‹_›
  · rfl

/-- Outside SHOWTIME time moves the clock alone. -/
theorem reach_of_le {d : Nat} (h : s.now ≤ d) (away : s.lle.link ≠ .showtime) : s.reach d = { s with now := d } := by
  unfold State.reach
  split
  · rename_i past
    obtain rfl : d = s.now := Nat.le_antisymm past h
    rfl
  · rfl

/-! ### The slow timers -/

/-- A change of the survey while it does not run disturbs nothing, whatever it does to the hold-off. -/
theorem onLth_undisturbed {f : Lth → Lth} {t : State} (calm : Undisturbed t s) (idle : t.lth.stage = .none)
    (stage : (f t.lth).stage = t.lth.stage) (running : (f t.lth).running = t.lth.running) :
    Undisturbed (t.onLth f) s := by
  refine ⟨calm.supply, calm.calls, calm.ready, calm.presence, calm.portA, calm.portB, calm.burst, calm.episodes,
    calm.driven, calm.line, calm.link, stage.trans calm.stage, running.trans calm.running, fun ready => ?_⟩
  have ready' := calm.phase ready
  simp [State.phaseReady, idle] at ready'

/-- Settles O50: each timer changes its own fields, which nothing follows. -/
theorem slowTimersExpire : Obligations.SlowTimersExpire := by
  intro d s idle
  have passed : Undisturbed (s.reach d) s := reach_undisturbed d s
  have idle' : (s.reach d).lth.stage = .none := passed.stage.trans idle
  have lth : (s.reach d).lth = s.lth := by unfold State.reach; split <;> rfl
  have flt : (s.reach d).flt = s.flt := by unfold State.reach; split <;> rfl
  refine ⟨fun timer => ?_, fun timer => ?_, fun timer => ?_, fun timer => ?_⟩
  · show execHoldOffExpiry s = _
    rw [execHoldOffExpiry, onExpiry_some timer, finish_undisturbed (onLth_undisturbed passed idle' rfl rfl)]
  · show execPeriodicCheckExpiry s = _
    rw [execPeriodicCheckExpiry, onExpiry_some timer, finish_undisturbed (onLth_undisturbed passed idle' rfl rfl)]
    simp only [State.onLth, lth, timer]
    rfl
  · show execRecheckTimerExpiry s = _
    rw [execRecheckTimerExpiry, onExpiry_some timer, finish_undisturbed (onLth_undisturbed passed idle' rfl rfl)]
    simp only [State.onLth, lth, timer]
    rfl
  · show execLampFlashToggle s = _
    rw [execLampFlashToggle, onExpiry_some timer, finish_undisturbed (passed.onFlt rfl)]
    simp only [State.onFlt, flt, timer]
    rfl

/-! ### Slots -/

theorem finish_onYbi {f : Ybi → Ybi} (h : (f s.ybi).presence = s.ybi.presence) :
    finish s (s.onYbi f) = .next (s.onYbi f) :=
  finish_undisturbed ((Undisturbed.refl s).onYbi h)

/-- An own slot on an idle bus takes the effect of the slot. -/
theorem exec_ownSlotBegins {cls : UrgencyClass} (ready : s.cfl.state = .ready) (idle : s.ybi.bus = .idle)
    (low : 1 ≤ s.ybi.ownAddress) (high : s.ybi.ownAddress ≤ 24) :
    exec (.ownSlotBegins cls) s = finish s (s.ownSlot cls) := by
  have counts : s.ybi.bus.isIdle = true := by rw [idle]; rfl
  show execOwnSlotBegins cls s = _
  rw [execOwnSlotBegins, if_pos ⟨ready, counts, low, high⟩]

/-- Settles O14, by the part yielding or not, and by the class. -/
theorem slotsAndYield : Obligations.SlotsAndYield := by
  refine ⟨fun cls f q s ready idle low high head => ⟨fun free => ?_, fun yields within waits => ?_,
    fun yields within urgent => ?_⟩, fun s ends => ⟨fun yields => ?_, ?_⟩⟩
  · have slot : s.ownSlot cls = s.onYbi fun y =>
        { y with bus := .sending cls, slot := y.ownAddress + baseSlot cls, driving := wireLevels y.ownAddress f } := by
      cases cls <;> simp_all [State.ownSlot, State.onYbi, Ybi.queue]
    rw [exec_ownSlotBegins ready idle low high, slot, finish_onYbi rfl]
  · have slot : s.ownSlot cls = s.onYbi fun y => { y with slot := y.ownAddress + baseSlot cls } := by
      cases cls <;> simp_all [State.ownSlot, State.onYbi, Ybi.queue]
    rw [exec_ownSlotBegins ready idle low high, slot, finish_onYbi rfl]
  · subst urgent
    have slot : s.ownSlot .urgent = s.onYbi fun y =>
        { y with bus := .sending .urgent, slot := y.ownAddress + baseSlot .urgent,
                 driving := wireLevels y.ownAddress f } := by
      simp_all [State.ownSlot, State.onYbi, Ybi.queue]
    rw [exec_ownSlotBegins ready idle low high, slot, finish_onYbi rfl]
  · have free : s.ybi.bus.isIdle = true := by rcases ends with h | h <;> rw [h] <;> rfl
    show execYieldEnd s = _
    rw [execYieldEnd, if_pos ⟨yields, free⟩, finish_onYbi rfl]
  · have free : s.ybi.bus.isIdle = true := by rcases ends with h | h <;> rw [h] <;> rfl
    show execAnotherStationStartBit s = _
    rw [execAnotherStationStartBit, if_pos free, finish_onYbi rfl]

/-! ### The frame that is being sent leaves its queue -/

/-- The block after the head frame of a class has left its queue for `q`. -/
def gone (cls : UrgencyClass) (q : List TxFrame) (b : BusState) (n : Nat) (y : Ybi) : Ybi :=
  { y.setQueue cls q with bus := b, slot := 0, yielding := true, driving := [], collisions := n }

theorem gone_presence (cls : UrgencyClass) (q : List TxFrame) (b : BusState) (n : Nat) (y : Ybi) :
    (gone cls q b n y).presence = y.presence := by
  cases cls <;> rfl

theorem gone_stream (cls : UrgencyClass) (q : List TxFrame) (b : BusState) (n : Nat) (y : Ybi) :
    (gone cls q b n y).stream = y.stream := by
  cases cls <;> rfl

/-- The head frame leaves a queue that holds it. -/
theorem headLeaves_eq {cls : UrgencyClass} {b : BusState} {n : Nat} {f : TxFrame} {q : List TxFrame}
    (head : s.ybi.queue cls = f :: q) : s.headLeaves cls b n = s.onYbi (gone cls q b n) := by
  simp only [State.headLeaves, State.onYbi, gone, head, List.drop_succ_cons, List.drop_zero]

theorem pumpStream_none (idle : s.ybi.stream = none) : s.pumpStream = s := by
  simp only [State.pumpStream, idle]

theorem handOwed_none (owed : s.flt.owed = []) : s.handOwed = s := by
  simp only [State.handOwed, owed]

/-- Nothing waits for the place of a frame that leaves. -/
theorem afterLeaving_plain {cls : UrgencyClass} {f : TxFrame}
    (plain : cls = .routine → s.flt.owed = [] ∧ s.ybi.stream = none) : s.afterLeaving cls (some f) = s := by
  cases cls with
  | urgent => rfl
  | call => rfl
  | routine =>
    obtain ⟨owed, idle⟩ := plain rfl
    simp only [State.afterLeaving]
    split
    · rw [handOwed_none (by exact owed), pumpStream_none (by simp [State.onYbi, idle])]
      simp only [State.onYbi, idle, Option.map_none]
      rw [← idle]
    · rw [handOwed_none owed, pumpStream_none idle]

/-- The next frame of a stream takes the place of one that leaves; a stream without one ends (R11). -/
theorem afterLeaving_streamed {f : TxFrame} {l : List TxFrame} (streamed : f.streamed = true) (owed : s.flt.owed = [])
    (runs : s.ybi.stream = some { rest := l, inQueue := true }) (room : s.ybi.routine.length < 8) :
    s.afterLeaving .routine (some f) = s.onYbi fun y =>
      { y with
        routine := y.routine ++ l.take 1
        stream := if l = [] then none else some { rest := l.drop 1, inQueue := true } } := by
  simp only [State.afterLeaving, Option.any_some, streamed, ↓reduceIte]
  rw [handOwed_none (by exact owed)]
  cases l with
  | nil => simp [State.pumpStream, State.onYbi, runs]
  | cons g l => simp [State.pumpStream, State.onYbi, runs, Config.queueCapacity, room]

/-- FRAME_SENT while the head frame of a queue is being sent. -/
theorem execFrameSent_sending {cls : UrgencyClass} {f : TxFrame} {q : List TxFrame} (sending : s.ybi.bus = .sending cls)
    (head : s.ybi.queue cls = f :: q) :
    exec .frameSent s =
      finish s (((s.onYbi (gone cls q .sent 0)).markReported (some f)).afterLeaving cls (some f)) := by
  show execFrameSent s = _
  simp only [execFrameSent, sending, head, List.head?_cons, headLeaves_eq head]

/-- COLLISION while the head frame of a queue is being sent, short of the third in a row. -/
theorem execCollision_sending {cls : UrgencyClass} {f : TxFrame} {q : List TxFrame} (sending : s.ybi.bus = .sending cls)
    (head : s.ybi.queue cls = f :: q) (few : s.ybi.collisions < 2) :
    exec .collision s =
      finish s ((s.onYbi (gone cls q .aborted (s.ybi.collisions + 1))).afterLeaving cls (some f)) := by
  have count : min 3 (s.ybi.collisions + 1) = s.ybi.collisions + 1 := by omega
  have short : s.ybi.collisions + 1 ≠ 3 := by omega
  show execCollision s = _
  simp only [execCollision, sending, head, List.head?_cons, count, short, ↓reduceIte, headLeaves_eq head]

/-- A read-back touches the mark of reported alone. -/
theorem reportedBy_eq (x : FaultTag) (f : Flt) :
    f.reportedBy x = { f with entries := f.entries.map fun e =>
      if e.key = x.key ∧ e.notice = x.notice then { e with reported := true } else e } := by
  simp only [Flt.reportedBy, Flt.update]
  congr 2
  funext e
  by_cases key : e.key = x.key <;> simp [key]

theorem reportedBy_isActive (x : FaultTag) (f : Flt) (k : FaultKey) : (f.reportedBy x).isActive k = f.isActive k :=
  Table.isActive_update_same (fun e => by split <;> rfl) (fun e => by split <;> rfl)

/-- In listen-only a fault is told nobody (R186). -/
theorem notice_mute {k : FaultKey} (mute : s.ybi.listenOnly = true) : s.notice k = s := by
  unfold State.notice
  split
  · rfl
  · split
    · exact if_pos mute
    · exact if_pos mute

/-- In listen-only a raise changes the fault table alone. -/
theorem raise_mute {c : FaultCode} {x : FaultSource} (mute : s.ybi.listenOnly = true) :
    s.raise c x = s.onFlt fun f => (f.raised ⟨c, x⟩ s.now s.uptime).1 := by
  simp only [State.raise, State.applyFault]
  split
  · exact notice_mute mute
  · rfl

/-- Nothing waits for the place of the frame that left. -/
theorem gone_plain {cls : UrgencyClass} {q : List TxFrame} {b : BusState} {n : Nat} (f : TxFrame) {g : Flt → Flt}
    (owed : (g s.flt).owed = s.flt.owed) (plain : cls = .routine → s.flt.owed = [] ∧ s.ybi.stream = none) :
    ((s.onYbi (gone cls q b n)).onFlt g).afterLeaving cls (some f) = (s.onYbi (gone cls q b n)).onFlt g :=
  afterLeaving_plain fun routine =>
    ⟨owed.trans (plain routine).1, (gone_stream cls q b n s.ybi).trans (plain routine).2⟩

theorem undisturbed_gone (cls : UrgencyClass) (q : List TxFrame) (b : BusState) (n : Nat) (s : State) :
    Undisturbed (s.onYbi (gone cls q b n)) s :=
  (Undisturbed.refl s).onYbi (gone_presence cls q b n s.ybi)

/-- A collision of a frame for whose place nothing waits. -/
theorem collision_plain {cls : UrgencyClass} {f : TxFrame} {q : List TxFrame} (sending : s.ybi.bus = .sending cls)
    (head : s.ybi.queue cls = f :: q) (plain : cls = .routine → s.flt.owed = [] ∧ s.ybi.stream = none)
    (few : s.ybi.collisions < 2) :
    exec .collision s = .next (s.onYbi (gone cls q .aborted (s.ybi.collisions + 1))) := by
  rw [execCollision_sending sending head few]
  exact (congrArg (finish s) (gone_plain (g := fun x => x) f rfl plain)).trans
    (finish_undisturbed ((undisturbed_gone ..).onFlt rfl))

/-- Settles O15, by what the frame that leaves makes way for; the third collision ends in listen-only. -/
theorem sendingEnds : Obligations.SendingEnds := by
  refine ⟨fun cls f q s sending head untagged plain => ⟨?_, collision_plain sending head plain⟩,
    fun cls f x q s sending head tagged plain => ⟨?_, collision_plain sending head plain⟩,
    fun f q l s sending head untagged streamed owed runs room => ⟨?_, fun few => ?_⟩,
    fun cls s sending third room => ?_⟩
  · rw [execFrameSent_sending sending head]
    simp only [State.markReported, Option.bind_some, untagged]
    exact (congrArg (finish s) (gone_plain (g := fun x => x) f rfl plain)).trans
      (finish_undisturbed ((undisturbed_gone ..).onFlt rfl))
  · rw [execFrameSent_sending sending head]
    simp only [State.markReported, Option.bind_some, tagged]
    rw [gone_plain f (g := Flt.reportedBy x) rfl plain,
      finish_undisturbed ((undisturbed_gone ..).onFlt (reportedBy_isActive x s.flt _))]
    simp only [State.onFlt, reportedBy_eq]
    rfl
  · rw [execFrameSent_sending sending head]
    simp only [State.markReported, Option.bind_some, untagged]
    rw [afterLeaving_streamed streamed (by exact owed) (by exact runs) (by exact room),
      finish_undisturbed ((undisturbed_gone ..).onYbi rfl)]
    rfl
  · rw [execCollision_sending sending head few, afterLeaving_streamed streamed (by exact owed) (by exact runs)
      (by exact room), finish_undisturbed ((undisturbed_gone ..).onYbi rfl)]
    rfl
  · have count : min 3 (s.ybi.collisions + 1) = 3 := by omega
    have exec_eq : exec .collision s =
        finish s (((s.headLeaves cls .aborted 3).enterListenOnly).raise .busAddressConflict .bus) := by
      show execCollision s = _
      simp only [execCollision, sending, count, ↓reduceIte]
    rw [exec_eq, raise_mute rfl]
    refine ⟨_, finish_undisturbed ?_, rfl, ?_, ?_⟩
    · refine Undisturbed.onFlt (Undisturbed.onFlt (Undisturbed.onYbi (Undisturbed.onYbi (Undisturbed.refl s) ?_) rfl) rfl) ?_
      · exact gone_presence cls _ .aborted 3 s.ybi
      · exact Table.raised_other_of_room (by exact room) (by decide)
    · cases cls <;> rfl
    · exact Table.raised_active (by rw [Table.makeRoom_of_room (by exact room)]; exact room)

end Sys2Proof.Proofs.Timers
end

section
/-! What the telling of an event touches: the ROUTINE queue, the backlog timer, the fault table and the counters; and
of the fault table BUS_BACKLOG alone, but for entries that make room for it. -/

set_option Elab.async false

namespace Sys2Proof.Proofs.Telling

open Sys2Proof Sys2Proof.Machine Sys2Proof.Proofs.Steps

variable {s t u : State} {j k : FaultKey}

/-! ### The fault table from one state of it to a later one -/

/-- Every entry of the table has a source that the catalogue gives its code. -/
def Listed (f : Flt) : Prop := ∀ e ∈ f.entries, e.key.listed = true

/-- The fault is ACTIVE, in every entry of it. -/
def Firm (j : FaultKey) (f : Flt) : Prop := f.isActive j = true ∧ ∀ e ∈ f.entries, e.key = j → e.active = true

/-- A fault whose entry eviction never removes (R178). -/
def Safe (j : FaultKey) : Prop := ∀ e : FaultEntry, e.key = j → e.isProtected = true

theorem safe_of_out (h : j.code.severity = .out) : Safe j := fun e key => Table.isProtected_of_out (by rw [key]; exact h)

theorem not_safe_backlog (h : Safe j) : j ≠ backlogKey := by
  rintro rfl
  exact absurd (h (FaultEntry.created backlogKey 0) rfl) (by decide)

/-- From one table to a later one, `k` at the most being raised: no other fault becomes ACTIVE, an ACTIVE one stays
where nothing of it is INACTIVE, one that eviction spares stands as it is, and the sources stay those of the
catalogue. -/
structure Spares (k : FaultKey) (f g : Flt) : Prop where
  le : ∀ j, j ≠ k → g.isActive j = true → f.isActive j = true
  firm : ∀ j, j ≠ k → Firm j f → Firm j g
  safe : ∀ j, j ≠ k → Safe j → g.isActive j = f.isActive j
  listed : k.listed = true → Listed f → Listed g

theorem Spares.refl (k : FaultKey) (f : Flt) : Spares k f f :=
  ⟨fun _ _ h => h, fun _ _ h => h, fun _ _ _ => rfl, fun _ h => h⟩

theorem Spares.trans {f g h : Flt} (a : Spares k f g) (b : Spares k g h) : Spares k f h :=
  ⟨fun j x y => a.le j x (b.le j x y), fun j x y => b.firm j x (a.firm j x y),
    fun j x y => (b.safe j x y).trans (a.safe j x y), fun x y => b.listed x (a.listed x y)⟩

theorem Spares.of_entries {f g : Flt} (k : FaultKey) (h : g.entries = f.entries) : Spares k f g := by
  have same (j : FaultKey) : g.isActive j = f.isActive j := by simp only [Flt.isActive, h]
  exact ⟨fun j _ x => same j ▸ x, fun j _ x => ⟨(same j).trans x.1, h ▸ x.2⟩, fun j _ _ => same j, fun _ x => by
    unfold Listed
    rw [h]
    exact x⟩

/-- A fault of the lowest severity takes the place of an INACTIVE entry alone. -/
theorem firm_makeRoom_notice {f : Flt} (firm : Firm j f) : ∀ e ∈ f.entries, e.key = j → e ∈ (f.makeRoom .notice).entries := by
  intro e mem key
  unfold Flt.makeRoom
  split
  · exact mem
  · split
    · rename_i x oldest
      obtain ⟨old, chosen⟩ := oldestOf_some oldest
      simp only [Bool.and_eq_true, Bool.not_eq_true'] at chosen
      have apart : e.key ≠ x.key := fun same => by
        rw [firm.2 x old (same.symm.trans key)] at chosen
        exact absurd chosen.1 (by decide)
      exact List.mem_filter.mpr ⟨mem, by simpa using apart⟩
    · exact mem

/-- Every entry of a table after a raise is one of before, changed under its own key, or is the fault's own. -/
theorem raised_entries {f : Flt} {now up : Nat} {e : FaultEntry} (mem : e ∈ (f.raised k now up).1.entries) :
    (∃ x ∈ f.entries, x.key = e.key ∧ (e.key ≠ k → e = x)) ∨ e.key = k := by
  by_cases own : e.key = k
  · exact .inr own
  · refine .inl ?_
    cases found : f.find k with
    | some x =>
      have updated : ∃ g : FaultEntry → FaultEntry, (∀ x, (g x).key = x.key) ∧
          (f.raised k now up).1.entries = f.entries.map fun x => if x.key = k then g x else x := by
        unfold Flt.raised
        rw [found]
        dsimp only
        split
        · refine ⟨fun x => { { x with
              active := true, occurrences := min Config.occurrencesMax (x.occurrences + 1), lastChange := up } with
            reported := false, notice := f.notices + 1 }, fun _ => rfl, ?_⟩
          simp only [resummarise_entries, Flt.callForNotice, Flt.update, List.map_map]
          refine List.map_congr_left fun x _ => ?_
          by_cases h : x.key = k <;> simp [h]
        · split
          · refine ⟨fun x => { { x with
                active := true, occurrences := min Config.occurrencesMax (x.occurrences + 1), lastChange := up } with
              reported := false, notice := f.notices + 1 }, fun _ => rfl, ?_⟩
            simp only [Flt.callForNotice, Flt.update, List.map_map]
            refine List.map_congr_left fun x _ => ?_
            by_cases h : x.key = k <;> simp [h]
          · exact ⟨fun x => { x with
              active := true, occurrences := min Config.occurrencesMax (x.occurrences + 1), lastChange := up },
              fun _ => rfl, rfl⟩
      obtain ⟨g, keys, entries⟩ := updated
      rw [entries] at mem
      obtain ⟨x, old, rfl⟩ := List.mem_map.mp mem
      by_cases h : x.key = k
      · rw [if_pos h, keys] at own
        exact absurd h own
      · rw [if_neg h]
        exact ⟨x, old, rfl, fun _ => rfl⟩
    | none =>
      by_cases room : (f.makeRoom k.code.severity).entries.length < 16
      · obtain ⟨-, entries, -⟩ := Table.raised_created (now := now) (up := up) found room
        rw [entries] at mem
        rcases List.mem_append.mp mem with old | new
        · exact ⟨e, makeRoom_sub old, rfl, fun _ => rfl⟩
        · rw [List.mem_singleton.mp new] at own
          exact absurd rfl own
      · rw [Table.raised_full found room] at mem
        exact ⟨e, makeRoom_sub mem, rfl, fun _ => rfl⟩

theorem raised_listed {f : Flt} {now up : Nat} (own : k.listed = true) (h : Listed f) : Listed (f.raised k now up).1 := by
  intro e mem
  rcases raised_entries mem with ⟨x, old, key, -⟩ | key
  · rw [← key]
    exact h x old
  · rw [key]
    exact own

/-- A raise of a fault for which nothing ACTIVE makes room. -/
theorem spares_raised {f : Flt} {now up : Nat}
    (stays : ∀ j, Firm j f → ∀ e ∈ f.entries, e.key = j → e ∈ (f.makeRoom k.code.severity).entries) :
    Spares k f (f.raised k now up).1 where
  le j other h := Table.raised_other_le other h
  firm j other h := by
    refine ⟨(Table.raised_other_keeps other (stays j h)).trans h.1, fun e mem key => ?_⟩
    rcases raised_entries mem with ⟨x, old, same, stands⟩ | own
    · obtain rfl := stands (key ▸ other)
      exact h.2 e old key
    · exact absurd (key.symm.trans own) other
  safe j other h := Table.raised_other_keeps other fun e mem key => Table.makeRoom_protected mem (h e key)
  listed own h := raised_listed own h

theorem spares_raised_notice {f : Flt} {now up : Nat} (low : k.code.severity = .notice) :
    Spares k f (f.raised k now up).1 :=
  spares_raised fun j h => by
    rw [low]
    exact firm_makeRoom_notice h

theorem spares_raised_room {f : Flt} {now up : Nat} (room : f.entries.length < 16) : Spares k f (f.raised k now up).1 :=
  spares_raised fun j _ e mem _ => by rwa [Table.makeRoom_of_room room]

/-- After a raise that finds a place every entry of the fault is ACTIVE. -/
theorem firm_raised {f : Flt} {now up : Nat} (room : (f.makeRoom k.code.severity).entries.length < 16) :
    Firm k (f.raised k now up).1 := by
  refine ⟨Table.raised_active room, ?_⟩
  cases found : f.find k with
  | some x =>
    unfold Flt.raised
    rw [found]
    have all (g : Flt) (h : ∀ e ∈ g.entries, e.key = k → e.active = true) :
        ∀ e ∈ (g.callForNotice k).entries, e.key = k → e.active = true := by
      intro e mem key
      obtain ⟨x, old, rfl⟩ := List.mem_map.mp mem
      split
      · exact h x old ‹_›
      · rename_i apart
        rw [if_neg apart] at key
        exact absurd key apart
    have raised : ∀ e ∈ (f.update k fun e => { e with
        active := true, occurrences := min Config.occurrencesMax (e.occurrences + 1), lastChange := up }).entries,
        e.key = k → e.active = true := by
      intro e mem key
      obtain ⟨x, old, rfl⟩ := List.mem_map.mp mem
      split
      · rfl
      · rename_i apart
        rw [if_neg apart] at key
        exact absurd key apart
    dsimp only
    split
    · rw [resummarise_entries]
      exact all _ raised
    · split
      · exact all _ raised
      · exact raised
  | none =>
    obtain ⟨-, entries, -⟩ := Table.raised_created (now := now) (up := up) found room
    intro e mem key
    rw [entries] at mem
    rcases List.mem_append.mp mem with old | new
    · exact absurd key (Table.makeRoom_absent found e old)
    · rw [List.mem_singleton.mp new]
      rfl

/-- A making-inactive touches the entries of its own fault alone. -/
theorem spares_madeInactive {f : Flt} {now up : Nat} : Spares k f (f.madeInactive k now up).1 := by
  have from_old (e : FaultEntry) (mem : e ∈ (f.madeInactive k now up).1.entries) :
      ∃ x ∈ f.entries, x.key = e.key ∧ (e.key ≠ k → e = x) := by
    unfold Flt.madeInactive at mem
    split at mem
    · rw [resummarise_entries] at mem
      obtain ⟨y, mem', rfl⟩ := List.mem_map.mp mem
      obtain ⟨x, old, rfl⟩ := List.mem_map.mp mem'
      refine ⟨x, old, ?_⟩
      by_cases own : x.key = k <;> simp [own]
    · exact ⟨e, mem, rfl, fun _ => rfl⟩
  refine ⟨fun j other h => by rwa [madeInactive_isActive other] at h,
    fun j other h => ⟨(madeInactive_isActive other now up f).trans h.1, fun e mem key => ?_⟩,
    fun j other _ => madeInactive_isActive other now up f, fun _ h e mem => ?_⟩
  · obtain ⟨x, old, -, stands⟩ := from_old e mem
    obtain rfl := stands (key ▸ other)
    exact h.2 e old key
  · obtain ⟨x, old, key, -⟩ := from_old e mem
    rw [← key]
    exact h x old

/-! ### Telling -/

/-- The state with other contents of what telling touches outside the URGENT and the CALL queue. -/
def muttered (r : List TxFrame) (b : Timer) (f : Flt) (c : Ctb) (s : State) : State :=
  { s with ybi := { s.ybi with routine := r, backlogTimer := b }, flt := f, ctb := c }

/-- From one state to a later one something has been told in the ROUTINE class, or discarded. -/
structure Mutters (s t : State) : Prop where
  frame : t = muttered t.ybi.routine t.ybi.backlogTimer t.flt t.ctb s
  spares : Spares backlogKey s.flt t.flt

theorem Mutters.refl (s : State) : Mutters s s := ⟨rfl, Spares.refl _ _⟩

theorem Mutters.trans (h : Mutters s t) (g : Mutters t u) : Mutters s u := by
  refine ⟨?_, h.spares.trans g.spares⟩
  have later := g.frame
  rw [h.frame] at later
  exact later

theorem Mutters.ite {c : Prop} [Decidable c] (h : Mutters s t) (g : Mutters s u) : Mutters s (if c then t else u) := by
  split
  · exact h
  · exact g

theorem Mutters.foldl {α : Type} {f : State → α → State} (hf : ∀ s a, Mutters s (f s a)) (l : List α) (s : State) :
    Mutters s (l.foldl f s) := by
  induction l generalizing s with
  | nil => exact Mutters.refl s
  | cons a l ih => exact (hf s a).trans (ih (f s a))

theorem mutters_routine (q : List TxFrame) (s : State) : Mutters s (s.onYbi fun y => { y with routine := q }) :=
  ⟨rfl, Spares.refl _ _⟩

theorem mutters_ctb (f : Ctb → Ctb) (s : State) : Mutters s (s.onCtb f) := ⟨rfl, Spares.refl _ _⟩

theorem mutters_noticeRoutine (e : FaultEntry) (s : State) : Mutters s (s.noticeRoutine e) := by
  obtain ⟨q, o, eq⟩ := noticeRoutine_frame e s
  rw [eq]
  exact ⟨rfl, Spares.of_entries _ rfl⟩

theorem mutters_backlog (s : State) : Mutters s s.backlog := by
  have raised : Mutters s ((s.onFlt fun _ => (s.flt.raised backlogKey s.now s.uptime).1).onYbi fun y =>
      { y with backlogTimer := some (s.now + Config.backlogMs) }) :=
    ⟨rfl, spares_raised_notice rfl⟩
  unfold State.backlog
  dsimp only
  split
  · exact raised.trans (mutters_noticeRoutine _ _)
  · exact raised

theorem mutters_signalFuel (fuel : Nat) (e : Event) (s : State) : Mutters s (State.signalFuel fuel e s) := by
  induction fuel generalizing e s with
  | zero => exact mutters_ctb _ s
  | succ fuel ih =>
    refine (mutters_ctb _ s).trans (Mutters.foldl (fun s p => ?_) _ _)
    unfold State.handWrap
    split
    · exact Mutters.refl s
    · exact Mutters.ite (mutters_routine _ s) ((ih _ s).trans (mutters_backlog _))

theorem mutters_signal (e : Event) (s : State) : Mutters s (s.signal e) := mutters_signalFuel 9 e s

theorem mutters_frameDropped (s : State) : Mutters s s.frameDropped := (mutters_signal _ s).trans (mutters_backlog _)

theorem mutters_handRoutine (f : TxFrame) (s : State) : Mutters s (s.handRoutine f) := by
  unfold State.handRoutine
  split
  · exact Mutters.refl s
  · split
    · exact mutters_routine _ s
    · exact Mutters.ite (mutters_routine _ s) (mutters_frameDropped s)

theorem mutters_lineStatus (s : State) : Mutters s s.lineStatus := mutters_handRoutine _ s

/-! ### Faults of the ROUTINE class -/

/-- The notice of a fault below OUT touches the ROUTINE queue and the owed-notice list. -/
theorem notice_routine (low : k.code.severity ≠ .out) (s : State) :
    ∃ q o, s.notice k = { s with ybi := { s.ybi with routine := q }, flt := { s.flt with owed := o } } := by
  unfold State.notice
  split
  · exact ⟨_, _, rfl⟩
  · rw [if_neg low]
    exact noticeRoutine_frame _ s

/-- A change of the table of a fault below OUT, and what is told of it. -/
theorem applyFault_routine (low : k.code.severity ≠ .out) (r : Flt × Bool) (s : State) :
    ∃ q o, s.applyFault k r = { s with ybi := { s.ybi with routine := q }, flt := { r.1 with owed := o } } := by
  unfold State.applyFault
  dsimp only
  split
  · exact notice_routine low _
  · exact ⟨_, _, rfl⟩

theorem raise_routine {c : FaultCode} (low : c.severity ≠ .out) (x : FaultSource) (s : State) :
    ∃ q o, s.raise c x = { s with ybi := { s.ybi with routine := q }
                                  flt := { (s.flt.raised ⟨c, x⟩ s.now s.uptime).1 with owed := o } } :=
  applyFault_routine (k := ⟨c, x⟩) low _ s

theorem makeInactive_routine {c : FaultCode} (low : c.severity ≠ .out) (x : FaultSource) (s : State) :
    ∃ q o, s.makeInactive c x = { s with ybi := { s.ybi with routine := q }
                                         flt := { (s.flt.madeInactive ⟨c, x⟩ s.now s.uptime).1 with owed := o } } :=
  applyFault_routine (k := ⟨c, x⟩) low _ s

theorem makeRoom_length (v : Severity) (f : Flt) : (f.makeRoom v).entries.length ≤ f.entries.length := by
  rcases Table.makeRoom_entries v f with stands | ⟨x, -, -, gone⟩
  · rw [stands]
  · rw [gone]
    exact List.length_filter_le _ _

/-- A raise adds one entry at the most. -/
theorem raised_length (k : FaultKey) (now up : Nat) (f : Flt) :
    (f.raised k now up).1.entries.length ≤ f.entries.length + 1 := by
  cases found : f.find k with
  | some x =>
    unfold Flt.raised
    rw [found]
    dsimp only
    split
    · simp [Flt.callForNotice, Flt.update]
    · split <;> simp [Flt.callForNotice, Flt.update]
  | none =>
    have smaller := makeRoom_length k.code.severity f
    by_cases room : (f.makeRoom k.code.severity).entries.length < 16
    · rw [(Table.raised_created (now := now) (up := up) found room).2.1, List.length_append, List.length_singleton]
      omega
    · rw [Table.raised_full found room]
      exact Nat.le_succ_of_le smaller

theorem madeInactive_length (k : FaultKey) (now up : Nat) (f : Flt) :
    (f.madeInactive k now up).1.entries.length = f.entries.length := by
  unfold Flt.madeInactive
  split
  · simp [Flt.callForNotice, Flt.update]
  · rfl

/-- A fault below OUT joins a table with room and is told. -/
theorem raise_room {c : FaultCode} {x : FaultSource} (low : c.severity ≠ .out) (room : s.flt.entries.length < 16) :
    ∃ q f, s.raise c x = { s with ybi := { s.ybi with routine := q }, flt := f } ∧ Firm ⟨c, x⟩ f ∧
      Spares ⟨c, x⟩ s.flt f ∧ f.entries.length ≤ s.flt.entries.length + 1 := by
  obtain ⟨q, o, told⟩ := raise_routine low x s
  have place : (s.flt.makeRoom c.severity).entries.length < 16 := by
    rw [Table.makeRoom_of_room room]
    exact room
  exact ⟨q, _, told, firm_raised (k := ⟨c, x⟩) place, (spares_raised_room room).trans (.of_entries _ rfl),
    raised_length _ _ _ _⟩

/-- A fault below OUT is made inactive and is told. -/
theorem makeInactive_told {c : FaultCode} {x : FaultSource} (low : c.severity ≠ .out) (s : State) :
    ∃ q f, s.makeInactive c x = { s with ybi := { s.ybi with routine := q }, flt := f } ∧ f.isActive ⟨c, x⟩ = false ∧
      Spares ⟨c, x⟩ s.flt f ∧ (∀ j, j ≠ ⟨c, x⟩ → f.isActive j = s.flt.isActive j) ∧
      f.entries.length = s.flt.entries.length := by
  obtain ⟨q, o, told⟩ := makeInactive_routine low x s
  exact ⟨q, _, told, Table.madeInactive_self, spares_madeInactive.trans (.of_entries _ rfl),
    fun j other => madeInactive_isActive other _ _ _, madeInactive_length _ _ _ _⟩

theorem makeInactive_none {c : FaultCode} {x : FaultSource} (h : s.faultActive c x = false) : s.makeInactive c x = s := by
  have none : s.flt.isActive ⟨c, x⟩ = false := h
  simp [State.makeInactive, State.applyFault, Flt.madeInactive, none, State.onFlt]

end Sys2Proof.Proofs.Telling
end

section
/-! What follows an event that changes the calls and the line while nothing rings; HOOK ON and RELEASE (O18), HOLD
(O19), the timers of the bus and an absent station (O16). -/

set_option Elab.async false

namespace Sys2Proof.Proofs.Calls

open Sys2Proof Sys2Proof.Machine Sys2Proof.Proofs.Steps Sys2Proof.Proofs.Telling Sys2Proof.Proofs.Requests
  Sys2Proof.Proofs.Timers

variable {s t before : State}

/-! ### The line enters another state -/

/-- The state with the line in another state, before LINE_STATUS is sent of it (R119). -/
def relined (x : LineState) (s : State) : State :=
  if s.vsw.line = x then s
  else
    let kept := decide (x = .ringIn) || decide (x = .parallel)
    let s := s.onVsw fun v =>
      let v := if kept then { v with burstOnTimer := none } else v.unsensed
      { v with
        line := x
        repeatQueue := []
        outpulse := none
        inBurst := false
        burstOffTimer := none
        ringEndTimer := none
        releaseTimer := if x = .releasing then some (s.now + Config.releaseGuardMs) else none }
    ((s.senseVoltage).senseRinging).timeHoldOff

/-- Of the outside line, its timers and its digits follow; of the survey the hold-off timer. -/
theorem relined_frame (x : LineState) (s : State) :
    relined x s = { s with
      vsw := { s.vsw with
        line := x
        offHookBandTimer := (relined x s).vsw.offHookBandTimer, onHookBandTimer := (relined x s).vsw.onHookBandTimer
        noFeedTimer := (relined x s).vsw.noFeedTimer, feedTimer := (relined x s).vsw.feedTimer
        burstOnTimer := (relined x s).vsw.burstOnTimer, burstOffTimer := (relined x s).vsw.burstOffTimer
        ringEndTimer := (relined x s).vsw.ringEndTimer, releaseTimer := (relined x s).vsw.releaseTimer
        inBurst := (relined x s).vsw.inBurst, repeatQueue := (relined x s).vsw.repeatQueue
        outpulse := (relined x s).vsw.outpulse }
      lth := { s.lth with holdOffTimer := (relined x s).lth.holdOffTimer } } := by
  by_cases same : s.vsw.line = x
  · subst same
    simp only [relined, ↓reduceIte]
  · cases x <;> simp only [relined, same, ↓reduceIte] <;> rfl

theorem mutters_setLine (x : LineState) (s : State) : Mutters (relined x s) (s.setLine x) := by
  unfold State.setLine relined
  split
  · exact Mutters.refl s
  · exact mutters_lineStatus _

/-- From one state to a later one the line has entered a state, and what that calls for has been told. -/
structure Relines (x : LineState) (s t : State) : Prop where
  frame : t = { s with
    ybi := { s.ybi with routine := t.ybi.routine, backlogTimer := t.ybi.backlogTimer }
    vsw := t.vsw, lth := t.lth, flt := t.flt, ctb := t.ctb }
  line : t.vsw.line = x
  portA : t.vsw.portA = s.vsw.portA
  portB : t.vsw.portB = s.vsw.portB
  episodes : t.vsw.episodes = s.vsw.episodes
  plan : t.vsw.plan = s.vsw.plan
  survey : t.lth = { s.lth with holdOffTimer := t.lth.holdOffTimer }
  spares : Spares backlogKey s.flt t.flt

theorem Relines.of_mutters {x : LineState} (h : Mutters (relined x s) t) : Relines x s t := by
  have line := relined_frame x s
  have told := h.frame
  have vsw : t.vsw = (relined x s).vsw := by rw [told]; rfl
  have lth : t.lth = (relined x s).lth := by rw [told]; rfl
  have spares := h.spares
  constructor
  · rw [told, line]; rfl
  all_goals first | rw [vsw, line] | rw [lth, line] | skip
  rw [line] at spares
  exact spares

theorem relines_setLine (x : LineState) (s : State) : Relines x s (s.setLine x) := .of_mutters (mutters_setLine x s)

/-! ### A table that holds one call -/

section single
variable {c : CallRec}

theorem callOf_single (one : s.cct.calls = [c]) : s.callOf c.id = some c := by
  simp [State.callOf, one]

theorem onCall_single (one : s.cct.calls = [c]) (f : CallRec → CallRec) :
    s.onCall c.id f = s.onCct fun x => { x with calls := [f c] } := by
  simp [State.onCall, State.onCct, one]

theorem liveCallOf_single {e : Endpoint} (one : s.cct.calls = [c]) (live : c.isLive = true) (party : c.hasParty e = true) :
    s.liveCallOf e = some c := by
  simp [State.liveCallOf, one, live, party]

/-- R153: the one OUTSIDE call goes to CLEARING, and the line opens. -/
theorem toClearing_single (one : s.cct.calls = [c]) :
    Relines .releasing (s.onCct fun x => { x with calls := [clearingOf c s.now] }) (s.toClearing c.id) := by
  unfold State.toClearing
  rw [callOf_single one]
  dsimp only
  rw [onCall_single one]
  refine .of_mutters ?_
  split
  · exact (mutters_setLine _ _).trans (mutters_signal _ _)
  · exact mutters_setLine _ _

/-- R153: the one party of the OUTSIDE call in ACTIVE leaves it. -/
theorem leave_single {n : Nat} {p : Party} (one : s.cct.calls = [c]) (outside : c.kind = .outside)
    (active : c.state = .active) (party : c.parties = [p]) (who : p.who = .station n) (plain : c.originator = none) :
    Relines .releasing (s.onCct fun x => { x with calls := [clearingOf c s.now] }) (s.leave c.id (.station n)) := by
  have left : s.leave c.id (.station n) =
      (s.onCct fun x => { x with calls := [{ c with parties := [] }] }).toClearing c.id := by
    unfold State.leave
    simp [callOf_single one, onCall_single one, party, who, outside, active, plain]
  rw [left]
  exact toClearing_single (s := s.onCct fun x => { x with calls := [{ c with parties := [] }] })
    (c := { c with parties := [] }) rfl

end single

/-! ### What follows a change of the call table while nothing rings -/

/-- What an event of the calls may change of a part that is calm: nothing that rings, no port's state, no wait. -/
structure CallsMoved (before t : State) : Prop where
  supply : t.sup = before.sup
  link : t.lle = before.lle
  ready : t.cfl = before.cfl
  portA : t.vsw.portA.state = before.vsw.portA.state
  portB : t.vsw.portB.state = before.vsw.portB.state
  silent : t.vsw.episodes = []
  calls : t.cct.episodes = []
  held : ∀ c ∈ t.cct.calls, c.state = .held → c.rung = none
  survey : t.lth.stage = .none
  changed : t.cct.calls ≠ before.cct.calls

/-- The pair follows the call table, and that is all. -/
theorem finish_calls (calm : before.calm) (h : CallsMoved before t) :
    finish before t = .next (t.onVsw fun v => { v with pairSpeech := t.cct.pairCall }) := by
  obtain ⟨away, -, mains, served, -⟩ := calm
  have still : t.linkStill before = true := by simp [State.linkStill, h.supply, h.link, h.ready]
  have portB : t.servePortB = t := by
    simp [State.servePortB, h.supply, mains, h.portB, served]
  unfold finish
  rw [settle_calls (congrArg Sup.supply h.supply) h.portA h.portB portB h.held h.silent h.calls
    (congrArg (fun p => p.converter.burst) h.supply) (by rw [h.link]; exact away) still (by simp [h.survey])
    (by simp [h.survey]) h.changed]

theorem episode_clearingOf (c : CallRec) (now : Nat) : (clearingOf c now).episode = none := by
  unfold CallRec.episode
  cases c.kind <;> rfl

/-- The one call of the table has gone to CLEARING. -/
theorem CallsMoved.of_cleared {c : CallRec} {now : Nat} (calm : before.calm)
    (h : Relines .releasing (s.onCct fun x => { x with calls := [clearingOf c now] }) t)
    (sup : s.sup = before.sup) (lle : s.lle = before.lle) (cfl : s.cfl = before.cfl) (vsw : s.vsw = before.vsw)
    (lth : s.lth = before.lth) (changed : before.cct.calls ≠ [clearingOf c now]) : CallsMoved before t := by
  have cct : t.cct.calls = [clearingOf c now] := by rw [h.frame]; rfl
  obtain ⟨-, silent, -, -, idle⟩ := calm
  refine ⟨by rw [h.frame]; exact sup, by rw [h.frame]; exact lle, by rw [h.frame]; exact cfl,
    by rw [h.portA]; exact congrArg (·.portA.state) vsw, by rw [h.portB]; exact congrArg (·.portB.state) vsw,
    h.episodes.trans ((congrArg Vsw.episodes vsw).trans silent), ?_, ?_, ?_, by rw [cct]; exact changed.symm⟩
  · simp [Cct.episodes, cct, episode_clearingOf]
  · simp [cct]
  · rw [h.survey]
    exact (congrArg Lth.stage lth).trans idle

theorem pairCall_cleared {x : Cct} {c : CallRec} {now : Nat} (h : x.calls = [clearingOf c now]) : x.pairCall = none := by
  simp [Cct.pairCall, h, CallRec.usesPair, CallRec.isLive]

/-! ### The one party leaves, and the owner holds -/

theorem changed_of_state {c x : CallRec} (one : before.cct.calls = [c]) (other : c.state ≠ x.state) :
    before.cct.calls ≠ [x] := by
  rw [one]
  intro same
  exact other (congrArg CallRec.state (List.head_eq_of_cons_eq same))

/-- R150: an OUTSIDE call offers nobody a transfer. -/
theorem depart_outside {c : CallRec} {e : Endpoint} (one : s.cct.calls = [c]) (outside : c.kind = .outside) :
    s.depart c.id e = s.leave c.id e := by
  have none : s.transferOf c e = none := by
    unfold State.transferOf
    split
    · exact if_neg (by simp [outside])
    · rfl
  simp [State.depart, callOf_single one, none]

/-- What stands when the one call has been cleared at a request of its party. -/
theorem cleared_request {c : CallRec} {rest : List Delivered} (calm : s.calm) (one : s.cct.calls = [c])
    (open_ : c.state ≠ .clearing)
    (cleared : Relines .releasing ((s.taken rest).onCct fun x => { x with calls := [clearingOf c s.now] }) t)
    {y : Ybi → Ybi} (presence : (y t.ybi).presence = t.ybi.presence) (buffer : (y t.ybi).rxBuffer = t.ybi.rxBuffer) :
    ∃ u, finish s (t.onYbi y) = .next u ∧
      u = { s with ybi := u.ybi, vsw := u.vsw, cct := u.cct, lth := u.lth, flt := u.flt, ctb := u.ctb } ∧
      u.cct = { s.cct with calls := [clearingOf c s.now] } ∧ u.vsw.line = .releasing ∧
      u.vsw.pairSpeech = none ∧ u.ybi.rxBuffer = rest ∧ u.ybi.presence = s.ybi.presence ∧ u.ybi.call = (y t.ybi).call := by
  have frame := cleared.frame
  have cct : t.cct = { s.cct with calls := [clearingOf c s.now] } := by rw [frame]; rfl
  have moved : CallsMoved s t :=
    .of_cleared (s := s.taken rest) calm cleared rfl rfl rfl rfl rfl (changed_of_state one open_)
  have moved' : CallsMoved s (t.onYbi y) := ⟨moved.supply, moved.link, moved.ready, moved.portA, moved.portB, moved.silent,
    moved.calls, moved.held, moved.survey, moved.changed⟩
  refine ⟨_, finish_calls calm moved', ?_, cct, cleared.line, pairCall_cleared (by rw [State.onYbi_cct, cct]), ?_, ?_, rfl⟩
  · rw [frame]; rfl
  · exact buffer.trans (by rw [frame]; rfl)
  · exact presence.trans (by rw [frame]; rfl)

/-- Settles O18: the party of an ACTIVE call departs, the holder of a HELD one releases it. -/
theorem leavingClearsTheCall : Obligations.LeavingClearsTheCall := by
  intro d rest c p s calm head room one outside plain party who
  have one' : (s.taken rest).cct.calls = [c] := one
  have hasParty : c.hasParty (.station d.src) = true := by simp [CallRec.hasParty, party, who]
  have owner : c.owner = some (.station d.src) := by simp [CallRec.owner, party, who]
  refine ⟨fun m active => ?_, fun m open_ => ?_⟩
  · have live : c.isLive = true := by simp [CallRec.isLive, active]
    have cleared := leave_single one' outside active party who plain
    have served : s.serve isHookOn State.hookOn = (s.taken rest).leave c.id (.station d.src) := by
      rw [serve_heads head (by simp [isHookOn, m])]
      simp [State.hookOn, m, liveCallOf_single one' live hasParty, depart_outside one' outside]
    obtain ⟨u, next, frame, cct, line, pair, buffer, presence, -⟩ :=
      cleared_request calm one (by simp [active]) cleared (y := fun y => y) rfl rfl
    refine ⟨u, ?_, frame, cct, line, pair, buffer, presence⟩
    show execHookOn s = _
    rw [execHookOn, served]
    exact next
  · have cleared : ∃ t, Relines .releasing ((s.taken rest).onCct fun x => { x with calls := [clearingOf c s.now] }) t ∧
        (s.taken rest).releaseCall d.src c = some t := by
      rcases open_ with active | held
      · refine ⟨_, leave_single one' outside active party who plain, ?_⟩
        simp [State.releaseCall, CallRec.isLive, active, hasParty, depart_outside one' outside]
      · refine ⟨_, toClearing_single one', ?_⟩
        simp [State.releaseCall, CallRec.isLive, held, owner]
    obtain ⟨t, cleared, released⟩ := cleared
    have still : c.state ≠ .clearing := by rcases open_ with h | h <;> simp [h]
    have served : s.serve isRelease State.takeRelease = t.handCall (releaseFrame d.src c.id) := by
      rw [serve_heads head (by simp [isRelease, m])]
      simp [State.takeRelease, m, Message.callId, callOf_single one', still, released]
    have told : t.handCall (releaseFrame d.src c.id) =
        t.onYbi fun y => { y with call := y.call ++ [releaseFrame d.src c.id] } :=
      handCall_room (by
        have frame := cleared.frame
        unfold State.callRoom
        rw [frame]
        exact room)
    obtain ⟨u, next, frame, cct, line, pair, buffer, presence, call⟩ :=
      cleared_request calm one still cleared (y := fun y => { y with call := y.call ++ [releaseFrame d.src c.id] }) rfl rfl
    refine ⟨u, ?_, frame, cct, line, pair, buffer, ?_, presence⟩
    · show execRelease s = _
      rw [execRelease, served, told]
      exact next
    · rw [call]
      exact List.mem_append_right _ (List.mem_singleton_self _)

/-- The one OUTSIDE call, held by the station that owns it. -/
abbrev heldOf (c : CallRec) (n token now : Nat) : CallRec :=
  { c with
    state := .held, parties := [{ who := .station n, mark := .holder }], rung := none, saved := none
    hold := some (Hold.fresh token now) }

/-- R147: a call whose one party is a station is made HELD, and the station is told. -/
theorem makeHeld_single {c : CallRec} {p : Party} {n : Nat} (one : s.cct.calls = [c]) (party : c.parties = [p])
    (who : p.who = .station n) (room : s.callRoom) :
    s.makeHeld c.id =
      (((s.onYbi fun y => { y with call := y.call ++ [heldFrame n c.id s.cct.nextToken 1] }).onCct fun x =>
        { x with nextToken := nextToken x.nextToken, calls := [heldOf c n s.cct.nextToken s.now] }).onVsw fun v =>
          { v with repeatQueue := [], outpulse := v.outpulse.map (Outpulse.cut s.now) }) := by
  unfold State.makeHeld
  simp only [callOf_single one, party, who, List.foldl_nil]
  rw [onCall_single (s := s.onCct fun x => { x with nextToken := nextToken s.cct.nextToken }) one, handCall_room (by exact room)]
  rfl

/-- Settles O19: the flash and the request both hold the call. -/
theorem holdingKeepsTheCall : Obligations.HoldingKeepsTheCall := by
  intro i d rest c p s calm head room one outside active party who request
  have one' : (s.taken rest).cct.calls = [c] := one
  have hasParty : c.hasParty (.station d.src) = true := by simp [CallRec.hasParty, party, who]
  have owner : c.owner = some (.station d.src) := by simp [CallRec.owner, party, who]
  have live : c.isLive = true := by simp [CallRec.isLive, active]
  have served : exec i s = finish s ((s.taken rest).makeHeld c.id) := by
    rcases request with ⟨rfl, m⟩ | ⟨rfl, m⟩
    · show execHookFlash s = _
      rw [execHookFlash, serve_heads head (by simp [isHookFlash, m])]
      simp [State.hookFlash, liveCallOf_single one' live hasParty, outside, active, owner]
    · show execHold s = _
      rw [execHold, serve_heads head (by simp [isHold, m])]
      simp [State.takeHold, m, Message.callId, callOf_single one', active, State.holdCall, outside, owner]
  have moved : CallsMoved s ((s.taken rest).makeHeld c.id) := by
    rw [makeHeld_single one' party who room]
    refine ⟨rfl, rfl, rfl, rfl, rfl, calm.2.1, ?_, ?_, calm.2.2.2.2,
      (changed_of_state (x := heldOf c d.src s.cct.nextToken s.now) one (by simp [active])).symm⟩
    · simp [Cct.episodes, CallRec.episode, outside]
    · simp
  rw [served, finish_calls calm moved, makeHeld_single one' party who room]
  simp [Cct.pairCall, CallRec.usesPair, CallRec.isLive]
  rfl

/-! ### The presence table moves while nothing rings -/

/-- All that settling looks at outside the presence table is as the command found it, and no survey waits. -/
structure Elsewhere (before t : State) : Prop where
  supply : t.sup = before.sup
  calls : t.cct.calls = before.cct.calls
  ready : t.cfl = before.cfl
  line : t.vsw = before.vsw
  link : t.linkStill before = true
  held : ∀ c ∈ t.cct.calls, c.state ≠ .held
  ring : ringFields t.ybi.presence = ringFields before.ybi.presence ∨ t.vsw.episodes = []
  survey : t.lth.stage = before.lth.stage ∧ t.lth.running = before.lth.running ∧
    (before.phaseReady = true → t.phaseReady = true)

theorem finish_elsewhere (h : Elsewhere before t) : finish before t = .next t := by
  have link : t.lle.link = before.lle.link := by
    have still := h.link
    simp only [State.linkStill, Bool.and_eq_true, decide_eq_true_eq] at still
    tauto
  have supply := congrArg Sup.supply h.supply
  have ready := congrArg Cfl.state h.ready
  have portA := congrArg (fun v => v.portA.state) h.line
  have portB := congrArg (fun v => v.portB.state) h.line
  have ringing : t.settleRinging before = t := by
    rcases h.ring with fields | silent
    · exact settleRinging_same h.calls supply portA portB fields (congrArg Vsw.inBurst h.line)
        (congrArg Vsw.episodes h.line)
    · exact settleRinging_silent h.calls supply portA portB silent
  obtain ⟨stage, running, phase⟩ := h.survey
  unfold finish State.settle
  simp only [settlePortB_same supply h.calls ready, settleRecall_noHeld h.held, ringing,
    settlePair_same h.calls (congrArg (fun p => p.converter.burst) h.supply),
    settleGuard_same (congrArg Vsw.line h.line) (fun a => link ▸ a), settleLink_same h.link,
    settleWait_same stage running phase]

/-! ### The timers of the bus, and a station that is absent (O16) -/

theorem entryOf_onEntry {n : Nat} {e : PresenceEntry} {g : PresenceEntry → PresenceEntry}
    (address : ∀ e, (g e).address = e.address) (found : s.entryOf n = some e) :
    (s.onEntry n g).entryOf n = some (g e) := by
  have there : e.address = n := by simpa using List.find?_some found
  have same : ((fun e : PresenceEntry => e.address == n) ∘ fun e => if e.address = n then g e else e) =
      fun e => e.address == n := by
    funext x
    by_cases h : x.address = n <;> simp [h, address]
  have search : s.ybi.presence.find? (fun e => e.address == n) = some e := found
  show (s.ybi.presence.map fun e => if e.address = n then g e else e).find? (fun e => e.address == n) = _
  rw [List.find?_map, same, search]
  simp [there]

/-- A change of what the calls keep outside the table goes along with the line's. -/
theorem Relines.onCct {x : LineState} {g : Cct → Cct} (h : Relines x s t) : Relines x (s.onCct g) (t.onCct g) := by
  have frame : t.onCct g = { s.onCct g with
      ybi := { s.ybi with routine := t.ybi.routine, backlogTimer := t.ybi.backlogTimer }
      vsw := t.vsw, lth := t.lth, flt := t.flt, ctb := t.ctb } := by
    have cct : t.cct = s.cct := by rw [h.frame]
    unfold State.onCct
    rw [cct]
    conv_lhs => rw [h.frame]
  exact ⟨frame, h.line, h.portA, h.portB, h.episodes, h.plan, h.survey, h.spares⟩

/-- The claims of a station that has gone leave both lists. -/
def unclaiming (n : Nat) (c : Cct) : Cct :=
  { c with
    deferred := c.deferred.filter (fun x => !decide (x.endpoint = .station n))
    pendingAny := c.pendingAny.filter (fun p => p.station != n) }

/-- A station that has gone while it is in no call, and none rings it. -/
theorem stationGone_free {n : Nat} (free : (s.onCct (unclaiming n)).liveCallOf (.station n) = none)
    (apart : ∀ c ∈ s.cct.calls, c.kind ≠ .intercom) : s.stationGone n none = s.onCct (unclaiming n) := by
  have dropped : ((s.dropDeferred n).onCct fun c =>
      { c with pendingAny := c.pendingAny.filter (fun p => p.station != n) }) = s.onCct (unclaiming n) := rfl
  have rung : (s.onCct (unclaiming n)).cct.calls.filter (fun c => decide (c.kind = .intercom) && decide (c.state = .setup) &&
      decide (c.rung = some (.station n))) = [] := by
    rw [List.filter_eq_nil_iff]
    intro c mem
    simp [apart c mem]
  unfold State.stationGone
  simp only [dropped, free, rung, List.foldl_nil]

/-- The one OUTSIDE call of a station that has gone. -/
theorem stationGone_single {n : Nat} {c : CallRec} {m : PartyMark} {x : Option GrantExpectation} (one : s.cct.calls = [c])
    (outside : c.kind = .outside) (active : c.state = .active) (plain : c.originator = none) (unsaved : c.saved = none)
    (party : c.parties = [{ who := .station n, mark := m }]) (granted : ∀ g, x = some g → g.callId = c.id) :
    Relines .releasing ((s.onCct (unclaiming n)).onCct fun x => { x with calls := [clearingOf c s.now] })
      (s.stationGone n x) := by
  have live : c.isLive = true := by simp [CallRec.isLive, active]
  have hasParty : c.hasParty (.station n) = true := by simp [CallRec.hasParty, party]
  cases x with
  | none =>
    have dropped : ((s.dropDeferred n).onCct fun c =>
        { c with pendingAny := c.pendingAny.filter (fun p => p.station != n) }) = s.onCct (unclaiming n) := rfl
    have one' : (s.onCct (unclaiming n)).cct.calls = [c] := one
    have left := leave_single one' outside active party rfl plain
    have cct := congrArg (fun t => t.cct.calls) left.frame
    have rung : ((s.onCct (unclaiming n)).leave c.id (.station n)).cct.calls.filter (fun c =>
        decide (c.kind = .intercom) && decide (c.state = .setup) && decide (c.rung = some (.station n))) = [] := by
      simp [cct, outside]
    unfold State.stationGone
    simp only [dropped, liveCallOf_single one' live hasParty, rung, List.foldl_nil]
    exact left
  | some g =>
    have left := leave_single one outside active party rfl plain
    have cct := congrArg (fun t => t.cct.calls) left.frame
    have undone : s.undoGrant n g.callId = s.leave c.id (.station n) := by
      rw [granted g rfl]
      simp [State.undoGrant, callOf_single one, CallRec.owner, party, unsaved, outside]
    have gone : s.stationGone n (some g) = (s.leave c.id (.station n)).stationGone n none := by
      show _ = _
      unfold State.stationGone
      simp only [undone]
    rw [gone, stationGone_free]
    · exact (left.onCct (g := unclaiming n) :)
    · simp [State.liveCallOf, State.onCct, unclaiming, cct, CallRec.isLive]
    · simp [cct, outside]

/-- A queue without a frame that the test picks has none to replace. -/
theorem replaceUnsent_none {b : Bool} {p : TxFrame → Bool} {f : TxFrame} {q : List TxFrame} (h : ∀ x ∈ q, p x = false) :
    replaceUnsent b p f q = none := by
  have rest : (if b then q.drop 1 else q).any p = false := by
    rw [List.any_eq_false]
    intro x mem
    have old : x ∈ q := by
      split at mem
      · exact List.mem_of_mem_drop mem
      · exact mem
    simp [h x old]
  unfold replaceUnsent
  dsimp only
  rw [rest]
  rfl

theorem backlog_ends {d : Nat} (timer : s.ybi.backlogTimer = some d) :
    ∃ t, exec .backlogTimerExpiry s = .next t ∧ t = { s.reach d with ybi := t.ybi, flt := t.flt } ∧
      t.ybi = { s.ybi with backlogTimer := none, routine := t.ybi.routine } ∧ t.faultActive .busBacklog .bus = false := by
  have ybi : (s.reach d).ybi = s.ybi := by unfold State.reach; split <;> rfl
  obtain ⟨q, o, told⟩ := makeInactive_routine (c := .busBacklog) (by decide) .bus
    ((s.reach d).onYbi fun y => { y with backlogTimer := none })
  have calm : Undisturbed (((s.reach d).onYbi fun y => { y with backlogTimer := none }).makeInactive .busBacklog .bus) s := by
    rw [told]
    exact (Undisturbed.onYbi (f := fun y => { y with backlogTimer := none, routine := q }) (reach_undisturbed d s) rfl).onFlt
      (f := fun f => { (f.madeInactive ⟨.busBacklog, .bus⟩ (s.reach d).now (s.reach d).uptime).1 with owed := o })
      (madeInactive_isActive (by decide) _ _ _)
  refine ⟨((s.reach d).onYbi fun y => { y with backlogTimer := none }).makeInactive .busBacklog .bus, ?_, ?_, ?_, ?_⟩
  · show execBacklogTimerExpiry s = _
    rw [execBacklogTimerExpiry, onExpiry_some timer, finish_undisturbed calm]
  · rw [told]; rfl
  · rw [told]
    exact congrArg (fun y : Ybi => { y with backlogTimer := .none, routine := q }) ybi
  · rw [told]
    exact Table.madeInactive_self

theorem presence_sent {d : Nat} (timer : s.ybi.presenceTimer = some d) (room : s.routineRoom)
    (fresh : ∀ f ∈ s.ybi.routine, f.kind ≠ .presence) :
    exec .presenceTimerExpiry s = .next ((s.reach d).onYbi fun y =>
      { y with presenceTimer := some (d + 10000), routine := y.routine ++ [presenceFrame] }) := by
  have ybi : (s.reach d).ybi = s.ybi := by unfold State.reach; split <;> rfl
  have unsent (b : Bool) : replaceUnsent b (fun x => decide (x.kind = .presence)) presenceFrame s.ybi.routine = none :=
    replaceUnsent_none fun x mem => by simpa using fresh x mem
  have handed : ((s.reach d).onYbi fun y => { y with presenceTimer := restart y.presenceTimer Config.presenceMs }).handRoutine
      presenceFrame = (s.reach d).onYbi fun y =>
        { y with presenceTimer := some (d + 10000), routine := y.routine ++ [presenceFrame] } := by
    simp [State.handRoutine, State.onYbi, ybi, room.1, room.2, unsent, timer, restart, Config.presenceMs]
  show execPresenceTimerExpiry s = _
  rw [execPresenceTimerExpiry, onExpiry_some timer, handed]
  exact finish_undisturbed ((reach_undisturbed d s).onYbi rfl)

theorem entries_age {d : Nat} (timer : s.ybi.ageingTimer = some d) (held : s.noneHeld) :
    exec .presenceAgeing s = .next ((s.reach d).onYbi fun y =>
      { y with
        ageingTimer := some (d + 1000)
        presence := y.presence.map (fun e => { e with age := min 65535 (e.age + 1) }) }) := by
  have passed := reach_undisturbed d s
  obtain ⟨n, l, frame, -⟩ := reach_frame d s
  have ybi : (s.reach d).ybi = s.ybi := by rw [frame]
  show execPresenceAgeing s = _
  rw [execPresenceAgeing, onExpiry_some timer, finish_elsewhere]
  · simp [State.onYbi, ybi, timer, restart, Config.secondMs, Config.ageMax]
  · refine ⟨by rw [frame]; rfl, by rw [frame]; rfl, by rw [frame]; rfl, by rw [frame]; rfl, passed.link, ?_, .inl ?_,
      passed.stage, passed.running, passed.phase⟩
    · rw [frame]; exact held
    · simp [ringFields, State.onYbi, ybi, Function.comp_def]

/-- The entry of a station that is absent (R17). -/
def absentEntry (e : PresenceEntry) : PresenceEntry := { e with present := false, lineStatus := none, grant := none }

/-- The absence, before the calls are told of it: the entry, STATION_LOST and the counters (R17, R200). -/
def lost (n : Nat) (s : State) : State :=
  ((s.onEntry n absentEntry).raise .stationLost (.station n)).onCtb (Ctb.revoke n)

theorem goAbsent_eq (n : Nat) (s : State) : s.goAbsent n = (lost n s).stationGone n (s.expectation n) := rfl

theorem lost_frame (n : Nat) (s : State) :
    ∃ q o, lost n s = { s.onEntry n absentEntry with
      ybi := { (s.onEntry n absentEntry).ybi with routine := q }
      flt := { (s.flt.raised ⟨.stationLost, .station n⟩ s.now s.uptime).1 with owed := o }
      ctb := s.ctb.revoke n } := by
  obtain ⟨q, o, told⟩ := raise_routine (c := .stationLost) (by decide) (.station n) (s.onEntry n absentEntry)
  exact ⟨q, o, by unfold lost; rw [told]; rfl⟩

theorem lost_firm (n : Nat) (room : s.flt.entries.length < 16) : Firm ⟨.stationLost, .station n⟩ (lost n s).flt := by
  obtain ⟨q, o, frame⟩ := lost_frame n s
  rw [frame]
  exact firm_raised (by rw [Table.makeRoom_of_room room]; exact room)

/-- STATION_ABSENT of an entry that has aged. -/
theorem exec_stationAbsent {n : Nat} {e : PresenceEntry} (found : s.entryOf n = some e) (present : e.present = true)
    (old : 35 ≤ e.age) : exec (.stationAbsent n) s = finish s (s.goAbsent n) := by
  have there : e.address = n := by simpa using List.find?_some found
  have due : s.ybi.presence.any (fun e => e.address == n && e.present && decide (Config.absentAge ≤ e.age)) = true := by
    rw [List.any_eq_true]
    exact ⟨e, List.mem_of_find?_eq_some found, by simp [there, present, Config.absentAge, old]⟩
  show execStationAbsent n s = _
  rw [execStationAbsent, if_pos due]

theorem lost_entryOf {n : Nat} {e : PresenceEntry} (found : s.entryOf n = some e) :
    (lost n s).entryOf n = some (absentEntry e) := by
  obtain ⟨q, o, frame⟩ := lost_frame n s
  rw [frame]
  exact entryOf_onEntry (fun _ => rfl) found

/-- Of a station in no call, the absence ends there. -/
theorem absent_idle {n : Nat} {e : PresenceEntry} (found : s.entryOf n = some e) (present : e.present = true)
    (old : 35 ≤ e.age) (grant : e.grant = none) (none : s.cct.calls = []) (silent : s.vsw.episodes = [])
    (idle : s.lth.stage = .none) : exec (.stationAbsent n) s = .next ((lost n s).onCct (unclaiming n)) := by
  obtain ⟨q, o, frame⟩ := lost_frame n s
  have cct : (lost n s).cct.calls = [] := by rw [frame]; exact none
  have free : s.expectation n = .none := by simp [State.expectation, found, grant]
  have gone : s.goAbsent n = (lost n s).onCct (unclaiming n) := by
    rw [goAbsent_eq, free]
    exact stationGone_free (by simp [State.liveCallOf, State.onCct, unclaiming, cct]) (by simp [cct])
  rw [exec_stationAbsent found present old, gone, finish_elsewhere]
  have calls : ((lost n s).onCct (unclaiming n)).cct.calls = [] := cct
  refine ⟨by rw [frame]; rfl, calls.trans none.symm, by rw [frame]; rfl, by rw [frame]; rfl, ?_, ?_, .inr ?_, ?_, ?_, ?_⟩
  · rw [frame]; exact (Undisturbed.refl s).link
  · rw [calls]; simp
  · rw [frame]; exact silent
  · rw [frame]; rfl
  · rw [frame]; rfl
  · simp [State.phaseReady, idle]

/-- Settles O16: the timers touch their own block, and an absent station leaves its call. -/
theorem busTimersAndAbsence : Obligations.BusTimersAndAbsence := by
  refine ⟨⟨fun d s => backlog_ends, fun d s => presence_sent, fun d s => entries_age⟩,
    fun n e s found present old grant none deferred silent room idle => ?_,
    fun n e c m s calm found present old one outside active plain unsaved party room marked => ?_⟩
  · obtain ⟨q, o, frame⟩ := lost_frame n s
    refine ⟨_, absent_idle found present old grant none silent idle, ?_, ?_, (lost_firm n room).1, ?_, ?_⟩
    · rw [frame]; rfl
    · exact (lost_entryOf found).trans (by simp [absentEntry, grant])
    · rw [frame]; rfl
    · rw [frame]
      show unclaiming n s.cct = _
      simp [unclaiming, deferred]
  · obtain ⟨q, o, frame⟩ := lost_frame n s
    have cct : (lost n s).cct = s.cct := by rw [frame]; rfl
    have now : (lost n s).now = s.now := by rw [frame]; rfl
    have granted : ∀ g, s.expectation n = some g → g.callId = c.id := by
      intro g expected
      have same : e.grant = some g := by simpa [State.expectation, found] using expected
      rcases marked with ⟨-, none⟩ | ⟨-, x, some, own⟩
      · rw [none] at same
        cases same
      · rw [some] at same
        cases same
        exact own
    have cleared := stationGone_single (x := s.expectation n) (by rw [cct]; exact one) outside active plain unsaved party
      granted
    rw [← goAbsent_eq, now] at cleared
    have lists : (s.goAbsent n).cct = { unclaiming n s.cct with calls := [clearingOf c s.now] } := by
      rw [cleared.frame]
      simp only [State.onCct, cct]
    have moved : CallsMoved s (s.goAbsent n) := by
      refine .of_cleared calm cleared ?_ ?_ ?_ ?_ ?_ (changed_of_state one (by simp [active])) <;> rw [frame] <;> rfl
    have told := finish_calls calm moved
    rw [← exec_stationAbsent found present old] at told
    refine ⟨_, told, ?_, ?_, (cleared.spares.firm _ (by simp [backlogKey]) (lost_firm n room)).1, lists, cleared.line, ?_, ?_⟩
    · rw [cleared.frame, frame]; rfl
    · have presence : (s.goAbsent n).ybi.presence = (lost n s).ybi.presence := by rw [cleared.frame]; rfl
      show (s.goAbsent n).ybi.presence.find? _ = _
      rw [presence]
      exact lost_entryOf found
    · exact pairCall_cleared (by rw [lists])
    · show (s.goAbsent n).ybi.call = _
      rw [cleared.frame, frame]; rfl

end Sys2Proof.Proofs.Calls
end

section
/-! The rail and the converter (O13), and the start of the part (O9, O10, O11). -/

set_option Elab.async false

namespace Sys2Proof.Proofs.Start

open Sys2Proof Sys2Proof.Machine Sys2Proof.Proofs.Steps Sys2Proof.Proofs.Telling Sys2Proof.Proofs.Timers

variable {s t before : State}

/-! ### The rail and the converter -/

/-- A change of the supply block that settling does not look at. -/
theorem undisturbed_onSup {f : Sup → Sup} (h : Undisturbed s before) (supply : (f s.sup).supply = s.sup.supply)
    (level : (f s.sup).railLevel = s.sup.railLevel) (target : (f s.sup).railTarget = s.sup.railTarget)
    (step : (f s.sup).railStep = s.sup.railStep) (driven : (f s.sup).converter.burst = s.sup.converter.burst) :
    Undisturbed (s.onSup f) before := by
  refine ⟨supply.trans h.supply, h.calls, h.ready, h.presence, h.portA, h.portB, h.burst, h.episodes,
    driven.trans h.driven, h.line, ?_, h.stage, h.running, h.phase⟩
  have still := h.link
  simp only [State.linkStill, State.onSup_sup, State.onSup_lle, State.onSup_cfl, supply, level, target, step] at still ⊢
  exact still

/-- When the burst alone has moved, the ringing on the pair follows (R125). -/
theorem finish_burst (h : Undisturbed (t.onSup fun p => { p with converter := before.sup.converter }) before)
    (moved : t.sup.converter.burst ≠ before.sup.converter.burst) :
    finish before t = .next (t.onVsw fun v => { v with pairRinging := t.sup.converter.ringsPair }) := by
  have calls : t.cct.calls = before.cct.calls := h.calls
  have presence : t.ybi.presence = before.ybi.presence := h.presence
  have supply : t.sup.supply = before.sup.supply := h.supply
  have ready : t.cfl.state = before.cfl.state := h.ready
  have portA : t.vsw.portA.state = before.vsw.portA.state := h.portA
  have portB : t.vsw.portB.state = before.vsw.portB.state := h.portB
  have burst : t.vsw.inBurst = before.vsw.inBurst := h.burst
  have episodes : t.vsw.episodes = before.vsw.episodes := h.episodes
  have still : t.linkStill before = true := h.link
  have link : t.lle.link = before.lle.link := by
    simp only [State.linkStill, Bool.and_eq_true, decide_eq_true_eq] at still
    tauto
  have pair : t.settlePair before = t.onVsw fun v => { v with pairRinging := t.sup.converter.ringsPair } := by
    simp only [State.settlePair, calls, moved, ↓reduceIte]
  unfold finish State.settle
  simp only [settlePortB_same supply calls ready, settleRecall_same calls presence portA portB,
    settleRinging_same calls supply portA portB (by rw [presence]) burst episodes, pair]
  rw [settleGuard_same (by exact h.line) (fun a => link ▸ a), settleLink_same (by exact still),
    settleWait_same (by exact h.stage) (by exact h.running) (by exact h.phase)]

/-- Settles O13, by the timer that runs out. -/
theorem railAndConverterSettle : Obligations.RailAndConverterSettle := by
  refine ⟨fun r s step due idle => ?_, fun d x l s timer due held quiet mains => ?_, fun d s timer quiet => ?_⟩
  · obtain ⟨away, caught, stage⟩ := idle
    have arrived : s.railArrives r = { s with now := r.ends, sup := { s.sup with railLevel := r.goal, railStep := none } } := by
      unfold State.railArrives
      rw [reach_of_le due away]
      rfl
    have aside : Aside (s.railArrives r) s := by
      rw [arrived]
      exact ⟨rfl, rfl, rfl, rfl, rfl, rfl, rfl, rfl, rfl, by simp [stage], by simp [stage]⟩
    have moved : (s.railArrives r).linkStill s = false := by
      simp [arrived, State.linkStill, step]
    have next : exec .railSettleEnd s = .next (s.railArrives r).driveRail := by
      show execRailSettleEnd s = _
      rw [execRailSettleEnd, step]
      dsimp only
      rw [finish_aside aside (.inr (by rw [arrived])) (by rw [arrived]; exact away) (by rw [arrived]; exact caught),
        moved]
      rfl
    refine ⟨_, next, by rw [arrived]; rfl, ?_⟩
    have target : (s.railArrives r).targetOfRail = s.targetOfRail := by rw [arrived]; rfl
    simp only [State.driveRail, State.onSup, target]
    rw [arrived]
    simp [Config.railSettleMs]
  · have passed := reach_undisturbed d s
    obtain ⟨n, lle, frame, -⟩ := reach_frame d s
    have begun : ((s.reach d).onSup fun p => { p with converter := p.converter.settled p.supply (s.reach d).now }) =
        (s.reach d).onSup fun p => { p with converter :=
          { state := .on, held := none, burst := some (x :: l), settleTimer := none, idleTimer := none } } := by
      simp [State.onSup, frame, Converter.settled, held, mains, drivable]
    show execConverterSettleEnd s = _
    rw [execConverterSettleEnd, onExpiry_some timer, begun, finish_burst]
    · rfl
    · rw [frame] at passed ⊢
      exact passed
    · simp [quiet]
  · have passed := reach_undisturbed d s
    obtain ⟨n, lle, frame, -⟩ := reach_frame d s
    have off : ((s.reach d).onSup fun p => { p with converter :=
        { p.converter with state := .off, burst := none, idleTimer := none } }) =
        (s.reach d).onSup fun p => { p with converter := { p.converter with state := .off, idleTimer := none } } := by
      simp [State.onSup, frame, quiet]
    show execConverterIdleExpiry s = _
    rw [execConverterIdleExpiry, onExpiry_some timer, off, finish_undisturbed]
    exact undisturbed_onSup passed rfl rfl rfl rfl rfl

/-! ### A part that has just been reset -/

/-- Nothing rings, no call stands, the link and the rail are at rest, and nothing of it waits to be told. -/
structure Fresh (s : State) : Prop where
  loading : s.cfl.state = .loading
  calls : s.cct.calls = []
  silent : s.vsw.episodes = []
  ports : s.portsSilent
  plan : s.vsw.plan = RingPlan.empty
  speech : s.vsw.pairSpeech = none
  ringing : s.vsw.pairRinging = false
  off : s.sup.converter.state = .off
  quiet : s.sup.converter.burst = none
  overload : s.flt.isActive ⟨.ringOverload, .pair⟩ = false
  away : s.lle.link ≠ .showtime
  caught : s.lle.sync.catchUpTimer = none
  rail : s.sup.railLevel = .low ∧ s.sup.railTarget = .low ∧ s.sup.railStep = none
  idle : s.lth.stage = .none

theorem Fresh.replan (h : Fresh s) : s.replan [] = s := by
  have plan : (s.onVsw fun v => { v with plan := RingPlan.empty }) = s := by
    simp only [State.onVsw, ← h.plan]
  rw [replan_silent [] h.silent h.ports, State.askedSilent, plan, makeInactive_none h.overload]
  simp [State.onSup, Converter.askedNothing, h.off]

theorem Fresh.syncEpisodes (h : Fresh s) : s.syncEpisodes = (s, []) := by
  have none : s.cct.episodes = [] := by simp [Cct.episodes, h.calls]
  have same : (s.onVsw fun v => { v with episodes := [] }) = s := by
    simp only [State.onVsw, ← h.silent]
  simp [State.syncEpisodes, none, h.silent, State.onVsw]
  exact same

/-- A rail that rests at its target stays. -/
theorem driveRail_rest (low : s.targetOfRail = .low)
    (rail : s.sup.railLevel = .low ∧ s.sup.railTarget = .low ∧ s.sup.railStep = none) : s.driveRail = s := by
  obtain ⟨level, target, step⟩ := rail
  have same : { s.sup with railTarget := RailLevel.low } = s.sup := by rw [← target]
  calc s.driveRail = s.onSup fun p => { p with railTarget := .low } := by
        simp [State.driveRail, State.onSup, low, level, step]
    _ = s := by simp only [State.onSup, same]

theorem Fresh.driveRail (h : Fresh s) : s.driveRail = s :=
  driveRail_rest (by simp [State.targetOfRail, h.loading]) h.rail

/-- Whatever the command found, nothing follows a reset. -/
theorem Fresh.settle (h : Fresh s) (before : State) : s.settle before = s := by
  have none : s.cct.calls.filter (fun c => decide (c.state = .held)) = [] := by rw [h.calls]; rfl
  have portB : s.settlePortB before = s := by
    unfold State.settlePortB
    split
    · rfl
    · simp [State.servePortB, h.loading]
  have recalls : s.settleRecall before = s := settleRecall_noHeld (by simp [h.calls])
  have ringing : s.settleRinging before = s := by
    have synced : (if s.cct.calls = before.cct.calls then (s, []) else s.syncEpisodes) = (s, []) := by
      split
      · rfl
      · exact h.syncEpisodes
    unfold State.settleRinging
    simp only [synced, h.silent, List.isEmpty_nil, ↓reduceIte, h.replan, ite_self]
  have pair : s.settlePair before = s := by
    have speech : (s.onVsw fun v => { v with pairSpeech := s.cct.pairCall }) = s := by
      have free : s.cct.pairCall = .none := by simp [Cct.pairCall, h.calls]
      simp only [State.onVsw, free, ← h.speech]
    have rings : (s.onVsw fun v => { v with pairRinging := s.sup.converter.ringsPair }) = s := by
      have still : s.sup.converter.ringsPair = false := by simp [Converter.ringsPair, h.quiet]
      simp only [State.onVsw, still, ← h.ringing]
    simp only [State.settlePair, speech, rings, ite_self]
  unfold State.settle
  simp only [portB, recalls, ringing, pair]
  rw [show s.settleGuard before = s from if_neg fun x => h.away x.1, settleLink_idle before h.away h.caught, h.driveRail,
    ite_self]
  exact settleWait_notWaiting (by simp [h.idle]) (by simp [h.idle])

theorem fresh_reset (straps : Nat) (mainsOk battLow : Bool) (s : State) : Fresh (s.afterReset straps mainsOk battLow) := by
  refine ⟨rfl, rfl, rfl, ⟨nofun, nofun⟩, rfl, rfl, rfl, rfl, rfl, rfl, nofun, rfl, ⟨rfl, rfl, rfl⟩, rfl⟩

/-- The reset part as it takes up a supply away from mains, before the faults and the holder follow. -/
def unplugged (straps : Nat) (battLow : Bool) (s : State) : State :=
  (s.afterReset straps false battLow).onSup fun p =>
    { p with supply := supplyOf false battLow, converter := p.converter.shed (supplyOf false battLow) }

/-- On battery SUPPLY_ON_BATTERY is raised (R33). -/
theorem derive_battery (straps : Nat) (s : State) : (s.afterReset straps false false).deriveSupply =
    (unplugged straps false s).raise .supplyOnBattery .supply := by
  have none : (unplugged straps false s).makeInactive .supplyBatteryLow .supply = unplugged straps false s :=
    makeInactive_none rfl
  obtain ⟨q, f, told⟩ := raise_routine (c := .supplyOnBattery) (by decide) .supply (unplugged straps false s)
  have faults : (unplugged straps false s).supplyFaults .mains .battery =
      (unplugged straps false s).raise .supplyOnBattery .supply := by
    simp [State.supplyFaults, none]
  show (((unplugged straps false s).supplyFaults .mains .battery).supplyHolder .battery).abandonForCeiling .mains .battery = _
  rw [faults, told]
  rfl

/-- In BATTERY_LOW both supply faults are raised, and holder SUPPLY takes the link to QUIET (R33, R34). -/
theorem derive_batteryLow (straps : Nat) (s : State) : (s.afterReset straps false true).deriveSupply =
    (((unplugged straps true s).raise .supplyBatteryLow .supply).raise .supplyOnBattery .supply).onLle fun l =>
      { l.emptied with
        link := .quiet, holders := { l.holders with supply := true }, backoffTimer := none, handshakeTimer := none
        probeTimer := none, loadTimer := none } := by
  obtain ⟨q, f, told⟩ := raise_routine (c := .supplyBatteryLow) (by decide) .supply (unplugged straps true s)
  obtain ⟨q', f', told'⟩ := raise_routine (c := .supplyOnBattery) (by decide) .supply
    ((unplugged straps true s).raise .supplyBatteryLow .supply)
  show ((((unplugged straps true s).raise .supplyBatteryLow .supply).raise .supplyOnBattery .supply).supplyHolder
    .batteryLow).abandonForCeiling .mains .batteryLow = _
  rw [told', told]
  rfl

/-- Telling a fault, and the holders, leave a part fresh. -/
theorem fresh_told (straps : Nat) (battLow : Bool) (s : State) {q : List TxFrame} {f : Flt} {l : Lle}
    (overload : f.isActive ⟨.ringOverload, .pair⟩ = false) (away : l.link ≠ .showtime) (caught : l.sync.catchUpTimer = none) :
    Fresh { unplugged straps battLow s with
      ybi := { (unplugged straps battLow s).ybi with routine := q }, flt := f, lle := l } := by
  cases battLow <;>
    exact ⟨rfl, rfl, rfl, ⟨nofun, nofun⟩, rfl, rfl, rfl, rfl, rfl, overload, away, caught, ⟨rfl, rfl, rfl⟩, rfl⟩

theorem not_active_of_spares {k j : FaultKey} {f g : Flt} (h : Spares k f g) (other : j ≠ k) (none : f.isActive j = false) :
    g.isActive j = false := by
  refine Bool.eq_false_iff.mpr fun active => ?_
  rw [h.le j other active] at none
  cases none

/-- Settles O9, by the supply at the reset; away from mains the supply faults are told. -/
theorem deviceResetEntersLoading : Obligations.DeviceResetEntersLoading := by
  refine ⟨fun straps battLow s => ?_, fun straps battLow s => ?_⟩
  · exact congrArg Host.Outcome.next ((fresh_reset straps.val true battLow s).settle s)
  · cases battLow with
    | false =>
      obtain ⟨q, f, told, firm, spares, -⟩ := raise_room (s := unplugged straps.val false s) (c := .supplyOnBattery)
        (x := .supply) (by decide) (Nat.succ_pos 15)
      have fresh := fresh_told straps.val false s (q := q) (f := f) (l := (unplugged straps.val false s).lle)
        (not_active_of_spares spares (by decide) rfl) nofun rfl
      rw [← told] at fresh
      have next : exec (.deviceReset straps false false) s =
          .next ((unplugged straps.val false s).raise .supplyOnBattery .supply) := by
        rw [← fresh.settle s, ← derive_battery]
        rfl
      refine ⟨_, next, ?_⟩
      rw [told]
      exact ⟨rfl, rfl, rfl, rfl, rfl, rfl, firm.1, not_active_of_spares spares (by decide) rfl⟩
    | true =>
      obtain ⟨q, f, told, firm, spares, length⟩ := raise_room (s := unplugged straps.val true s) (c := .supplyBatteryLow)
        (x := .supply) (by decide) (Nat.succ_pos 15)
      have room : ((unplugged straps.val true s).raise .supplyBatteryLow .supply).flt.entries.length < 16 := by
        rw [told]
        exact Nat.lt_of_le_of_lt length (Nat.succ_lt_succ (Nat.succ_pos 14))
      obtain ⟨q', f', told', firm', spares', -⟩ := raise_room (c := .supplyOnBattery) (x := .supply) (by decide) room
      rw [told] at told' spares'
      have fresh := fresh_told straps.val true s (q := q') (f := f') (l := { (unplugged straps.val true s).lle.emptied with
          link := .quiet, holders := { (unplugged straps.val true s).lle.holders with supply := true }
          backoffTimer := none, handshakeTimer := none, probeTimer := none, loadTimer := none })
        (not_active_of_spares spares' (by decide) (not_active_of_spares spares (by decide) rfl)) nofun rfl
      have next : exec (.deviceReset straps false true) s = .next { unplugged straps.val true s with
          ybi := { (unplugged straps.val true s).ybi with routine := q' }, flt := f'
          lle := { (unplugged straps.val true s).lle.emptied with
            link := .quiet, holders := { (unplugged straps.val true s).lle.holders with supply := true }
            backoffTimer := none, handshakeTimer := none, probeTimer := none, loadTimer := none } } := by
        refine congrArg Host.Outcome.next (Eq.trans ?_ (fresh.settle s))
        rw [derive_batteryLow, told, told']
        rfl
      refine ⟨_, next, rfl, rfl, rfl, rfl, rfl, rfl, firm'.1, ?_⟩
      exact (spares'.firm _ (by decide) firm).1

/-! ### What follows a change of the link -/

/-- Of the link, what an event that settles may change: the requests that wait and the slot, and the catch-up timer; of
the supply, the drive of the rail. -/
structure LinkFollows (s t : State) : Prop where
  frame : t = { s with
    sup := { s.sup with railTarget := t.sup.railTarget, railStep := t.sup.railStep }
    lle := { s.lle with
      powerWaiting := t.lle.powerWaiting, switchWaiting := t.lle.switchWaiting, shieldWaiting := t.lle.shieldWaiting
      slot := t.lle.slot, nextNumber := t.lle.nextNumber, farOut := t.lle.farOut
      sync := { s.lle.sync with catchUpTimer := t.lle.sync.catchUpTimer } } }

theorem LinkFollows.refl (s : State) : LinkFollows s s := ⟨rfl⟩

theorem LinkFollows.trans {u : State} (h : LinkFollows s t) (g : LinkFollows t u) : LinkFollows s u := by
  refine ⟨?_⟩
  have later := g.frame
  rw [h.frame] at later
  exact later

theorem linkFollows_driveRail (s : State) : LinkFollows s s.driveRail := ⟨rfl⟩

theorem linkFollows_controlPower (s : State) : LinkFollows s s.controlPower := by
  have judged (t : State) : LinkFollows t (
      let busy := t.lle.powerWaiting.isSome || (match t.lle.outstanding with | some (.power _) => true | _ => false)
      if busy then t
      else if t.lle.power = .full ∧ t.ceiling = .mid then t.onLle fun l => { l with powerWaiting := some .cutback }
      else if t.lle.power = .cutback ∧ t.ceiling = .high ∧ t.sup.railLevel = .high ∧ t.sup.railReady ∧
          !t.lle.restoreRefused then
        t.onLle fun l => { l with powerWaiting := some .restore }
      else t) := by
    dsimp only
    repeat' split
    all_goals exact ⟨rfl⟩
  unfold State.controlPower
  split
  · refine LinkFollows.trans ?_ (judged _)
    split <;> exact ⟨rfl⟩
  · exact ⟨rfl⟩

theorem linkFollows_pumpOverhead (s : State) : LinkFollows s s.pumpOverhead := by
  unfold State.pumpOverhead
  repeat' split
  all_goals exact ⟨rfl⟩

theorem linkFollows_catchUp (s : State) : LinkFollows s s.catchUp := by
  unfold State.catchUp
  repeat' split
  all_goals exact ⟨rfl⟩

theorem linkFollows_settleLink (s before : State) : LinkFollows s (s.settleLink before) := by
  unfold State.settleLink
  split
  · exact .refl s
  · exact ((((linkFollows_driveRail s).trans (linkFollows_controlPower _)).trans (linkFollows_pumpOverhead _)).trans
      (linkFollows_driveRail _)).trans (linkFollows_catchUp _)

/-! ### The end of LOADING -/

/-- The part with the record of a usable memory in force, LISTEN begun. -/
def started (m : List Byte) (s : State) : State :=
  ((s.onCfl fun c =>
    { c with state := .listen, record := clampRecord m, defaulted := false, listenTimer := some (s.now + 1000) }).onLle
      fun l => { l with d := (clampRecord m).dInit }).onCtb (Ctb.takeEvents (clampRecord m).counterEvents)

/-- With an address and a usable memory no fault is raised, and nobody holds the link. -/
theorem endLoading_plain {m : List Byte} (usable : memoryUsable m = true) (low : 1 ≤ s.ybi.ownAddress)
    (high : s.ybi.ownAddress ≤ 24) (free : (clampRecord m).startHeld = false) :
    s.endLoading (some m) = started m s := by
  have read : usableMemory (some m) = some m := by simp [usableMemory, usable]
  have loaded : loadedRecord (some m) = clampRecord m := by simp [loadedRecord, read]
  have named : ¬(s.ybi.ownAddress = 0 ∨ 24 < s.ybi.ownAddress) := by omega
  rw [endLoading_eq]
  simp [handOver, startFaults, loaded, read, free, named, loadedCfl, started, State.onCfl, Config.listenMs]

/-- The faults of a start-up are told in the ROUTINE class. -/
theorem startFaults_frame (missing : Bool) (s : State) :
    ∃ q f, startFaults missing s = { s with ybi := { s.ybi with routine := q }, flt := f } := by
  have raised (c : FaultCode) (x : FaultSource) (low : c.severity ≠ .out) (t : State) :
      ∃ q f, t.raise c x = { t with ybi := { t.ybi with routine := q }, flt := f } := by
    obtain ⟨q, o, told⟩ := raise_routine low x t
    exact ⟨q, _, told⟩
  have first : ∃ q f, (if s.ybi.ownAddress = 0 ∨ 24 < s.ybi.ownAddress then s.raise .busAddressInvalid .bus else s) =
      { s with ybi := { s.ybi with routine := q }, flt := f } := by
    split
    · exact raised _ _ (by decide) s
    · exact ⟨_, _, rfl⟩
  obtain ⟨q, f, one⟩ := first
  unfold startFaults
  rw [one]
  dsimp only
  split
  · obtain ⟨q', f', two⟩ := raised .configDefaulted .config (by decide) { s with ybi := { s.ybi with routine := q }, flt := f }
    exact ⟨q', f', two⟩
  · exact ⟨q, f, rfl⟩

/-- Without a usable memory the defaults are in force. -/
theorem endLoading_default {memory : Option (List Byte)} (bad : usableMemory memory = none) :
    ∃ q f, s.endLoading memory = { s with
      ybi := { s.ybi with routine := q }, flt := f
      cfl := { s.cfl with
        state := .listen, record := ConfigRecord.default, defaulted := true, listenTimer := some (s.now + 1000) }
      lle := { s.lle with d := 1 }
      ctb := s.ctb.takeEvents ConfigRecord.default.counterEvents } := by
  obtain ⟨q, f, told⟩ := startFaults_frame true (s.onCfl (loadedCfl memory s.now))
  refine ⟨q, f, ?_⟩
  have loaded : loadedRecord memory = ConfigRecord.default := by simp [loadedRecord, bad]
  rw [endLoading_eq, bad, show (Option.isNone (none : Option (List Byte))) = true from rfl, told, loaded]
  simp [handOver, loadedCfl, loaded, bad, State.onCfl, State.onLle, State.onCtb, ConfigRecord.default, Config.listenMs]

/-- When only the record and the depth have moved, the link alone follows. -/
theorem settle_started {l : Lle} {y : Ybi} {f : Flt} {c : Cfl} {b : Ctb} (presence : y.presence = s.ybi.presence)
    (listen : c.state = .listen) (link : l.link = s.lle.link) (waiting : s.phaseReady = false) :
    State.settle { s with ybi := y, flt := f, cfl := c, lle := l, ctb := b } s =
      State.settleLink { s with ybi := y, flt := f, cfl := c, lle := l, ctb := b } s := by
  let t : State := { s with ybi := y, flt := f, cfl := c, lle := l, ctb := b }
  have portB : t.settlePortB s = t := by
    unfold State.settlePortB
    split
    · rfl
    · simp [State.servePortB, t, listen]
  have recalls : t.settleRecall s = t := settleRecall_same rfl presence rfl rfl
  have ringing : t.settleRinging s = t :=
    settleRinging_same rfl rfl rfl rfl (by rw [show t.ybi.presence = s.ybi.presence from presence]) rfl rfl
  have pair : t.settlePair s = t := settlePair_same rfl rfl
  have guard : t.settleGuard s = t := settleGuard_same rfl fun a => link ▸ a
  have frame := (linkFollows_settleLink t s).frame
  show State.settle t s = t.settleLink s
  unfold State.settle
  simp only [portB, recalls, ringing, pair, guard]
  refine settleWait_same ?_ ?_ (by rw [waiting]; nofun) <;> rw [frame]

/-- Settles O10, by the memory being usable or not. -/
theorem loadingEnds : Obligations.LoadingEnds := by
  refine ⟨fun m s usable loading low high free idle level target step => ?_, fun memory s bad loading => ?_⟩
  · obtain ⟨away, caught, stage⟩ := idle
    show execConfigReadDone (some m) s = _
    rw [execConfigReadDone, if_pos loading, endLoading_plain usable low high free]
    have aside : Aside (started m s) s :=
      ⟨rfl, rfl, rfl, rfl, rfl, rfl, rfl, rfl, rfl, by rw [show (started m s).lth = s.lth from rfl, stage]; nofun,
        by rw [show (started m s).lth = s.lth from rfl, stage]; nofun⟩
    have listening : (started m s).servePortB = started m s := if_neg (nofun : ConfigState.listen ≠ .ready)
    have low : (started m s).targetOfRail = .low := if_pos (nofun : ConfigState.listen ≠ .ready)
    rw [finish_aside aside (.inl listening) away caught, driveRail_rest low ⟨level, target, step⟩, ite_self]
    rfl
  · obtain ⟨q, f, loaded⟩ := endLoading_default (s := s) bad
    have waiting : s.phaseReady = false := by
      have silent : s.voltageReady = false := by simp [State.voltageReady, loading]
      unfold State.phaseReady
      split
      · exact silent
      · simp [State.metallicReady, silent]
      · rfl
    have settled : (s.endLoading memory).settle s = (s.endLoading memory).settleLink s := by
      rw [loaded]
      exact settle_started rfl rfl rfl waiting
    refine ⟨(s.endLoading memory).settleLink s, ?_, ?_⟩
    · show execConfigReadDone memory s = _
      rw [execConfigReadDone, if_pos loading]
      exact congrArg Host.Outcome.next settled
    · have frame := (linkFollows_settleLink (s.endLoading memory) s).frame
      rw [frame, loaded]
      exact ⟨rfl, rfl, rfl, rfl, rfl, rfl⟩

/-! ### READY begins -/

/-- The first two frames find the ROUTINE queue empty. -/
theorem ready_told (heard : s.ybi.listenOnly = false) (empty : s.ybi.routine = []) (away : s.lle.link ≠ .showtime) :
    (s.handRoutine presenceFrame).lineStatus =
      s.onYbi fun y => { y with routine := [presenceFrame, lineStatusFrame false s.vsw.line] } := by
  have unsent (b : Bool) : replaceUnsent b (fun x => decide (x.kind = .presence)) presenceFrame s.ybi.routine = none :=
    Calls.replaceUnsent_none (by simp [empty])
  have first : s.handRoutine presenceFrame = s.onYbi fun y => { y with routine := [presenceFrame] } := by
    have kind : presenceFrame.kind = .presence := rfl
    have room : s.ybi.routine.length < Config.queueCapacity := by simp [empty, Config.queueCapacity]
    simp only [State.handRoutine, heard, unsent, kind, room, ↓reduceIte, Bool.false_eq_true]
    simp [State.onYbi, empty]
  rw [first]
  have room : (s.onYbi fun y => { y with routine := [presenceFrame] }).routineRoom := ⟨heard, Nat.succ_lt_succ (Nat.succ_pos 6)⟩
  unfold State.lineStatus
  rw [handRoutine_room room (by simp [lineStatusFrame, plainFrame])]
  simp [State.onYbi, away]

/-- The part as READY begins at an instant, before the two inputs of the line are sensed. -/
def readied (d : Nat) (s : State) : State :=
  { s with
    now := d
    cfl := { s.cfl with state := .ready, listenTimer := none }
    ybi := { s.ybi with
      routine := [presenceFrame, lineStatusFrame false s.vsw.line], presenceTimer := some (d + 10000) }
    vsw := { s.vsw with
      portA := { s.vsw.portA with noLoadTimer := none, noLoadCheck := some (d + 100) }
      portB := { s.vsw.portB with noLoadTimer := none, noLoadCheck := some (d + 100) } } }

theorem beginReady_eq {d : Nat} (due : s.now ≤ d) (away : s.lle.link ≠ .showtime) (heard : s.ybi.listenOnly = false)
    (empty : s.ybi.routine = []) : (s.reach d).beginReady = ((readied d s).senseVoltage).senseRinging := by
  rw [reach_of_le due away]
  unfold State.beginReady
  dsimp only
  rw [ready_told (by exact heard) (by exact empty) (by exact away)]
  rfl

/-- Settles O11: the rail follows the state of the CFL, and nothing else. -/
theorem readyBegins : Obligations.ReadyBegins := by
  intro d s timer due calm idle heard empty
  obtain ⟨away, silent, mains, served, stage⟩ := calm
  have aside : Aside (((readied d s).senseVoltage).senseRinging) s :=
    ⟨rfl, rfl, rfl, rfl, rfl, rfl, rfl, rfl, rfl, fun h => Stage.noConfusion (stage.symm.trans h),
      fun h => Stage.noConfusion (stage.symm.trans h)⟩
  have portB : (((readied d s).senseVoltage).senseRinging).servePortB = ((readied d s).senseVoltage).senseRinging := by
    have supply : (((readied d s).senseVoltage).senseRinging).sup.supply = .mains := mains
    have port : (((readied d s).senseVoltage).senseRinging).vsw.portB.state ≠ .outOfService := served
    simp [State.servePortB, supply, port]
  have next : exec .listenTimerExpiry s = .next
      (if (((readied d s).senseVoltage).senseRinging).linkStill s then ((readied d s).senseVoltage).senseRinging
        else (((readied d s).senseVoltage).senseRinging).driveRail) := by
    show execListenTimerExpiry s = _
    rw [execListenTimerExpiry, onExpiry_some timer, beginReady_eq due away heard empty,
      finish_aside aside (.inl portB) away idle.2.1]
  refine ⟨_, next, ?_⟩
  split <;> exact ⟨rfl, rfl, rfl, rfl, rfl, rfl, rfl⟩

end Sys2Proof.Proofs.Start
end

section
/-! The link as it leaves its states, and what settling makes of a change of the link alone; the far end's requests and
the payload port (O35). -/

set_option Elab.async false

namespace Sys2Proof.Proofs.Link

open Sys2Proof Sys2Proof.Machine Sys2Proof.Proofs.Steps Sys2Proof.Proofs.Telling Sys2Proof.Proofs.Timers
open Sys2Proof.Proofs.Start

variable {s t u before : State} {K : List FaultKey}

/-! ### Telling, and what it spares of the fault table -/

/-- From one table to a later one, the faults of `K` at the most being raised: no other fault becomes ACTIVE, one that
eviction spares stands as it is, and the sources stay those of the catalogue. -/
structure Sparing (K : List FaultKey) (f g : Flt) : Prop where
  le : ∀ j ∉ K, g.isActive j = true → f.isActive j = true
  safe : ∀ j ∉ K, Safe j → g.isActive j = f.isActive j
  listed : (∀ k ∈ K, k.listed = true) → Listed f → Listed g

theorem Sparing.refl (K : List FaultKey) (f : Flt) : Sparing K f f := ⟨fun _ _ h => h, fun _ _ _ => rfl, fun _ h => h⟩

theorem Sparing.trans {f g h : Flt} (a : Sparing K f g) (b : Sparing K g h) : Sparing K f h :=
  ⟨fun _ x y => a.le _ x (b.le _ x y), fun j x y => (b.safe j x y).trans (a.safe j x y),
    fun x y => b.listed x (a.listed x y)⟩

theorem Sparing.of_spares {k : FaultKey} {f g : Flt} (h : Spares k f g) (mem : k ∈ K) : Sparing K f g :=
  ⟨fun _ other => h.le _ fun same => other (same ▸ mem), fun _ other => h.safe _ fun same => other (same ▸ mem),
    fun own => h.listed (own k mem)⟩

theorem sparing_raised {k : FaultKey} (mem : k ∈ K) (now up : Nat) (f : Flt) : Sparing K f (f.raised k now up).1 :=
  ⟨fun _ other h => Table.raised_other_le (fun same => other (same ▸ mem)) h,
    fun _ other h => Table.raised_other_keeps (fun same => other (same ▸ mem)) fun e old key =>
      Table.makeRoom_protected old (h e key),
    fun own h => raised_listed (own k mem) h⟩

/-- From one state to a later one something has been told, in any class, or discarded; the faults of `K` and
BUS_BACKLOG at the most have been raised. -/
structure Gossips (K : List FaultKey) (s t : State) : Prop where
  frame : ∃ q, t = told q s
  sparing : Sparing (backlogKey :: K) s.flt t.flt

theorem Gossips.refl (K : List FaultKey) (s : State) : Gossips K s s :=
  ⟨⟨⟨s.ybi.urgent, s.ybi.call, s.ybi.routine, s.ybi.backlogTimer, s.flt, s.ctb⟩, rfl⟩, .refl _ _⟩

theorem Gossips.trans (h : Gossips K s t) (g : Gossips K t u) : Gossips K s u := by
  obtain ⟨q, first⟩ := h.frame
  obtain ⟨r, second⟩ := g.frame
  refine ⟨⟨r, ?_⟩, h.sparing.trans g.sparing⟩
  rw [second, first]
  rfl

theorem Gossips.of_mutters (h : Mutters s t) : Gossips K s t :=
  ⟨⟨⟨s.ybi.urgent, s.ybi.call, t.ybi.routine, t.ybi.backlogTimer, t.flt, t.ctb⟩, h.frame⟩,
    .of_spares h.spares List.mem_cons_self⟩

theorem Gossips.of_tells (h : Tells s t) (table : Sparing (backlogKey :: K) s.flt t.flt) : Gossips K s t := by
  obtain ⟨q, frame, -⟩ := h
  exact ⟨⟨q, frame⟩, table⟩

theorem Gossips.repeat {f : State → State} (hf : ∀ s, Gossips K s (f s)) (n : Nat) (s : State) :
    Gossips K s (Nat.repeat f n s) := by
  induction n with
  | zero => exact .refl K s
  | succ n ih => exact ih.trans (hf _)

theorem gossips_handUrgent (f : TxFrame) (s : State) : Gossips K s (s.handUrgent f) := by
  refine .of_tells (tells_handUrgent f s) ?_
  unfold State.handUrgent
  split
  · exact .refl _ _
  · dsimp only
    split
    · exact .refl _ _
    · exact .of_spares (mutters_frameDropped
        (s.onYbi fun y => { y with urgent := dropOldestUnsent (s.isSending .urgent) y.urgent })).spares List.mem_cons_self

theorem gossips_notice (k : FaultKey) (s : State) : Gossips K s (s.notice k) := by
  unfold State.notice
  split
  · exact .refl K s
  · split
    · exact gossips_handUrgent _ s
    · exact .of_mutters (mutters_noticeRoutine _ s)

theorem gossips_applyFault {k : FaultKey} {r : Flt × Bool} (table : Sparing (backlogKey :: K) s.flt r.1) :
    Gossips K s (s.applyFault k r) := by
  have first : Gossips K s (s.onFlt fun _ => r.1) := .of_tells (.onFlt _ s) table
  unfold State.applyFault
  dsimp only
  split
  · exact first.trans (gossips_notice k _)
  · exact first

theorem gossips_raise {c : FaultCode} {x : FaultSource} (mem : ⟨c, x⟩ ∈ K) (s : State) : Gossips K s (s.raise c x) :=
  gossips_applyFault (sparing_raised (List.mem_cons_of_mem _ mem) _ _ _)

theorem gossips_makeInactive {c : FaultCode} {x : FaultSource} (mem : ⟨c, x⟩ ∈ K) (s : State) :
    Gossips K s (s.makeInactive c x) :=
  gossips_applyFault (.of_spares spares_madeInactive (List.mem_cons_of_mem _ mem))

/-! ### A state of the link is left -/

/-- The faults that a departure from SHOWTIME ends (R99, R104). -/
def showtimeFaults : List FaultKey := [⟨.fenceImpulse, .line⟩, ⟨.linkLowMargin, .line⟩]

/-- The part as a departure from SHOWTIME leaves it, but for what is told of it (R50). -/
def departed (reason : DropReason) (next : LinkState) (s : State) : State :=
  (s.onPlp Plp.cutShort).onLle fun l =>
    { l with
      lastShow := some s.showValues, lastDrop := reason, slot := none, switchWaiting := none, powerWaiting := none
      shieldWaiting := none, link := next, sync := Showtime.start }

/-- A change of the link goes past what is told. -/
theorem Gossips.onLle (h : Gossips K s t) (f : Lle → Lle) : Gossips K (s.onLle f) (t.onLle f) := by
  obtain ⟨q, rfl⟩ := h.frame
  exact ⟨⟨q, rfl⟩, h.sparing⟩

theorem Gossips.onPlp (h : Gossips K s t) (f : Plp → Plp) : Gossips K (s.onPlp f) (t.onPlp f) := by
  obtain ⟨q, rfl⟩ := h.frame
  exact ⟨⟨q, rfl⟩, h.sparing⟩

theorem departShowtime_told (reason : DropReason) (next : LinkState) (s : State) :
    Gossips showtimeFaults (departed reason next s) (s.departShowtime reason next) := by
  have signalled (t : State) : Gossips showtimeFaults t (t.signal .retrain) := .of_mutters (mutters_signal _ t)
  have dropped (n : Nat) (t : State) : Gossips showtimeFaults t (Nat.repeat State.frameDropped n t) :=
    .repeat (fun t => .of_mutters (mutters_frameDropped t)) n t
  have ended (t : State) : Gossips showtimeFaults t
      ((t.makeInactive .fenceImpulse .line).makeInactive .linkLowMargin .line).lineStatus :=
    ((gossips_makeInactive (by decide) t).trans (gossips_makeInactive (by decide) _)).trans
      (.of_mutters (mutters_lineStatus _))
  have quiet := (((signalled (s.onLle fun l => { l with lastShow := some s.showValues, lastDrop := reason })).onLle
    fun l => { l with slot := none, switchWaiting := none, powerWaiting := none, shieldWaiting := none }).onPlp
    Plp.cutShort).trans (dropped s.plp.queue.length _)
  exact (quiet.onLle fun l => { l with link := next, sync := Showtime.start }).trans (ended _)

/-- The part as the link leaves a state for another, but for what is told of it. -/
def left (reason : DropReason) (next : LinkState) (s : State) : State :=
  match s.lle.link with
  | .showtime => departed reason next s
  | .lockout => s.onLle fun l => { l with link := next, lockoutTimer := none, attemptHeld := false }
  | _ =>
    s.onLle fun l =>
      { l with link := next, backoffTimer := none, handshakeTimer := none, probeTimer := none, loadTimer := none }

section left
variable {reason : DropReason} {next : LinkState}

theorem left_showtime (link : s.lle.link = .showtime) : left reason next s = departed reason next s := by
  unfold left
  rw [link]

theorem left_lockout (link : s.lle.link = .lockout) : left reason next s =
    s.onLle fun l => { l with link := next, lockoutTimer := none, attemptHeld := false } := by
  unfold left
  rw [link]

theorem left_plain (showtime : s.lle.link ≠ .showtime) (lockout : s.lle.link ≠ .lockout) : left reason next s =
    s.onLle fun l =>
      { l with link := next, backoffTimer := none, handshakeTimer := none, probeTimer := none, loadTimer := none } := by
  unfold left
  split
  · exact absurd ‹_› showtime
  · exact absurd ‹_› lockout
  · rfl

theorem leaveLink_showtime (link : s.lle.link = .showtime) :
    s.leaveLink reason next = s.departShowtime reason next := by
  unfold State.leaveLink
  rw [link]

theorem leaveLink_lockout (link : s.lle.link = .lockout) : s.leaveLink reason next =
    (s.onLle fun l => { l with link := next, lockoutTimer := none, attemptHeld := false }).makeInactive
      .linkRetrainLimit .line := by
  unfold State.leaveLink
  rw [link]

theorem leaveLink_plain (showtime : s.lle.link ≠ .showtime) (lockout : s.lle.link ≠ .lockout) :
    s.leaveLink reason next = s.onLle fun l =>
      { l with link := next, backoffTimer := none, handshakeTimer := none, probeTimer := none, loadTimer := none } := by
  unfold State.leaveLink
  split
  · exact absurd ‹_› showtime
  · exact absurd ‹_› lockout
  · rfl

end left

/-- The faults that end with a state of the link (R47, R50). -/
def linkFaults : List FaultKey := ⟨.linkRetrainLimit, .line⟩ :: showtimeFaults

theorem Gossips.mono {L : List FaultKey} (h : Gossips K s t) (sub : ∀ k ∈ K, k ∈ L) : Gossips L s t := by
  have sub' : ∀ k ∈ backlogKey :: K, k ∈ backlogKey :: L := by
    intro k mem
    rcases List.mem_cons.mp mem with rfl | mem
    · exact List.mem_cons_self
    · exact List.mem_cons_of_mem _ (sub k mem)
  exact ⟨h.frame, fun j x => h.sparing.le j fun mem => x (sub' j mem), fun j x => h.sparing.safe j fun mem => x (sub' j mem),
    fun own => h.sparing.listed fun k mem => own k (sub' k mem)⟩

theorem leaveLink_told (reason : DropReason) (next : LinkState) (s : State) :
    Gossips linkFaults (left reason next s) (s.leaveLink reason next) := by
  by_cases showtime : s.lle.link = .showtime
  · rw [left_showtime showtime, leaveLink_showtime showtime]
    exact (departShowtime_told reason next s).mono fun k mem => List.mem_cons_of_mem _ mem
  by_cases lockout : s.lle.link = .lockout
  · rw [left_lockout lockout, leaveLink_lockout lockout]
    exact gossips_makeInactive (K := linkFaults) List.mem_cons_self _
  · rw [left_plain showtime lockout, leaveLink_plain showtime lockout]
    exact .refl _ _

/-! ### When of what settling looks at the link alone has moved -/

/-- All that settling compares is as the command found it, but for the link and the rail. -/
structure LinkOnly (s before : State) : Prop where
  supply : s.sup.supply = before.sup.supply
  calls : s.cct.calls = before.cct.calls
  ready : s.cfl.state = before.cfl.state
  presence : s.ybi.presence = before.ybi.presence
  portA : s.vsw.portA.state = before.vsw.portA.state
  portB : s.vsw.portB.state = before.vsw.portB.state
  burst : s.vsw.inBurst = before.vsw.inBurst
  episodes : s.vsw.episodes = before.vsw.episodes
  driven : s.sup.converter.burst = before.sup.converter.burst
  line : s.vsw.line = before.vsw.line
  stage : s.lth.stage = before.lth.stage
  running : s.lth.running = before.lth.running
  phase : before.phaseReady = true → s.phaseReady = true

/-- The conditions of a phase do not look at what follows a change of the link. -/
theorem phaseReady_follows (h : LinkFollows s t) : t.phaseReady = s.phaseReady := by
  rw [h.frame]
  rfl

/-- The guard comparator and what follows a change of the link are all that settles. -/
theorem settle_linkOnly (h : LinkOnly s before) (stays : s.lle.link = .showtime → before.lle.link = .showtime) :
    s.settle before = s.settleLink before := by
  have follows := linkFollows_settleLink s before
  unfold State.settle
  simp only [settlePortB_same h.supply h.calls h.ready, settleRecall_same h.calls h.presence h.portA h.portB,
    settleRinging_same h.calls h.supply h.portA h.portB (by rw [h.presence]) h.burst h.episodes,
    settlePair_same h.calls h.driven, settleGuard_same h.line stays]
  refine settleWait_same ?_ ?_ fun ready => ?_
  · rw [follows.frame]
    exact h.stage
  · rw [follows.frame]
    exact h.running
  · rw [phaseReady_follows follows]
    exact h.phase ready

theorem finish_linkOnly (h : LinkOnly s before) (stays : s.lle.link = .showtime → before.lle.link = .showtime) :
    finish before s = .next (s.settleLink before) := congrArg Host.Outcome.next (settle_linkOnly h stays)

/-- The conditions of a phase stand over a change of the link that leaves SHOWTIME, or is none. -/
theorem phaseReady_told {q : Told} {y : Ybi} {l : Lle} {p : Plp} {n : Nat}
    (link : s.lle.link = .showtime ∨ l.link = s.lle.link)
    (foreign : q.flt.isActive ⟨.foreignVoltageHigh, .line⟩ = true → s.flt.isActive ⟨.foreignVoltageHigh, .line⟩ = true)
    (ready : s.phaseReady = true) : (told q { s with now := n, ybi := y, lle := l, plp := p }).phaseReady = true := by
  have inactive (none : s.flt.isActive ⟨.foreignVoltageHigh, .line⟩ = false) :
      q.flt.isActive ⟨.foreignVoltageHigh, .line⟩ = false :=
    Bool.eq_false_iff.mpr fun active => by rw [foreign active] at none; cases none
  unfold State.phaseReady at ready ⊢
  simp only [told_lth]
  split at ready
  · exact ready
  · rename_i r _ _
    simp only [State.metallicReady, Bool.and_eq_true, Bool.not_eq_true', State.faultActive, told_cct, told_flt, told_lle]
      at ready ⊢
    obtain ⟨⟨⟨voltage, calls⟩, none⟩, away⟩ := ready
    refine ⟨⟨⟨voltage, calls⟩, inactive none⟩, ?_⟩
    rcases link with showtime | same
    · have allowed : r.allowDrop = true := by simpa [showtime] using away
      simp [allowed]
    · simpa only [same] using away
  · cases ready

theorem LinkOnly.of_frame (h : Gossips K u t)
    (frame : u = { s with now := u.now, ybi := u.ybi, lle := u.lle, plp := u.plp })
    (link : s.lle.link = .showtime ∨ u.lle.link = s.lle.link) (other : ⟨.foreignVoltageHigh, .line⟩ ∉ backlogKey :: K)
    (presence : u.ybi.presence = s.ybi.presence := by rfl) : LinkOnly t s := by
  obtain ⟨q, rfl⟩ := h.frame
  have flt : u.flt = s.flt := by rw [frame]
  have spared := h.sparing.le ⟨.foreignVoltageHigh, .line⟩ other
  rw [flt] at spared
  have known : (told q u).ybi.presence = s.ybi.presence := presence
  rw [frame] at known ⊢
  exact ⟨rfl, rfl, rfl, known, rfl, rfl, rfl, rfl, rfl, rfl, rfl, rfl, phaseReady_told link spared⟩

/-- Outside SHOWTIME, with the catch-up timer stopped, the rail alone follows. -/
theorem settleLink_away (away : s.lle.link ≠ .showtime) (caught : s.lle.sync.catchUpTimer = none) :
    ∃ p : Sup, s.settleLink before = { s with sup := { s.sup with railTarget := p.railTarget, railStep := p.railStep } } := by
  rw [settleLink_idle before away caught]
  split
  · exact ⟨s.sup, rfl⟩
  · exact ⟨s.driveRail.sup, rfl⟩

/-! ### The far end's requests and the payload port -/

/-- A change of the link that nothing waits for is all that comes of a command. -/
theorem finish_onLle {f : Lle → Lle} (link : (f s.lle).link = s.lle.link) (still : (s.onLle f).linkStill s = true) :
    finish s (s.onLle f) = .next (s.onLle f) := finish_undisturbed ((Undisturbed.refl s).onLle link still)

theorem finish_onPlp (f : Plp → Plp) : finish s (s.onPlp f) = .next (s.onPlp f) :=
  finish_undisturbed (Undisturbed.refl s).onPlp

/-- An answer after a change of the link. -/
theorem answerFar_onLle (n : Nat) (a : FarAnswer) (f : Lle → Lle) (s : State) : (s.onLle f).answerFar n a =
    s.onLle fun l => { f l with farOut := (f l).farOut ++ [.answer n a], lastFar := some (n, a) } := rfl

theorem answerFar_eq (n : Nat) (a : FarAnswer) (s : State) : s.answerFar n a =
    s.onLle fun l => { l with farOut := l.farOut ++ [.answer n a], lastFar := some (n, a) } := rfl

/-- A request of the far end with another number than the last is taken. -/
theorem takeFar_new {n : Nat} {f : State → State} (showtime : s.lle.link = .showtime)
    (new : s.lle.lastFar.map (·.1) ≠ some n) : s.takeFar n f = f s := by
  unfold State.takeFar
  rw [if_pos showtime]
  split
  · rename_i m a last
    rw [if_neg fun same => new (by rw [last, same]; rfl)]
  · rfl

/-- One with the number of the last gets the same answer. -/
theorem takeFar_again {n : Nat} {a : FarAnswer} {f : State → State} (showtime : s.lle.link = .showtime)
    (last : s.lle.lastFar = some (n, a)) :
    s.takeFar n f = s.onLle fun l => { l with farOut := l.farOut ++ [.answer n a] } := by
  unfold State.takeFar
  rw [if_pos showtime, last]
  exact if_pos rfl

theorem enterDown_told (reason : DropReason) (s : State) : Gossips linkFaults
    ((left reason .down s).onLle fun l => { l.emptied with e := 0, d := s.cfl.record.dInit }) (s.enterDown reason) :=
  (leaveLink_told reason .down s).onLle _

/-- What comes of a command that leaves SHOWTIME: the state it gives, and the rail. -/
theorem finish_departed (h : Gossips linkFaults u t)
    (frame : u = { s with now := u.now, ybi := u.ybi, lle := u.lle, plp := u.plp })
    (showtime : s.lle.link = .showtime) (away : u.lle.link ≠ .showtime) (caught : u.lle.sync.catchUpTimer = none)
    (presence : u.ybi.presence = s.ybi.presence := by rfl) :
    ∃ w, finish s t = .next w ∧
      w = { t with sup := { t.sup with railTarget := w.sup.railTarget, railStep := w.sup.railStep } } := by
  have only : LinkOnly t s := .of_frame h frame (.inl showtime) (by decide) presence
  have lle : t.lle = u.lle := by
    obtain ⟨q, rfl⟩ := h.frame
    rfl
  obtain ⟨r, rail⟩ := settleLink_away (before := s) (s := t) (by rw [lle]; exact away) (by rw [lle]; exact caught)
  refine ⟨_, finish_linkOnly only fun x => absurd x (by rw [lle]; exact away), ?_⟩
  rw [rail]

theorem finish_departure (h : Gossips linkFaults u t)
    (frame : u = { s with now := u.now, ybi := u.ybi, lle := u.lle, plp := u.plp })
    (showtime : s.lle.link = .showtime) (away : u.lle.link ≠ .showtime) (caught : u.lle.sync.catchUpTimer = none)
    (presence : u.ybi.presence = s.ybi.presence := by rfl) :
    ∃ w q, finish s t = .next w ∧
      w = told q { u with sup := { u.sup with railTarget := w.sup.railTarget, railStep := w.sup.railStep } } := by
  obtain ⟨w, next, rail⟩ := finish_departed h frame showtime away caught presence
  obtain ⟨q, rfl⟩ := h.frame
  exact ⟨w, q, next, rail⟩

/-- Settles O35: a request is new or seen before, and the payload port takes part in nothing else. -/
theorem farEndAndPayload : Obligations.FarEndAndPayload := by
  refine ⟨fun n table g bits s showtime => ⟨fun new => ⟨fun ok named => ?_, fun ok named => ?_, fun bad => ?_, ?_, ?_⟩,
    fun a last => ⟨?_, ?_⟩⟩, fun s showtime => ⟨fun payload ready => ?_, fun payload busy => ?_, fun f q queue => ?_⟩⟩
  · show execFarEndSwap n table g bits s = _
    rw [execFarEndSwap, takeFar_new showtime new, State.farSwap, if_pos ok, named, answerFar_onLle]
    exact finish_onLle rfl (by simp [State.linkStill])
  · show execFarEndSwap n table g bits s = _
    rw [execFarEndSwap, takeFar_new showtime new, State.farSwap, if_pos ok, named, answerFar_onLle]
    exact finish_onLle rfl (by simp [State.linkStill])
  · show execFarEndSwap n table g bits s = _
    rw [execFarEndSwap, takeFar_new showtime new, State.farSwap, if_neg (by simp [bad]), answerFar_eq]
    exact finish_onLle rfl (by simp [State.linkStill])
  · show execFarEndSwitch n table s = _
    rw [execFarEndSwitch, takeFar_new showtime new, answerFar_onLle]
    exact finish_onLle rfl (by simp [State.linkStill])
  · have down := enterDown_told .forced s
    rw [left_showtime showtime] at down
    obtain ⟨t, q, next, frame⟩ := finish_departure (s := s) down rfl showtime nofun rfl
    refine ⟨t, ?_, ?_⟩
    · show execFarEndRetrain n s = _
      rw [execFarEndRetrain, takeFar_new showtime new]
      exact next
    · rw [frame]
      exact ⟨rfl, rfl, rfl, rfl, rfl, rfl, rfl⟩
  · show execFarEndSwap n table g bits s = _
    rw [execFarEndSwap, takeFar_again showtime last]
    exact finish_onLle rfl (by simp [State.linkStill])
  · show execFarEndSwitch n table s = _
    rw [execFarEndSwitch, takeFar_again showtime last]
    exact finish_onLle rfl (by simp [State.linkStill])
  · show execPayloadFrameOffered payload s = _
    rw [execPayloadFrameOffered, if_pos showtime, finish_onPlp, State.onPlp, Plp.accept, if_pos ready]
    rfl
  · show execPayloadFrameOffered payload s = _
    rw [execPayloadFrameOffered, if_pos showtime, finish_onPlp, State.onPlp, Plp.accept, if_neg (by simp [busy])]
  · show execPayloadFrameSent s = _
    rw [execPayloadFrameSent, if_pos showtime, finish_onPlp, State.onPlp, queue]
    rfl

end Sys2Proof.Proofs.Link
end

section
/-! Seconds, signal and margin (O39), the drops (O40), the ends of the waits (O33) and of the guard (O37). -/

set_option Elab.async false

namespace Sys2Proof.Proofs.Seconds

open Sys2Proof Sys2Proof.Machine Sys2Proof.Proofs.Steps Sys2Proof.Proofs.Telling Sys2Proof.Proofs.Timers
open Sys2Proof.Proofs.Rules Sys2Proof.Proofs.Start Sys2Proof.Proofs.Link

variable {s t u before : State} {K : List FaultKey}

/-! ### Time, and the counters -/

/-- Time that passes moves the clock and, in SHOWTIME, the symbol count. -/
theorem reach_moves (d : Nat) (s : State) : ∃ m n, s.reach d =
    { s with now := m, lle := { s.lle with sync := { s.lle.sync with symbolCount := n } } } := by
  by_cases later : s.now < d
  · rw [reach_of_lt later]
    split
    · exact ⟨_, _, rfl⟩
    · exact ⟨_, s.lle.sync.symbolCount, rfl⟩
  · exact ⟨s.now, s.lle.sync.symbolCount, if_pos (Nat.le_of_not_lt later)⟩

theorem reach_counts {d : Nat} (due : s.now ≤ d) : ∃ n, s.reach d =
    { s with now := d, lle := { s.lle with sync := { s.lle.sync with symbolCount := n } } } := by
  obtain ⟨m, n, moved⟩ := reach_moves d s
  have arrived := reach_now due
  rw [moved] at arrived
  obtain rfl : m = d := arrived
  exact ⟨n, moved⟩

theorem wrapping_nil {e : Nat} {b : Ctb} :
    b.wrapping e = [] ↔ ∀ c ∈ b.counters, c.takes e = true → c.value ≠ Config.counterTop := by
  have keys (c : Counter) : (∃ i, (c, i) ∈ b.counters.zipIdx) ↔ c ∈ b.counters := by
    constructor
    · rintro ⟨i, mem⟩
      exact List.fst_mem_of_mem_zipIdx mem
    · intro mem
      obtain ⟨i, lt, rfl⟩ := List.mem_iff_getElem.mp mem
      exact ⟨i, List.mk_mem_zipIdx_iff_getElem?.mpr (List.getElem?_eq_getElem lt)⟩
  simp only [Ctb.wrapping, List.map_eq_nil_iff, List.filter_eq_nil_iff, Bool.and_eq_true, decide_eq_true_eq, not_and]
  constructor
  · intro h c mem
    obtain ⟨i, place⟩ := (keys c).mpr mem
    exact h (c, i) place
  · intro h p mem
    exact h p.1 ((keys p.1).mp ⟨p.2, mem⟩)

/-- A counter that takes one event takes no other, so that counting the one wraps nothing of the other. -/
theorem wrapping_counted {e e' : Nat} {b : Ctb} (other : e' ≠ e) (none : b.wrapping e' = []) :
    Ctb.wrapping e' { b with counters := b.counters.map (Counter.count e) } = [] := by
  rw [wrapping_nil] at none ⊢
  intro c mem taken
  obtain ⟨x, old, rfl⟩ := List.mem_map.mp mem
  have selected : (x.count e).selection = x.selection ∧ (x.count e).inhibit = x.inhibit := by
    unfold Counter.count Counter.add
    repeat' split
    all_goals exact ⟨rfl, rfl⟩
  simp only [Counter.takes, selected, Bool.and_eq_true, decide_eq_true_eq] at taken
  have apart : x.takes e = false := by simp [Counter.takes, taken.1, other]
  simp only [Counter.count, apart, Bool.false_eq_true, ↓reduceIte]
  exact none x old (by simpa [Counter.takes] using taken)

/-! ### The seconds of showtime -/

/-- The events of a second that ends (R101). -/
def secondSignalled (errored severe : Bool) (s : State) : State :=
  let s := s.signal .secondInShowtime
  let s := if errored then s.signal .erroredSecond else s
  if severe then s.signal .severeSecond else s

/-- The next second begins (R101, R102). -/
def secondOver (severe : Bool) (y : Machine.Showtime) : Machine.Showtime :=
  { y with
    corrected := 0, uncorrected := 0, absentThisSecond := y.signalAbsent
    severeRun := if severe then y.severeRun + 1 else 0 }

theorem endSecond_eq {errored severe : Bool}
    (error : (decide (1 ≤ s.lle.sync.uncorrected) || s.lle.sync.absentThisSecond) = errored)
    (severity : (decide (50 ≤ s.lle.sync.uncorrected) || s.lle.sync.absentThisSecond) = severe) :
    s.endSecond = if ((secondSignalled errored severe s).onSync (secondOver severe)).lle.sync.severeRun ≥ 10
      then ((secondSignalled errored severe s).onSync (secondOver severe)).drop .severeErrors
      else (secondSignalled errored severe s).onSync (secondOver severe) := by
  subst error severity
  rfl

theorem mutters_second (errored severe : Bool) (s : State) : Mutters s (secondSignalled errored severe s) :=
  ((mutters_signal _ s).trans (.ite (mutters_signal _ _) (.refl _))).trans (.ite (mutters_signal _ _) (.refl _))

/-- A second that is not the tenth severe one in a row. -/
theorem endSecond_goes {errored severe : Bool}
    (error : (decide (1 ≤ s.lle.sync.uncorrected) || s.lle.sync.absentThisSecond) = errored)
    (severity : (decide (50 ≤ s.lle.sync.uncorrected) || s.lle.sync.absentThisSecond) = severe)
    (short : severe = true → s.lle.sync.severeRun < 9) :
    s.endSecond = (secondSignalled errored severe s).onSync (secondOver severe) := by
  rw [endSecond_eq error severity]
  refine if_neg ?_
  rw [(mutters_second errored severe s).frame]
  cases severe with
  | false => exact Nat.not_le.mpr (Nat.succ_pos 9)
  | true =>
    have nine := short rfl
    show ¬ s.lle.sync.severeRun + 1 ≥ 10
    omega

/-- The counters after the events of a second, none of which wraps. -/
def secondCounted (errored severe : Bool) (b : Ctb) : Ctb :=
  let once := { b with counters := b.counters.map (Counter.count 1) }
  let twice := if errored then { once with counters := once.counters.map (Counter.count 2) } else once
  if severe then { twice with counters := twice.counters.map (Counter.count 3) } else twice

/-- Without a wrap the events of a second are counted. -/
theorem secondSignalled_plain (errored severe : Bool) (one : s.ctb.wrapping 1 = []) (two : errored = true → s.ctb.wrapping 2 = [])
    (three : severe = true → s.ctb.wrapping 3 = []) :
    secondSignalled errored severe s = s.onCtb (secondCounted errored severe) := by
  have first : s.signal .secondInShowtime = s.onCtb fun b => { b with counters := b.counters.map (Counter.count 1) } :=
    signal_plain one
  unfold secondSignalled
  simp only [first]
  cases errored with
  | false =>
    cases severe with
    | false => rfl
    | true => exact signal_plain (wrapping_counted (by decide) (three rfl))
  | true =>
    have second : (s.onCtb fun b => { b with counters := b.counters.map (Counter.count 1) }).signal .erroredSecond = _ :=
      signal_plain (wrapping_counted (by decide) (two rfl))
    simp only [↓reduceIte, second]
    cases severe with
    | false => rfl
    | true => exact signal_plain (wrapping_counted (by decide) (wrapping_counted (by decide) (three rfl)))

/-- What the timer of the seconds acts on: the instant it is due at, the timer running on. -/
def secondReached (d : Nat) (s : State) : State :=
  (s.reach d).onSync fun y => { y with secondTimer := restart y.secondTimer Config.secondMs }

theorem exec_second {d : Nat} {errored severe : Bool} (timer : s.lle.sync.secondTimer = some d)
    (error : (decide (1 ≤ s.lle.sync.uncorrected) || s.lle.sync.absentThisSecond) = errored)
    (severity : (decide (50 ≤ s.lle.sync.uncorrected) || s.lle.sync.absentThisSecond) = severe)
    (short : severe = true → s.lle.sync.severeRun < 9) (one : s.ctb.wrapping 1 = [])
    (two : errored = true → s.ctb.wrapping 2 = []) (three : severe = true → s.ctb.wrapping 3 = []) :
    exec .secondTimerExpiry s = .next (((s.reach d).onCtb (secondCounted errored severe)).onSync fun y =>
        { y with
          secondTimer := some (d + 1000), corrected := 0, uncorrected := 0, absentThisSecond := y.signalAbsent
          severeRun := if severe then y.severeRun + 1 else 0 }) := by
  have passed := reach_undisturbed d s
  obtain ⟨m, n, moved⟩ := reach_moves d s
  show execSecondTimerExpiry s = _
  rw [execSecondTimerExpiry, onExpiry_some timer]
  show finish s (secondReached d s).endSecond = _
  have ended : (secondReached d s).endSecond =
      ((secondReached d s).onCtb (secondCounted errored severe)).onSync (secondOver severe) := by
    rw [secondReached, moved, ← secondSignalled_plain errored severe]
    · exact endSecond_goes error severity short
    · exact one
    · exact two
    · exact three
  rw [ended, finish_undisturbed]
  · rw [secondReached, moved]
    simp only [State.onSync, State.onCtb, timer]
    rfl
  · refine ((passed.onSync ?_).onCtb).onSync ?_ <;> simp [State.linkStill, secondOver]

/-! ### The codewords, the signal and the margin -/

theorem codeword_plain {e : Event} {f : Machine.Showtime → Machine.Showtime} (showtime : s.lle.link = .showtime)
    (none : s.ctb.wrapping e.code = []) : s.codeword e f =
      (s.onCtb fun b => { b with counters := b.counters.map (Counter.count e.code) }).onSync f := by
  rw [State.codeword, if_pos showtime, signal_plain none]

theorem makeInactive_inactive {c : FaultCode} {x : FaultSource} (other : (⟨c, x⟩ : FaultKey) ≠ backlogKey) (s : State) :
    (s.makeInactive c x).faultActive c x = false := by
  have off : (s.flt.madeInactive ⟨c, x⟩ s.now s.uptime).1.isActive ⟨c, x⟩ = false := Table.madeInactive_self
  have told : Gossips [] (s.onFlt fun _ => (s.flt.madeInactive ⟨c, x⟩ s.now s.uptime).1) (s.makeInactive c x) := by
    show Gossips [] _ (if _ then _ else _)
    split
    · exact gossips_notice _ _
    · exact .refl _ _
  refine Bool.eq_false_iff.mpr fun active => ?_
  have before := told.sparing.le ⟨c, x⟩ (by simpa using other) active
  rw [State.onFlt_flt, off] at before
  cases before

/-- Without a survey, what is told disturbs nothing. -/
theorem undisturbed_told (calm : Undisturbed u s) (h : Gossips K u t) (idle : s.lth.stage = .none) : Undisturbed t s := by
  obtain ⟨q, rfl⟩ := h.frame
  refine ⟨calm.supply, calm.calls, calm.ready, calm.presence, calm.portA, calm.portB, calm.burst, calm.episodes,
    calm.driven, calm.line, calm.link, calm.stage, calm.running, fun ready => ?_⟩
  simp [State.phaseReady, idle] at ready

/-- Settles O39: a codeword and the signal touch section 5.1 alone, a second also the counters, the margin watch also the
fault table. -/
theorem secondsAndMarginAreJudged : Obligations.SecondsAndMarginAreJudged := by
  refine ⟨fun s showtime => ⟨fun none => ?_, fun none => ?_, fun d timer clean present one => ?_,
    fun d timer one two three => ⟨fun low high present => ?_, fun bad short => ?_⟩, fun stopped => ?_, ?_⟩,
    fun d s timer due idle => ⟨fun falling room => ?_, fun rising => ?_⟩⟩
  · show execCorrectedCodeword s = _
    rw [execCorrectedCodeword, codeword_plain showtime (by exact none)]
    exact finish_undisturbed ((Undisturbed.refl s).onCtb.onSync (by simp [State.linkStill]))
  · show execUncorrectedCodeword s = _
    rw [execUncorrectedCodeword, codeword_plain showtime (by exact none)]
    exact finish_undisturbed ((Undisturbed.refl s).onCtb.onSync (by simp [State.linkStill]))
  · exact exec_second (errored := false) (severe := false) timer (by simp [clean, present]) (by simp [clean, present])
      nofun one nofun nofun
  · exact exec_second (errored := true) (severe := false) timer (by simp [low]) (by simp [high, present]) nofun one
      (fun _ => two) nofun
  · have severe : (decide (50 ≤ s.lle.sync.uncorrected) || s.lle.sync.absentThisSecond) = true := by simpa using bad
    have errored : (decide (1 ≤ s.lle.sync.uncorrected) || s.lle.sync.absentThisSecond) = true := by
      rcases bad with many | absent
      · simp [show 1 ≤ s.lle.sync.uncorrected by omega]
      · simp [absent]
    exact exec_second timer errored severe (fun _ => short) one (fun _ => two) fun _ => three
  · show execSignalAbsent s = _
    rw [execSignalAbsent, if_pos showtime, finish_undisturbed]
    · simp only [State.onSync, stopped]
      rfl
    · exact (Undisturbed.refl s).onSync (by simp [State.linkStill])
  · show execSignalPresent s = _
    rw [execSignalPresent, if_pos showtime]
    exact finish_undisturbed ((Undisturbed.refl s).onSync (by simp [State.linkStill]))
  · obtain ⟨n, passed⟩ := reach_counts due
    have watching : (s.reach d).lle.sync.marginWatch = .falling := by rw [passed]; exact falling
    have next : exec .marginWatchExpiry s = .next (((s.reach d).onSync fun y =>
        { y with marginWatch := .low, marginTimer := none }).raise .linkLowMargin .line) := by
      show execMarginWatchExpiry s = _
      rw [execMarginWatchExpiry, onExpiry_some timer, State.marginWatchEnds, watching]
      exact finish_undisturbed (undisturbed_told ((reach_undisturbed d s).onSync (by simp [State.linkStill]))
        (gossips_raise (K := [⟨.linkLowMargin, .line⟩]) List.mem_cons_self _) idle)
    rw [passed] at next
    obtain ⟨q, f, told, firm, -⟩ := raise_room (c := .linkLowMargin) (x := .line) (by decide) (s := State.onSync
      (fun y => { y with marginWatch := .low, marginTimer := none })
      { s with now := d, lle := { s.lle with sync := { s.lle.sync with symbolCount := n } } }) room
    refine ⟨_, next, ?_⟩
    rw [told]
    exact ⟨rfl, rfl, rfl, firm.1⟩
  · obtain ⟨n, passed⟩ := reach_counts due
    have watching : (s.reach d).lle.sync.marginWatch = .rising := by rw [passed]; exact rising
    have next : exec .marginWatchExpiry s = .next (((s.reach d).onSync fun y =>
        { y with marginWatch := .ok, marginTimer := none }).makeInactive .linkLowMargin .line) := by
      show execMarginWatchExpiry s = _
      rw [execMarginWatchExpiry, onExpiry_some timer, State.marginWatchEnds, watching]
      exact finish_undisturbed (undisturbed_told ((reach_undisturbed d s).onSync (by simp [State.linkStill]))
        (gossips_makeInactive (K := [⟨.linkLowMargin, .line⟩]) List.mem_cons_self _) idle)
    rw [passed] at next
    obtain ⟨q, f, told, inactive, -⟩ := makeInactive_told (c := .linkLowMargin) (x := .line) (by decide) (State.onSync
      (fun y => { y with marginWatch := .ok, marginTimer := none })
      { s with now := d, lle := { s.lle with sync := { s.lle.sync with symbolCount := n } } })
    refine ⟨_, next, ?_⟩
    rw [told]
    exact ⟨rfl, rfl, rfl, inactive⟩

/-! ### The drops -/

/-- The part as a drop leaves it, but for what is told of it (R50). -/
def fallen (reason : DropReason) (s : State) : State :=
  (left reason .retrainWait s).onLle fun l => { l with backoffTimer := some (s.now + 2000) }

theorem drop_told (reason : DropReason) (s : State) : Gossips linkFaults (fallen reason s) (s.drop reason) :=
  (leaveLink_told reason .retrainWait s).onLle _

/-- What a drop leaves does not look at what has been told before. -/
theorem gossips_fallen {reason : DropReason} (h : Gossips K s t) (showtime : s.lle.link = .showtime) :
    Gossips K (fallen reason s) (fallen reason t) := by
  obtain ⟨q, rfl⟩ := h.frame
  have table := h.sparing
  unfold Seconds.fallen
  rw [left_showtime showtime, left_showtime (s := told q s) showtime]
  exact ⟨⟨q, rfl⟩, table⟩

/-- The survey's due marks are nothing that settling looks at. -/
theorem linkOnly_onLth {f : Lth → Lth} (h : LinkOnly t s) (stage : (f t.lth).stage = t.lth.stage)
    (running : (f t.lth).running = t.lth.running) (holdOff : (f t.lth).holdOff = t.lth.holdOff) :
    LinkOnly (t.onLth f) s := by
  refine ⟨h.supply, h.calls, h.ready, h.presence, h.portA, h.portB, h.burst, h.episodes, h.driven, h.line,
    stage.trans h.stage, running.trans h.running, fun ready => ?_⟩
  have same : (t.onLth f).phaseReady = t.phaseReady := by
    simp only [State.phaseReady, State.voltageReady, State.metallicReady, State.onLth_lth, stage, running, holdOff]
    rfl
  rw [same]
  exact h.phase ready

/-- Both voltage items are due (R170). -/
def voltagesDue (l : Lth) : Lth := { l with voltageDue := true, lineVoltageDue := true }

/-- Settles O40: what a drop leaves, after the second or the time that leads to it. -/
theorem showtimeDrops : Obligations.ShowtimeDrops := by
  intro d s due showtime
  obtain ⟨n, passed⟩ := reach_counts due
  refine ⟨fun timer nine many => ?_, fun timer => ?_⟩
  · have errored : (decide (1 ≤ s.lle.sync.uncorrected) || s.lle.sync.absentThisSecond) = true := by
      simp [show 1 ≤ s.lle.sync.uncorrected by omega]
    have severe : (decide (50 ≤ s.lle.sync.uncorrected) || s.lle.sync.absentThisSecond) = true := by simp [many]
    have reached : secondReached d s = { s with now := d, lle := { s.lle with sync := { s.lle.sync with
        symbolCount := n, secondTimer := some (d + 1000) } } } := by
      rw [secondReached, passed]
      simp only [State.onSync, timer]
      rfl
    have told : Gossips linkFaults (secondReached d s) (secondSignalled true true (secondReached d s)) :=
      .of_mutters (mutters_second true true _)
    have ended : (secondReached d s).endSecond =
        ((secondSignalled true true (secondReached d s)).onSync (secondOver true)).drop .severeErrors := by
      have tenth : ((secondSignalled true true (secondReached d s)).onSync (secondOver true)).lle.sync.severeRun ≥ 10 := by
        rw [(mutters_second true true _).frame, reached]
        show s.lle.sync.severeRun + 1 ≥ 10
        omega
      rw [endSecond_eq (errored := true) (severe := true) (by rw [reached]; exact errored) (by rw [reached]; exact severe),
        if_pos tenth]
    have dropped := (gossips_fallen (reason := .severeErrors) (told.onLle fun l => { l with sync := secondOver true l.sync })
      (by rw [reached]; exact showtime)).trans (drop_told .severeErrors _)
    rw [reached, fallen, left_showtime (by exact showtime)] at dropped
    obtain ⟨t, q, next, frame⟩ := finish_departure (s := s) dropped rfl showtime nofun rfl
    refine ⟨t, ?_, ?_⟩
    · show execSecondTimerExpiry s = _
      rw [execSecondTimerExpiry, onExpiry_some timer]
      show finish s (secondReached d s).endSecond = _
      rw [ended, reached]
      exact next
    · rw [frame]
      exact ⟨rfl, rfl, rfl, rfl, rfl, rfl, rfl, rfl, rfl, rfl⟩
  · have dropped := drop_told .lossOfSignal (s.reach d)
    rw [passed, fallen, left_showtime (by exact showtime)] at dropped
    have only := linkOnly_onLth (f := voltagesDue) (LinkOnly.of_frame (s := s) dropped rfl (.inl showtime) (by decide))
      rfl rfl rfl
    have next : exec .lossOfSignalExpiry s = .next ((State.onLth voltagesDue
        ((s.reach d).drop .lossOfSignal)).settleLink s) := by
      show execLossOfSignalExpiry s = _
      rw [execLossOfSignalExpiry, onExpiry_some timer]
      exact finish_linkOnly (by rw [passed]; exact only) fun _ => showtime
    obtain ⟨q, frame⟩ := dropped.frame
    obtain ⟨p, rail⟩ := settleLink_away (before := s) (s := State.onLth voltagesDue ((s.reach d).drop .lossOfSignal))
      (by rw [passed, frame]; exact (nofun : LinkState.retrainWait ≠ .showtime)) (by rw [passed, frame]; rfl)
    refine ⟨_, next, ?_⟩
    rw [rail, passed, frame]
    exact ⟨rfl, rfl, rfl, rfl, rfl, rfl, rfl, rfl, rfl, rfl⟩

end Sys2Proof.Proofs.Seconds
end

section
/-! The ends of the waits (O33), the training (O30, O31), and the ends of the guard (O37). -/

set_option Elab.async false

namespace Sys2Proof.Proofs.Training

open Sys2Proof Sys2Proof.Machine Sys2Proof.Proofs.Steps Sys2Proof.Proofs.Telling Sys2Proof.Proofs.Timers
open Sys2Proof.Proofs.Rules Sys2Proof.Proofs.Start Sys2Proof.Proofs.Link Sys2Proof.Proofs.Seconds

variable {s t u before : State} {K : List FaultKey}

/-- Without a survey, a change of the link to another state than SHOWTIME drives the rail, and nothing else follows. -/
theorem finish_idle (h : Gossips K u t)
    (frame : u = { s with now := u.now, ybi := u.ybi, lle := u.lle, plp := u.plp })
    (idle : s.lth.stage = .none) (away : u.lle.link ≠ .showtime) (caught : u.lle.sync.catchUpTimer = none)
    (moved : u.lle.link ≠ s.lle.link) (presence : u.ybi.presence = s.ybi.presence := by rfl) :
    finish s t = .next t.driveRail := by
  obtain ⟨q, rfl⟩ := h.frame
  have known : (told q u).ybi.presence = s.ybi.presence := presence
  have aside : Aside (told q u) s := by
    rw [frame] at known ⊢
    exact ⟨rfl, rfl, known, rfl, rfl, rfl, rfl, rfl, rfl, by simp [idle], by simp [idle]⟩
  have other : (told q u).linkStill s = false := by simp [State.linkStill, moved]
  rw [finish_aside aside (.inr (by rw [frame]; rfl)) away caught, other]
  rfl

/-! ### The ends of the waits -/

theorem handUrgent_room (f : TxFrame) (room : s.ybi.urgent.length < 4) :
    ∃ u, s.handUrgent f = s.onYbi fun y => { y with urgent := u } := by
  unfold State.handUrgent
  split
  · exact ⟨s.ybi.urgent, rfl⟩
  · rw [if_pos (by exact room)]
    exact ⟨_, rfl⟩

/-- The notice of a fault of severity OUT joins an URGENT queue with room. -/
theorem applyFault_urgent {k : FaultKey} (out : k.code.severity = .out) (r : Flt × Bool)
    (room : s.ybi.urgent.length < 4) : ∃ u, s.applyFault k r = { s with ybi := { s.ybi with urgent := u }, flt := r.1 } := by
  unfold State.applyFault
  dsimp only
  split
  · unfold State.notice
    split
    · exact ⟨s.ybi.urgent, rfl⟩
    · rw [if_pos out]
      obtain ⟨u, told⟩ := handUrgent_room (s := s.onFlt fun _ => r.1) _ room
      exact ⟨u, told⟩
  · exact ⟨s.ybi.urgent, rfl⟩

theorem makeInactive_urgent {c : FaultCode} (out : c.severity = .out) (x : FaultSource) (room : s.ybi.urgent.length < 4) :
    ∃ u f, s.makeInactive c x = { s with ybi := { s.ybi with urgent := u }, flt := f } := by
  obtain ⟨u, told⟩ := applyFault_urgent (k := ⟨c, x⟩) out (s.flt.madeInactive ⟨c, x⟩ s.now s.uptime) room
  exact ⟨u, _, told⟩

/-- LOCKOUT ends in DOWN: LINK_RETRAIN_LIMIT is made inactive, and its notice finds room (R47, R51). -/
theorem enterDown_lockout (reason : DropReason) (locked : s.lle.link = .lockout) (room : s.ybi.urgent.length < 4) :
    ∃ u f, s.enterDown reason = { s with
      ybi := { s.ybi with urgent := u }, flt := f
      lle := { s.lle.emptied with
        link := .down, lockoutTimer := none, attemptHeld := false, e := 0, d := s.cfl.record.dInit } } ∧
      f.isActive ⟨.linkRetrainLimit, .line⟩ = false := by
  have inactive := makeInactive_inactive (c := .linkRetrainLimit) (x := .line) (by decide)
    (s.onLle fun l => { l with link := .down, lockoutTimer := none, attemptHeld := false })
  obtain ⟨u, f, plain⟩ := makeInactive_urgent (c := .linkRetrainLimit) (by decide) .line
    (s := s.onLle fun l => { l with link := .down, lockoutTimer := none, attemptHeld := false }) room
  refine ⟨u, f, ?_, ?_⟩
  · rw [State.enterDown, leaveLink_lockout locked, plain]
    rfl
  · rw [plain] at inactive
    exact inactive

/-- What comes of a command that ends LOCKOUT in DOWN, from a state that differs in the queues of the bus and the
retry count alone. -/
theorem finish_lockout {reason : DropReason} (frame : t = { s with now := t.now, ybi := t.ybi, lle := t.lle })
    (presence : t.ybi.presence = s.ybi.presence) (link : s.lle.link = .lockout) (locked : t.lle.link = .lockout)
    (idle : s.lth.stage = .none) (caught : t.lle.sync.catchUpTimer = none) (room : t.ybi.urgent.length < 4) :
    ∃ w u f, finish s (t.enterDown reason) = .next w ∧ f.isActive ⟨.linkRetrainLimit, .line⟩ = false ∧
      w = { t with
        ybi := { t.ybi with urgent := u }, sup := w.sup, flt := f
        lle := { t.lle.emptied with
          link := .down, lockoutTimer := none, attemptHeld := false, e := 0, d := t.cfl.record.dInit } } := by
  obtain ⟨u, f, down, inactive⟩ := enterDown_lockout reason locked room
  have told := enterDown_told reason t
  rw [left_lockout locked] at told
  have next := finish_idle (s := s) told (by rw [frame]; rfl) idle nofun caught (by rw [link]; nofun) presence
  rw [down] at next ⊢
  exact ⟨_, u, f, next, inactive, rfl⟩

/-- Settles O33, by the wait that ends; an intrusive item holds the attempt of LOCKOUT back. -/
theorem waitsEndInDown : Obligations.WaitsEndInDown := by
  intro d s due
  refine ⟨fun idle waiting timer => ?_, fun idle locked timer room => ?_, fun running timer => ?_⟩
  · obtain ⟨away, caught, stage⟩ := idle
    have left := leaveLink_plain (s := s.reach d) (reason := .none) (next := .down)
      (by rw [reach_of_le due away]; exact away) (by rw [reach_of_le due away, waiting]; nofun)
    show execBackoffExpiry s = _
    rw [execBackoffExpiry, onExpiry_some timer, State.enterDown, left, reach_of_le due away]
    exact finish_idle (K := []) (.refl _ _) rfl stage nofun caught (by rw [waiting]; nofun)
  · obtain ⟨away, caught, stage⟩ := idle
    have passed := reach_of_le due away
    have quiet : s.intrusiveRunning = false := by simp [State.intrusiveRunning, stage]
    obtain ⟨t, u, f, next, inactive, frame⟩ := finish_lockout (s := s) (t := { s with now := d }) (reason := .none) rfl rfl
      locked locked stage caught room
    refine ⟨t, ?_, ?_⟩
    · show execLockoutExpiry s = _
      rw [execLockoutExpiry, onExpiry_some timer, State.lockoutEnds, passed, if_neg (by exact Bool.not_eq_true _ ▸ quiet)]
      exact next
    · rw [frame]
      exact ⟨rfl, rfl, rfl, inactive⟩
  · have passed := reach_undisturbed d s
    obtain ⟨m, n, moved⟩ := reach_moves d s
    have held : (s.reach d).intrusiveRunning = true := by rw [moved]; exact running
    show execLockoutExpiry s = _
    rw [execLockoutExpiry, onExpiry_some timer, State.lockoutEnds, if_pos held]
    exact finish_undisturbed (passed.onLle rfl (by simp [State.linkStill]))

/-! ### The training -/

/-- A failure short of the twelfth in a row, its event wrapping nothing (R47). -/
theorem trainingFailure_backs {reason : FailureReason} (showtime : s.lle.link ≠ .showtime) (lockout : s.lle.link ≠ .lockout)
    (short : s.lle.retry ≤ 10) (plain : s.ctb.wrapping 7 = []) : s.trainingFailure reason =
      (s.onLle fun l =>
        { l with
          link := .retrainWait, lastFailure := reason, retry := l.retry + 1, handshakeTimer := none, probeTimer := none
          loadTimer := none, backoffTimer := some (s.now + backoffMs (l.retry + 1)) }).onCtb fun b =>
        { b with counters := b.counters.map (Counter.count 7) } := by
  have count : min Config.retryMax (s.lle.retry + 1) = s.lle.retry + 1 := Nat.min_eq_right (by simp only [Config.retryMax]; omega)
  have some : s.lle.retry + 1 ≠ Config.retryMax := by simp only [Config.retryMax]; omega
  unfold State.trainingFailure
  simp only [count, some, ↓reduceIte]
  rw [signal_plain (by exact plain), State.enterRetrainWait, leaveLink_plain (by exact showtime) (by exact lockout)]
  rfl

/-- The part as the twelfth failure in a row leaves it, its event counted, but for the fault it raises (R47). -/
def lockedOut (reason : FailureReason) (s : State) : State :=
  (s.onLle fun l =>
    { l with
      link := .lockout, lastFailure := reason, retry := 12, backoffTimer := none, handshakeTimer := none
      probeTimer := none, loadTimer := none, lockoutTimer := some (s.now + 900000) }).onCtb fun b =>
  { b with counters := b.counters.map (Counter.count 7) }

theorem trainingFailure_locks {reason : FailureReason} (showtime : s.lle.link ≠ .showtime) (lockout : s.lle.link ≠ .lockout)
    (eleven : s.lle.retry = 11) (plain : s.ctb.wrapping 7 = []) :
    s.trainingFailure reason = (lockedOut reason s).raise .linkRetrainLimit .line := by
  have count : min Config.retryMax (s.lle.retry + 1) = Config.retryMax := by rw [eleven]; rfl
  unfold State.trainingFailure
  simp only [count, ↓reduceIte]
  rw [signal_plain (by exact plain), State.enterLockout, leaveLink_plain (by exact showtime) (by exact lockout)]
  rfl

theorem raise_urgent {c : FaultCode} (out : c.severity = .out) (x : FaultSource) (room : s.ybi.urgent.length < 4) :
    ∃ u, s.raise c x = { s with ybi := { s.ybi with urgent := u }, flt := (s.flt.raised ⟨c, x⟩ s.now s.uptime).1 } :=
  applyFault_urgent (k := ⟨c, x⟩) out (s.flt.raised ⟨c, x⟩ s.now s.uptime) room

/-- What is counted changes nothing that settling looks at. -/
theorem gossips_onCtb (f : Ctb → Ctb) (s : State) : Gossips K s (s.onCtb f) := .of_tells (.onCtb f s) (.refl _ _)

/-- What comes of a command that fails the training. -/
theorem finish_fails {reason : FailureReason} {instant : Nat} (idle : s.linkIdle) (due : s.now ≤ instant)
    (short : s.lle.retry ≤ 10) (plain : s.ctb.wrapping 7 = []) (waits : s.lle.link ≠ .retrainWait)
    (lockout : s.lle.link ≠ .lockout) : finish s ((s.reach instant).trainingFailure reason) = .next
      ((((s.reach instant).onLle fun l =>
          { l with
            link := .retrainWait, lastFailure := reason, retry := l.retry + 1, handshakeTimer := none, probeTimer := none
            loadTimer := none, backoffTimer := some (instant + backoffMs (l.retry + 1)) }).onCtb fun b =>
        { b with counters := b.counters.map (Counter.count 7) }).driveRail) := by
  obtain ⟨away, caught, stage⟩ := idle
  rw [reach_of_le due away, trainingFailure_backs (by exact away) (by exact lockout) (by exact short) (by exact plain)]
  exact finish_idle (K := []) (gossips_onCtb _ _) rfl stage nofun caught waits.symm

/-- Settles O31, by the command that fails the training; the twelfth failure locks the link out. -/
theorem trainingFails : Obligations.TrainingFails := by
  refine ⟨fun i reason instant s idle due short plain cause => ?_, fun d s idle link timer due eleven room plain urgent => ?_⟩
  · have now : s.reach s.now = s := reach_of_le (Nat.le_refl _) idle.1
    rcases cause with ⟨rfl, link, timer, rfl⟩ | ⟨rfl, link, rfl, rfl⟩ | ⟨rfl, link, timer, rfl⟩ |
      ⟨normal, guard, rfl, link, rfl, rfl, bad⟩
    · show execHandshakeTimeout s = _
      rw [execHandshakeTimeout, onExpiry_some timer]
      exact finish_fails idle due short plain (by rw [link]; nofun) (by rw [link]; nofun)
    · have fails := finish_fails (reason := .noFarEnd) idle due short plain (by rw [link]; nofun) (by rw [link]; nofun)
      rw [now] at fails ⊢
      show execProbeSignalLoss s = _
      rw [execProbeSignalLoss, if_pos link]
      exact fails
    · show execLoadTimeout s = _
      rw [execLoadTimeout, onExpiry_some timer]
      exact finish_fails idle due short plain (by rw [link]; nofun) (by rw [link]; nofun)
    · have fails := finish_fails (reason := .badFarTable) idle due short plain (by rw [link]; nofun) (by rw [link]; nofun)
      rw [now] at fails ⊢
      show execFarTablesReceived normal guard s = _
      rw [execFarTablesReceived, if_pos link, State.takeTables, if_pos (by simpa using bad)]
      exact fails
  · obtain ⟨away, caught, stage⟩ := idle
    have passed := reach_of_le due away
    have failed := trainingFailure_locks (s := s.reach d) (reason := .noFarEnd) (by rw [passed]; exact away)
      (by rw [passed, link]; nofun) (by rw [passed]; exact eleven) (by rw [passed]; exact plain)
    rw [passed] at failed
    have told : Gossips linkFaults _ ((lockedOut .noFarEnd { s with now := d }).raise .linkRetrainLimit .line) :=
      (gossips_onCtb _ _).trans (gossips_raise List.mem_cons_self _)
    have next : exec .handshakeTimeout s = .next
        ((lockedOut .noFarEnd { s with now := d }).raise .linkRetrainLimit .line).driveRail := by
      show execHandshakeTimeout s = _
      rw [execHandshakeTimeout, onExpiry_some timer, passed, failed]
      exact finish_idle told rfl stage nofun caught (by rw [link]; nofun)
    have active : (s.flt.raised ⟨.linkRetrainLimit, .line⟩ d (State.uptime { s with now := d })).1.isActive
        ⟨.linkRetrainLimit, .line⟩ = true :=
      Table.raised_active (by rw [Table.makeRoom_of_room room]; exact room)
    obtain ⟨u, raised⟩ := raise_urgent (c := .linkRetrainLimit) (by decide) .line (s := lockedOut .noFarEnd { s with now := d })
      urgent
    rw [raised] at next
    exact ⟨_, next, rfl, rfl, rfl, active⟩

theorem ceiling_high : s.ceiling = .high ↔ s.sup.supply = .mains := by
  unfold State.ceiling
  cases s.sup.supply <;> simp [SupplyState.ceiling]

/-- Settles O30: each step of a training changes the link alone; a rate below the floor fails it. -/
theorem trainingAdvances : Obligations.TrainingAdvances := by
  intro s idle
  obtain ⟨away, caught, stage⟩ := idle
  refine ⟨fun ready => ?_, fun link => ?_, fun d m timer due link short plain low => ?_, fun d m timer due link met => ?_⟩
  · have down : s.lle.link = .down := by
      simp only [State.mayTrain, Bool.and_eq_true, decide_eq_true_eq] at ready
      exact ready.1.1.1
    have begun : s.beginHandshake = s.onLle fun l =>
        { l with
          link := .handshake, power := if s.sup.supply = .mains then .full else .cutback, trainingBegan := s.now
          handshakeTimer := some (s.now + 5000), farOut := l.farOut ++ [.wakeTones] } := by
      simp only [State.beginHandshake, ceiling_high]
      rfl
    show execHandshakeStart s = _
    rw [execHandshakeStart, if_pos ready, begun]
    exact finish_idle (K := []) (.refl _ _) rfl stage nofun caught (by rw [down]; nofun)
  · show execFarEndAnswer s = _
    rw [execFarEndAnswer, if_pos link]
    exact finish_idle (K := []) (.refl _ _) rfl stage nofun caught (by rw [link]; nofun)
  · have below : floorMet s.cfl.record s.leakage s.lle.d (recordSnr m) = false := by
      simp [floorMet, low]
    show execProbeEnd m s = _
    rw [execProbeEnd, onExpiry_some timer, State.endProbe, reach_of_le due away]
    have failed := trainingFailure_backs (reason := .lowRate) (s := State.onLle
      (fun l => { l with link := .load, probeTimer := none, snr := recordSnr m }) { s with now := d }) nofun nofun short plain
    rw [if_neg (by exact Bool.not_eq_true _ ▸ below), failed]
    exact finish_idle (K := []) (gossips_onCtb _ _) rfl stage nofun caught (by rw [link]; nofun)
  · have next : exec (.probeEnd m) s = .next (State.chooseLoad (State.onLle
        (fun l => { l with link := .load, probeTimer := none, snr := recordSnr m }) { s with now := d })).driveRail := by
      show execProbeEnd m s = _
      rw [execProbeEnd, onExpiry_some timer, State.endProbe, reach_of_le due away]
      rw [if_pos (by exact met)]
      exact finish_idle (K := []) (.refl _ _) rfl stage nofun caught (by rw [link]; nofun)
    exact ⟨_, next, rfl, rfl, rfl, rfl⟩

end Sys2Proof.Proofs.Training
end

section
/-! The guard (O37), the refresh walker (O36) and the impulse monitor (O38), while the link stays in its state. -/

set_option Elab.async false

namespace Sys2Proof.Proofs.Walker

open Sys2Proof Sys2Proof.Machine Sys2Proof.Proofs.Steps Sys2Proof.Proofs.Telling Sys2Proof.Proofs.Timers
open Sys2Proof.Proofs.Rules Sys2Proof.Proofs.Start Sys2Proof.Proofs.Link Sys2Proof.Proofs.Seconds
open Sys2Proof.Proofs.Training

variable {s t u before : State} {K : List FaultKey}

/-- What comes of a command that leaves the link in its state: the link and the rail follow. -/
theorem finish_staying (h : Gossips K u t) (frame : u = { s with now := u.now, ybi := u.ybi, lle := u.lle, plp := u.plp })
    (link : u.lle.link = s.lle.link) (other : ⟨.foreignVoltageHigh, .line⟩ ∉ backlogKey :: K)
    (presence : u.ybi.presence = s.ybi.presence := by rfl) :
    finish s t = .next (t.settleLink s) := by
  have stays : t.lle.link = s.lle.link := by
    obtain ⟨q, rfl⟩ := h.frame
    exact link
  exact finish_linkOnly (.of_frame h frame (.inr link) other presence) fun showtime => stays ▸ showtime

/-- The same, as the state it gives. -/
theorem finish_told (h : Gossips K u t) (frame : u = { s with now := u.now, ybi := u.ybi, lle := u.lle, plp := u.plp })
    (link : u.lle.link = s.lle.link) (other : ⟨.foreignVoltageHigh, .line⟩ ∉ backlogKey :: K)
    (presence : u.ybi.presence = s.ybi.presence := by rfl) :
    ∃ w q, finish s t = .next w ∧ LinkFollows (told q u) w := by
  have next := finish_staying h frame link other presence
  obtain ⟨q, rfl⟩ := h.frame
  exact ⟨_, q, next, linkFollows_settleLink _ s⟩

/-! ### The ends of the guard -/

theorem controlPower_waits (s : State) : ∃ w, s.controlPower = s.onLle fun l => { l with powerWaiting := w } := by
  have judged (t : State) : ∃ w, (
      let busy := t.lle.powerWaiting.isSome || (match t.lle.outstanding with | some (.power _) => true | _ => false)
      if busy then t
      else if t.lle.power = .full ∧ t.ceiling = .mid then t.onLle fun l => { l with powerWaiting := some .cutback }
      else if t.lle.power = .cutback ∧ t.ceiling = .high ∧ t.sup.railLevel = .high ∧ t.sup.railReady ∧
          !t.lle.restoreRefused then
        t.onLle fun l => { l with powerWaiting := some .restore }
      else t) = t.onLle fun l => { l with powerWaiting := w } := by
    dsimp only
    repeat' split
    all_goals exact ⟨_, rfl⟩
  unfold State.controlPower
  split
  · split
    · obtain ⟨w, eq⟩ := judged (s.onLle fun l => { l with powerWaiting := none })
      exact ⟨w, eq⟩
    · obtain ⟨w, eq⟩ := judged (s.onLle fun l => { l with powerWaiting := none })
      exact ⟨w, eq⟩
    · exact judged s
  · exact ⟨s.lle.powerWaiting, rfl⟩

/-- A SWITCH that waits for the free slot goes before every other request (R56). -/
theorem pumpOverhead_switch {x : TableName} (showtime : s.lle.link = .showtime) (free : s.lle.slot = none)
    (waits : s.lle.switchWaiting = some x) : s.pumpOverhead =
      (s.onLle fun l => { l with switchWaiting := none }).sendRequest (.switch x) := by
  unfold State.pumpOverhead
  rw [if_pos ⟨showtime, by rw [free]; rfl⟩, waits]

theorem settleLink_switch {x : TableName} (moved : s.linkStill before = false) (showtime : s.lle.link = .showtime)
    (free : s.lle.slot = none) (waits : s.lle.switchWaiting = some x) :
    (s.settleLink before).lle.slot =
      some { request := .switch x, number := s.lle.nextNumber, attempt := 1, deadline := s.now + 250 } ∧
    (s.settleLink before).lle.farOut =
      s.lle.farOut ++ [.request s.lle.nextNumber (.switch x) ((OverheadRequest.switch x).carried s.lle)] := by
  obtain ⟨w, power⟩ := controlPower_waits s.driveRail
  have sent := pumpOverhead_switch (s := s.driveRail.controlPower) (x := x) (by rw [power]; exact showtime)
    (by rw [power]; exact free) (by rw [power]; exact waits)
  have caught (t : State) : t.catchUp.lle.slot = t.lle.slot ∧ t.catchUp.lle.farOut = t.lle.farOut := by
    rw [(linkFollows_catchUp t).frame]
    unfold State.catchUp
    repeat' split
    all_goals exact ⟨rfl, rfl⟩
  unfold State.settleLink
  rw [moved, sent, power]
  simp only [Bool.false_eq_true, ↓reduceIte, caught]
  exact ⟨rfl, rfl⟩

/-- With a free slot the table in force is asked for when it is not the one the guard wants (R94). -/
theorem alignTable_normal (clear : s.lle.sync.guard = .clear) (force : s.lle.downInForce = .guard)
    (free : s.lle.slot = none) (stopped : s.lle.sync.switchRetryTimer = none) :
    s.alignTable = s.onLle fun l => { l with switchWaiting := some .normal } := by
  simp [State.alignTable, clear, force, Lle.switchOutstanding, Lle.outstanding, free, stopped]

/-- When the guard wants NORMAL again, and the slot is free, it is asked for. -/
theorem switch_asked {d : Nat} {f : Machine.Showtime → Machine.Showtime} (due : s.now ≤ d) (showtime : s.lle.link = .showtime)
    (free : s.lle.slot = none) (waiting : s.lle.switchWaiting = none) (force : s.lle.downInForce = .guard)
    (clear : (f (s.reach d).lle.sync).guard = .clear) (stopped : (f (s.reach d).lle.sync).switchRetryTimer = none) :
    ∃ t, finish s ((s.reach d).onSync f).alignTable = .next t ∧ t = { s with now := t.now, sup := t.sup, lle := t.lle } ∧
      t.now = d ∧ t.lle.sync = { f (s.reach d).lle.sync with catchUpTimer := t.lle.sync.catchUpTimer } ∧
      t.lle.slot = some { request := .switch .normal, number := s.lle.nextNumber, attempt := 1, deadline := d + 250 } ∧
      t.lle.farOut = s.lle.farOut ++ [.request s.lle.nextNumber (.switch .normal) []] := by
  obtain ⟨n, passed⟩ := reach_counts due
  have aligned := alignTable_normal (s := (s.reach d).onSync f) clear (by rw [passed]; exact force)
    (by rw [passed]; exact free) stopped
  have follows := linkFollows_settleLink (((s.reach d).onSync f).onLle fun l => { l with switchWaiting := some .normal }) s
  have sent := settleLink_switch (before := s) (x := .normal)
    (s := ((s.reach d).onSync f).onLle fun l => { l with switchWaiting := some .normal })
    (by rw [passed]; simp [State.linkStill, waiting]) (by rw [passed]; exact showtime) (by rw [passed]; exact free) rfl
  rw [passed] at aligned follows sent ⊢
  refine ⟨_, (congrArg (finish s) aligned).trans (finish_staying (K := []) (.refl _ _) rfl rfl (by decide)), ?_, ?_, ?_,
    sent⟩ <;> rw [follows.frame] <;> rfl

/-- Settles O37: either timer leaves NORMAL wanted and the slot free for it. -/
theorem guardIsLeft : Obligations.GuardIsLeft := by
  intro d s due showtime free waiting force
  obtain ⟨n, passed⟩ := reach_counts due
  refine ⟨fun timer stopped => ?_, fun timer clear => ?_⟩
  · obtain ⟨t, next, frame, now, sync, sent⟩ := switch_asked (f := fun y => { y with guard := .clear, guardTimer := none })
      due showtime free waiting force rfl (by rw [passed]; exact stopped)
    refine ⟨t, ?_, frame, now, by rw [sync], by rw [sync], sent⟩
    show execGuardExit s = _
    rw [execGuardExit, onExpiry_some timer]
    exact next
  · obtain ⟨t, next, frame, now, sync, sent⟩ := switch_asked (f := fun y => { y with switchRetryTimer := none })
      due showtime free waiting force (by rw [passed]; exact clear) rfl
    refine ⟨t, ?_, frame, now, by rw [sync], sent⟩
    show execSwitchRetryExpiry s = _
    rw [execSwitchRetryExpiry, onExpiry_some timer]
    exact next

/-! ### The refresh walker -/

theorem watchMargin_watches (s : State) :
    ∃ w x, s.watchMargin = s.onSync fun y => { y with marginWatch := w, marginTimer := x } := by
  unfold State.watchMargin
  cases watch : s.lle.sync.marginWatch <;> cases low : s.marginLow <;>
    exact ⟨_, _, by simp only [State.onSync, watch]; rfl⟩

theorem onSync_onSync (f g : Machine.Showtime → Machine.Showtime) (s : State) :
    (s.onSync f).onSync g = s.onSync (g ∘ f) := rfl

/-- A decision touches the swap queue and the queue-blocked indication (R88, R89). -/
theorem applySwap_queues (g : Nat) (s : State) :
    ∃ q b, (s.applySwap g).1 = s.onSync fun y => { y with swapQueue := q, queueBlocked := b } := by
  unfold State.applySwap
  dsimp only
  repeat' split
  all_goals exact ⟨_, _, rfl⟩

theorem applySwap_room (g : Nat) (room : s.lle.sync.swapQueue.length < 8) : (s.applySwap g).2 = true := by
  have short : decide (Config.swapCapacity ≤ s.lle.sync.swapQueue.length) = false :=
    decide_eq_false (Nat.not_le.mpr room)
  unfold State.applySwap
  simp only [short, Bool.and_false, Bool.false_eq_true, ↓reduceIte]
  repeat' split
  all_goals rfl

/-- A decision with a reason for a group without an entry finds a full queue (R84). -/
theorem applySwap_full {g : Nat} (full : s.lle.sync.swapQueue.length = 8)
    (absent : ∀ x ∈ s.lle.sync.swapQueue, x.group ≠ g)
    (reason : swapReason s.cfl.record.minMargin (groupOf s.lle.snr g) (groupOf s.lle.normal g) (s.proposed g) ≠ none) :
    s.applySwap g = (s, false) := by
  obtain ⟨r, decided⟩ := Option.ne_none_iff_exists'.mp reason
  have none (l : List SwapEntry) (sub : ∀ x ∈ l, x ∈ s.lle.sync.swapQueue) : l.any (fun x => x.group == g) = false := by
    simp only [List.any_eq_false, beq_iff_eq]
    exact fun x mem => absent x (sub x mem)
  have rest : (if s.lle.swapOutstanding then s.lle.sync.swapQueue.drop 1 else s.lle.sync.swapQueue).any
      (fun x => x.group == g) = false := by
    split
    · exact none _ fun x => List.mem_of_mem_drop
    · exact none _ fun x mem => mem
  unfold State.applySwap
  simp only [decided, rest, full, Config.swapCapacity]
  rfl

/-- A refresh whose decision finds room: the pointer goes on, and a catch-up pays a visit (R83). -/
theorem refresh_room {regular : Bool} {m : List Int} (room : s.lle.sync.swapQueue.length < 8) :
    ∃ q b w x, s.refresh regular m = (s.measureGroup s.lle.sync.pointer m).onSync fun y =>
      { Showtime.advance s.lle.sync.pointer { y with swapQueue := q, queueBlocked := b } with
        debt := if regular then y.debt else y.debt - 1, marginWatch := w, marginTimer := x } := by
  have found : (State.applySwap s.lle.sync.pointer (s.measureGroup s.lle.sync.pointer m)).2 = true := applySwap_room _ room
  obtain ⟨q, b, queues⟩ := applySwap_queues s.lle.sync.pointer (s.measureGroup s.lle.sync.pointer m)
  unfold State.refresh
  simp only [found, queues, ↓reduceIte]
  cases regular with
  | true =>
    obtain ⟨w, x, watches⟩ := watchMargin_watches (State.onSync (Showtime.advance s.lle.sync.pointer) (State.onSync
      (fun y => { y with swapQueue := q, queueBlocked := b }) (s.measureGroup s.lle.sync.pointer m)))
    refine ⟨q, b, w, x, ?_⟩
    simp only [↓reduceIte, watches]
    rfl
  | false =>
    obtain ⟨w, x, watches⟩ := watchMargin_watches (State.onSync (fun y => { y with debt := y.debt - 1 })
      (State.onSync (Showtime.advance s.lle.sync.pointer) (State.onSync
      (fun y => { y with swapQueue := q, queueBlocked := b }) (s.measureGroup s.lle.sync.pointer m))))
    refine ⟨q, b, w, x, ?_⟩
    simp only [Bool.false_eq_true, ↓reduceIte, watches]
    rw [onSync_onSync, onSync_onSync, onSync_onSync]
    exact congrArg (fun f => State.onSync f _) (funext fun y => rfl)

/-- A refresh that finds the queue full keeps what it smoothed and holds the walker (R84). -/
theorem refresh_full {regular : Bool} {m : List Int} (full : s.lle.sync.swapQueue.length = 8)
    (absent : ∀ x ∈ s.lle.sync.swapQueue, x.group ≠ s.lle.sync.pointer)
    (reason : swapReason s.cfl.record.minMargin (groupOf (s.measureGroup s.lle.sync.pointer m).lle.snr s.lle.sync.pointer)
      (groupOf s.lle.normal s.lle.sync.pointer)
      ((s.measureGroup s.lle.sync.pointer m).proposed s.lle.sync.pointer) ≠ none)
    (short : regular = true → s.lle.sync.debt < 8) :
    ∃ w x, s.refresh regular m = (s.measureGroup s.lle.sync.pointer m).onSync fun y =>
      { y with
        queueBlocked := true, debt := if regular then y.debt + 1 else y.debt, marginWatch := w, marginTimer := x } := by
  have found := applySwap_full (s := s.measureGroup s.lle.sync.pointer m) (g := s.lle.sync.pointer) full absent reason
  unfold State.refresh
  simp only [found, Bool.false_eq_true, ↓reduceIte]
  cases regular with
  | true =>
    have deferred : State.defer (State.onSync (fun y => { y with queueBlocked := true })
        (s.measureGroup s.lle.sync.pointer m)) = State.onSync (fun y => { y with queueBlocked := true, debt := y.debt + 1 })
        (s.measureGroup s.lle.sync.pointer m) := by
      unfold State.defer
      rw [if_pos (by exact short rfl)]
      rfl
    obtain ⟨w, x, watches⟩ := watchMargin_watches (State.onSync (fun y => { y with queueBlocked := true, debt := y.debt + 1 })
        (s.measureGroup s.lle.sync.pointer m))
    refine ⟨w, x, ?_⟩
    simp only [↓reduceIte, deferred, watches]
    rfl
  | false =>
    obtain ⟨w, x, watches⟩ := watchMargin_watches (State.onSync (fun y => { y with queueBlocked := true })
        (s.measureGroup s.lle.sync.pointer m))
    exact ⟨w, x, watches⟩

/-- The part at the instant a timer of the walker is due at. -/
def walkerAt (d n : Nat) (refresh catching : Timer) (s : State) : State :=
  { s with now := d, lle := { s.lle with sync := { s.lle.sync with
      symbolCount := n, refreshTimer := refresh, catchUpTimer := catching } } }

theorem refreshTimer_reached {d : Nat} (due : s.now ≤ d) (timer : s.lle.sync.refreshTimer = some d) : ∃ n,
    (s.reach d).onSync (fun y => { y with refreshTimer := restart y.refreshTimer Config.refreshMs }) =
      walkerAt d n (some (d + 500)) s.lle.sync.catchUpTimer s := by
  obtain ⟨n, passed⟩ := reach_counts due
  refine ⟨n, ?_⟩
  rw [passed]
  simp only [State.onSync, timer]
  rfl

theorem catchUpTimer_reached {d : Nat} (due : s.now ≤ d) : ∃ n,
    (s.reach d).onSync (fun y => { y with catchUpTimer := none }) =
      walkerAt d n s.lle.sync.refreshTimer none s := by
  obtain ⟨n, passed⟩ := reach_counts due
  exact ⟨n, by rw [passed]; rfl⟩

/-- What settles after a visit of the walker. -/
theorem finish_walker {d n : Nat} {x y : Timer} {f : Machine.Showtime → Machine.Showtime} :
    finish s ((walkerAt d n x y s).onSync f) = .next (((walkerAt d n x y s).onSync f).settleLink s) :=
  finish_staying (K := []) (.refl _ _) rfl rfl (by decide)

theorem finish_measured {d n g : Nat} {x y : Timer} {m : List Int} {f : Machine.Showtime → Machine.Showtime} :
    finish s (((walkerAt d n x y s).measureGroup g m).onSync f) =
      .next ((((walkerAt d n x y s).measureGroup g m).onSync f).settleLink s) :=
  finish_staying (K := []) (.refl _ _) rfl rfl (by decide)

theorem exec_refreshTimer {d : Nat} {m : List Int} (timer : s.lle.sync.refreshTimer = some d)
    (visit : State.refreshDue m (s.reach d) = t) : exec (.refreshTimerExpiry m) s = finish s t := by
  show execRefreshTimerExpiry m s = _
  rw [execRefreshTimerExpiry, onExpiry_some timer, visit]

theorem exec_catchUp {d : Nat} {m : List Int} (timer : s.lle.sync.catchUpTimer = some d)
    (visit : State.refresh false m ((s.reach d).onSync fun y => { y with catchUpTimer := none }) = t) :
    exec (.catchUpExpiry m) s = finish s t := by
  show execCatchUpExpiry m s = _
  rw [execCatchUpExpiry, onExpiry_some timer, visit]

theorem refreshDue_held {m : List Int} (reached : s.onSync (fun y =>
    { y with refreshTimer := restart y.refreshTimer Config.refreshMs }) = t) (held : t.lle.refreshAllowed = false) :
    s.refreshDue m = t.defer := by
  unfold State.refreshDue
  rw [reached, if_neg (by simp [held])]

theorem refreshDue_allowed {m : List Int} (reached : s.onSync (fun y =>
    { y with refreshTimer := restart y.refreshTimer Config.refreshMs }) = t) (allowed : t.lle.refreshAllowed = true) :
    s.refreshDue m = t.refresh true m := by
  unfold State.refreshDue
  rw [reached, if_pos allowed]

theorem defer_short (short : s.lle.sync.debt < 8) : s.defer = s.onSync fun y => { y with debt := y.debt + 1 } :=
  if_pos short

theorem defer_full (full : s.lle.sync.debt = 8) (plain : s.ctb.wrapping 13 = []) :
    s.defer = s.onCtb fun b => { b with counters := b.counters.map (Counter.count 13) } := by
  rw [State.defer, if_neg (by rw [full]; decide), signal_plain (by exact plain)]
  rfl

/-- Settles O36, by the refresh being allowed or not, and its decision finding room or not. -/
theorem walkerRefreshes : Obligations.WalkerRefreshes := by
  intro d m s due showtime
  refine ⟨fun timer held short => ?_, fun timer held full plain => ?_, fun i debt full absent reason visit => ?_,
    fun timer allowed room => ?_, fun timer room => ?_⟩
  · obtain ⟨n, reached⟩ := refreshTimer_reached due timer
    have deferred := (refreshDue_held (m := m) reached held).trans (defer_short short)
    refine ⟨_, (exec_refreshTimer timer deferred).trans finish_walker, ?_, ?_, ?_, ?_, ?_, ?_⟩ <;>
      rw [(linkFollows_settleLink _ s).frame] <;> rfl
  · obtain ⟨n, reached⟩ := refreshTimer_reached due timer
    have deferred := (refreshDue_held (m := m) reached held).trans (defer_full full plain)
    refine ⟨_, (exec_refreshTimer timer deferred).trans
      (finish_staying (K := []) (gossips_onCtb _ _) rfl rfl (by decide)), ?_, ?_, ?_, ?_, ?_, ?_, ?_⟩ <;>
      rw [(linkFollows_settleLink _ s).frame]
    · rfl
    · rfl
    · exact full
    all_goals rfl
  · rcases visit with ⟨rfl, timer, allowed, short, rfl⟩ | ⟨rfl, timer, rfl⟩
    · obtain ⟨n, reached⟩ := refreshTimer_reached due timer
      obtain ⟨w, x, measured⟩ := refresh_full (s := walkerAt d n (some (d + 500)) s.lle.sync.catchUpTimer s)
        (regular := true) (m := m) full absent reason fun _ => short
      have refreshed := (refreshDue_allowed reached allowed).trans measured
      refine ⟨_, (exec_refreshTimer timer refreshed).trans finish_measured, ?_, ?_, ?_, ?_, ?_, ?_, ?_, ?_, ?_⟩ <;>
        rw [(linkFollows_settleLink _ s).frame] <;> rfl
    · obtain ⟨n, reached⟩ := catchUpTimer_reached due
      obtain ⟨w, x, measured⟩ := refresh_full (s := walkerAt d n s.lle.sync.refreshTimer none s)
        (regular := false) (m := m) full absent reason nofun
      have refreshed := (congrArg (State.refresh false m) reached).trans measured
      refine ⟨_, (exec_catchUp timer refreshed).trans finish_measured, ?_, ?_, ?_, ?_, ?_, ?_, ?_, ?_, ?_⟩ <;>
        rw [(linkFollows_settleLink _ s).frame] <;> rfl
  · obtain ⟨n, reached⟩ := refreshTimer_reached due timer
    obtain ⟨q, b, w, x, measured⟩ := refresh_room (s := walkerAt d n (some (d + 500)) s.lle.sync.catchUpTimer s)
      (regular := true) (m := m) room
    have refreshed := (refreshDue_allowed reached allowed).trans measured
    refine ⟨_, (exec_refreshTimer timer refreshed).trans finish_measured, ?_, ?_, ?_, ?_, ?_, ?_, ?_, ?_, ?_⟩ <;>
      rw [(linkFollows_settleLink _ s).frame] <;> rfl
  · obtain ⟨n, reached⟩ := catchUpTimer_reached due
    obtain ⟨q, b, w, x, measured⟩ := refresh_room (s := walkerAt d n s.lle.sync.refreshTimer none s)
      (regular := false) (m := m) room
    have refreshed := (congrArg (State.refresh false m) reached).trans measured
    refine ⟨_, (exec_catchUp timer refreshed).trans finish_measured, ?_, ?_, ?_, ?_, ?_, ?_, ?_, ?_⟩ <;>
      rw [(linkFollows_settleLink _ s).frame] <;> rfl

/-! ### The impulse monitor -/

/-- The SHIELD request that a needed depth turns into (R99). -/
def shieldAsked (want : Nat) (s : State) : State :=
  if s.lle.shieldOutstanding then s
  else if want = s.lle.d then s.onLle fun l => { l with shieldWaiting := none }
  else if s.lle.sync.shieldRefused then s
  else s.onLle fun l => { l with shieldWaiting := some want }

/-- FENCE_IMPULSE under a needed depth (R100). -/
def fenceJudged (need : Nat) (s : State) : State :=
  let holds := s.lle.sync.lock.isSome && decide (s.cfl.record.dMax < need)
  if holds = s.lle.sync.fenceHeld then s
  else
    let s := s.onSync fun y => { y with fenceHeld := holds }
    if holds then s.raise .fenceImpulse .line else s.makeInactive .fenceImpulse .line

theorem recomputeDepth_eq (s : State) : s.recomputeDepth = fenceJudged (depthNeeded s.lle.sync)
    (shieldAsked (requestedDepth s.cfl.record s.lle (depthNeeded s.lle.sync))
      (s.onSync fun y => { y with neededDepth := depthNeeded s.lle.sync })) := rfl

theorem shieldAsked_waits (want : Nat) (s : State) :
    ∃ w, shieldAsked want s = s.onLle fun l => { l with shieldWaiting := w } := by
  unfold shieldAsked
  repeat' split
  all_goals exact ⟨_, rfl⟩

/-- FENCE_IMPULSE, alone or with BUS_BACKLOG, may have been raised. -/
def fenceFaults : List FaultKey := [backlogKey, ⟨.fenceImpulse, .line⟩]

theorem fenceJudged_told (need : Nat) (s : State) : ∃ h q f, fenceJudged need s =
    { s with ybi := { s.ybi with routine := q }, flt := f, lle := { s.lle with sync := { s.lle.sync with fenceHeld := h } } } ∧
      Sparing fenceFaults s.flt f := by
  unfold fenceJudged
  dsimp only
  split
  · exact ⟨s.lle.sync.fenceHeld, s.ybi.routine, s.flt, rfl, .refl _ _⟩
  · split
    · obtain ⟨q, o, told⟩ := raise_routine (c := .fenceImpulse) (by decide) .line (s.onSync fun y =>
        { y with fenceHeld := s.lle.sync.lock.isSome && decide (s.cfl.record.dMax < need) })
      refine ⟨_, q, _, told, ?_⟩
      exact (sparing_raised (List.mem_cons_of_mem _ List.mem_cons_self) _ _ _).trans
        (.of_spares (.of_entries backlogKey rfl) List.mem_cons_self)
    · obtain ⟨q, f, told, -, spares, -⟩ := makeInactive_told (c := .fenceImpulse) (x := .line) (by decide) (s.onSync fun y =>
        { y with fenceHeld := s.lle.sync.lock.isSome && decide (s.cfl.record.dMax < need) })
      exact ⟨_, q, f, told, .of_spares spares (List.mem_cons_of_mem _ List.mem_cons_self)⟩

/-- The needed depth follows the list and the lock (R99, R100). -/
theorem recomputeDepth_told (s : State) : ∃ w h q f, s.recomputeDepth =
    { s with
      ybi := { s.ybi with routine := q }, flt := f
      lle := { s.lle with
        shieldWaiting := w
        sync := { s.lle.sync with neededDepth := depthNeeded s.lle.sync, fenceHeld := h } } } ∧
      Sparing fenceFaults s.flt f := by
  obtain ⟨w, asked⟩ := shieldAsked_waits (requestedDepth s.cfl.record s.lle (depthNeeded s.lle.sync))
    (s.onSync fun y => { y with neededDepth := depthNeeded s.lle.sync })
  obtain ⟨h, q, f, judged, spared⟩ := fenceJudged_told (depthNeeded s.lle.sync)
    (State.onLle (fun l => { l with shieldWaiting := w }) (s.onSync fun y => { y with neededDepth := depthNeeded s.lle.sync }))
  refine ⟨w, h, q, f, ?_, spared⟩
  rw [recomputeDepth_eq, asked]
  exact judged

/-- The same, for what settles after it. -/
theorem gossips_depth (s : State) : ∃ w h, Gossips [⟨.fenceImpulse, .line⟩] (s.onLle fun l =>
    { l with
      shieldWaiting := w, sync := { l.sync with neededDepth := depthNeeded s.lle.sync, fenceHeld := h } })
    s.recomputeDepth := by
  obtain ⟨w, h, q, f, told, spared⟩ := recomputeDepth_told s
  refine ⟨w, h, ?_⟩
  rw [told]
  exact ⟨⟨⟨s.ybi.urgent, s.ybi.call, q, s.ybi.backlogTimer, f, s.ctb⟩, rfl⟩, spared⟩

/-- Under the lock rules an event sets the lock, and may be counted (R97, R98). -/
theorem lockRules_locks (i : Impulse) (s : State) :
    ∃ k, Gossips K (s.onSync fun y => { y with lock := k }) (s.lockRules i) := by
  unfold State.lockRules
  dsimp only
  split
  · split
    · exact ⟨s.lle.sync.lock, .refl _ _⟩
    · exact ⟨_, .refl _ _⟩
  · split
    · rename_i k _ _
      exact ⟨some (predictAt k.period (i.start + k.period) 0 s.lle.sync.impulses),
        (Gossips.of_mutters (mutters_signal .predictedImpulseHit s)).onLle fun l => { l with sync := { l.sync with
          lock := some (predictAt k.period (i.start + k.period) 0 l.sync.impulses) } }⟩
    · exact ⟨s.lle.sync.lock, .refl _ _⟩

theorem gossips_lle (h : Gossips K s t) : t.lle = s.lle := by
  obtain ⟨q, rfl⟩ := h.frame
  rfl

/-- The part as an event joins the list, the lock set to `k` and the request that waits to `w` (R96 to R100). -/
def impulseTaken (i : Impulse) (k : Option FenceLock) (w : Option Nat) (h : Bool) (s : State) : State :=
  s.onLle fun l =>
    { l with
      shieldWaiting := w
      sync := { l.sync with
        symbolCount := max l.sync.symbolCount i.start, impulses := listImpulse i l.sync.impulses, shieldRefused := false
        lock := k, fenceHeld := h
        neededDepth := depthNeeded { l.sync with impulses := listImpulse i l.sync.impulses, lock := k } } }

/-- An event joins the list (R96). -/
def listing (i : Impulse) (l : Lle) : Lle :=
  { l with sync := { l.sync with
    symbolCount := max l.sync.symbolCount i.start, impulses := listImpulse i l.sync.impulses, shieldRefused := false } }

theorem takeImpulse_listing (i : Impulse) (s : State) :
    s.takeImpulse i = (((s.signal .impulseEvent).onLle (listing i)).lockRules i).recomputeDepth := rfl

theorem takeImpulse_told (i : Impulse) (s : State) :
    ∃ k w h, Gossips [⟨.fenceImpulse, .line⟩] (impulseTaken i k w h s) (s.takeImpulse i) := by
  have listed := (Gossips.of_mutters (K := [⟨.fenceImpulse, .line⟩]) (mutters_signal .impulseEvent s)).onLle (listing i)
  obtain ⟨k, locked⟩ := lockRules_locks (K := [⟨.fenceImpulse, .line⟩]) i ((s.signal .impulseEvent).onLle (listing i))
  have ruled := (listed.onLle fun l => { l with sync := { l.sync with lock := k } }).trans locked
  obtain ⟨w, h, judged⟩ := gossips_depth (((s.signal .impulseEvent).onLle (listing i)).lockRules i)
  refine ⟨k, w, h, ?_⟩
  rw [gossips_lle ruled] at judged
  rw [takeImpulse_listing]
  exact (ruled.onLle _).trans judged

/-- The part as the lock ends at its third miss in a row (R97). -/
def unlocked (k : FenceLock) (s : State) : State :=
  s.onSync fun y => { y with symbolCount := max y.symbolCount (k.windowEnd + 1), lock := none, shieldRefused := false }

theorem missPrediction_third {k : FenceLock} (third : 2 ≤ k.misses) :
    State.missPrediction k (s.onSync fun y => { y with symbolCount := max y.symbolCount (k.windowEnd + 1) }) =
      State.recomputeDepth (unlocked k s) := by
  unfold State.missPrediction
  rw [if_neg (by omega)]
  rfl

theorem exec_predictionMiss_third {k : FenceLock} (lock : s.lle.sync.lock = some k) (third : 2 ≤ k.misses) :
    exec .predictionMiss s = .next (State.settleLink (State.recomputeDepth (unlocked k s)) s) := by
  obtain ⟨w, h, judged⟩ := gossips_depth (unlocked k s)
  show execPredictionMiss s = _
  rw [execPredictionMiss, lock]
  dsimp only
  rw [missPrediction_third third]
  exact finish_staying judged rfl rfl (by decide)

/-- The third miss in a row ends the lock, and the depth is computed anew (R97). -/
theorem predictionMiss_third {k : FenceLock} (lock : s.lle.sync.lock = some k) (third : 2 ≤ k.misses) :
    ∃ t, exec .predictionMiss s = .next t ∧
      t = { s with ybi := t.ybi, sup := t.sup, lle := t.lle, flt := t.flt } ∧
      t.lle.sync.lock = none ∧
      t.lle.sync.neededDepth = largestImpulse s.lle.sync.impulses ∧ t.lle.sync.impulses = s.lle.sync.impulses := by
  have next := exec_predictionMiss_third lock third
  obtain ⟨w, h, q, f, told, spared⟩ := recomputeDepth_told (unlocked k s)
  rw [told] at next
  refine ⟨_, next, ?_, ?_, ?_, ?_⟩ <;> rw [(linkFollows_settleLink _ s).frame] <;> rfl

/-- Settles O38: an event and a third miss compute the needed depth anew; a miss before that moves the prediction on. -/
theorem impulsesAreFollowed : Obligations.ImpulsesAreFollowed := by
  refine ⟨fun start length s showtime => ?_, fun k s lock => ⟨fun again => ?_, fun third => ?_⟩⟩
  · obtain ⟨k, w, h, told⟩ := takeImpulse_told { start := start, length := min 32 length } s
    obtain ⟨t, q, next, follows⟩ := finish_told (s := s) told rfl rfl (by decide)
    refine ⟨t, ?_, ?_⟩
    · show execImpulseEvent start length s = _
      rw [execImpulseEvent, if_pos showtime]
      exact next
    · rw [follows.frame]
      exact ⟨rfl, rfl, rfl, rfl, rfl, showtime⟩
  · have missed : State.missPrediction k (s.onSync fun y => { y with symbolCount := max y.symbolCount (k.windowEnd + 1) }) =
        s.onSync fun y =>
        { y with
          symbolCount := max y.symbolCount (k.windowEnd + 1)
          lock := some
            { period := k.period, predicted := k.predicted + k.period,
              windowEnd := k.predicted + k.period + largestImpulse y.impulses + 2, misses := k.misses + 1 } } := by
      unfold State.missPrediction
      rw [if_pos (by omega)]
      rfl
    show execPredictionMiss s = _
    rw [execPredictionMiss, lock]
    dsimp only
    rw [missed]
    exact finish_undisturbed ((Undisturbed.refl s).onSync (by simp [State.linkStill]))
  · exact predictionMiss_third lock third

end Sys2Proof.Proofs.Walker
end

section
/-! The link under its managers (O27). -/

set_option Elab.async false

namespace Sys2Proof.Proofs.Managers

open Sys2Proof Sys2Proof.Machine Sys2Proof.Proofs.Steps Sys2Proof.Proofs.Telling Sys2Proof.Proofs.Requests
open Sys2Proof.Proofs.Timers Sys2Proof.Proofs.Start Sys2Proof.Proofs.Link Sys2Proof.Proofs.Seconds
open Sys2Proof.Proofs.Training

variable {s t u before : State} {d : Delivered} {rest : List Delivered} {K : List FaultKey}

/-- A management request at the head of the receive buffer is served. -/
theorem serve_manager {pick : Delivered → Bool} {g : Delivered → State → State} (head : s.heads d rest)
    (picked : pick d = true) (manager : s.isManager d.src = true) :
    s.serve pick (fun d s => s.asManager d (g d)) = g d (s.taken rest) := by
  rw [serve_heads head picked]
  exact asManager_manager manager

/-- One of a station that is not a manager is refused (R21). -/
theorem finish_notManager {pick : Delivered → Bool} {g : Delivered → State → State} {k : Kind} (head : s.heads d rest)
    (room : s.callRoom) (other : s.isManager d.src = false) (picked : pick d = true) (kind : d.message.kind = k) :
    finish s (s.serve pick fun d s => s.asManager d (g d)) =
      .next (s.called rest (refuseFrame d.src k .notPermitted 0)) :=
  kind ▸ finish_refused head picked room (if_neg (Bool.not_eq_true _ ▸ other))

/-! ### A frame that stays in the ROUTINE queue -/

/-- What is put in the place of an unsent frame leaves the frames that the test does not pick. -/
theorem mem_replaceUnsent {sending : Bool} {p : TxFrame → Bool} {f x : TxFrame} {q q' : List TxFrame}
    (replaced : replaceUnsent sending p f q = some q') (mem : x ∈ q) (spared : p x = false) : x ∈ q' := by
  have kept {l : List TxFrame} (mem : x ∈ l) :
      x ∈ l.takeWhile (fun x => !p x) ++ f :: (l.dropWhile (fun x => !p x)).drop 1 := by
    rw [← List.takeWhile_append_dropWhile (p := fun x => !p x) (l := l)] at mem
    rcases List.mem_append.mp mem with mem | mem
    · exact List.mem_append_left _ mem
    · refine List.mem_append_right _ (List.mem_cons_of_mem _ ?_)
      cases rest : l.dropWhile (fun x => !p x) with
      | nil => rw [rest] at mem; cases mem
      | cons y ys =>
        rw [rest] at mem
        rcases List.mem_cons.mp mem with rfl | mem
        · have picked := List.dropWhile_get_zero_not (fun x => !p x) l (by rw [rest]; exact Nat.succ_pos _)
          simp [rest, spared] at picked
        · exact mem
  obtain ⟨-, queue⟩ := Option.ite_none_right_eq_some.mp replaced
  obtain rfl := Option.some.inj queue
  cases sending with
  | false => exact kept mem
  | true =>
    rw [← List.take_append_drop 1 q] at mem
    simp only [↓reduceIte, List.append_assoc]
    rcases List.mem_append.mp mem with mem | mem
    · exact List.mem_append_left _ mem
    · exact List.mem_append_right _ (kept mem)

/-- A frame of the ROUTINE queue is there still. -/
def Stays (f : TxFrame) (s t : State) : Prop := f ∈ s.ybi.routine → f ∈ t.ybi.routine

variable {f : TxFrame}

theorem stays_noticeRoutine (plain : f.fault = none) (e : FaultEntry) (s : State) : Stays f s (s.noticeRoutine e) := by
  intro mem
  unfold State.noticeRoutine
  dsimp only
  split
  · exact mem
  · split
    · rename_i q replaced
      exact mem_replaceUnsent replaced mem (by simp [plain])
    · split
      · exact List.mem_append_left _ mem
      · split <;> exact mem

theorem stays_backlog (plain : f.fault = none) (s : State) : Stays f s s.backlog := by
  intro mem
  unfold State.backlog
  dsimp only
  split
  · exact stays_noticeRoutine plain _ _ mem
  · exact mem

theorem stays_foldl {α : Type} {g : State → α → State} (hg : ∀ s a, Stays f s (g s a)) (l : List α) (s : State) :
    Stays f s (l.foldl g s) := by
  induction l generalizing s with
  | nil => exact fun mem => mem
  | cons a l ih => exact fun mem => ih (g s a) (hg s a mem)

theorem stays_signalFuel (plain : f.fault = none) (fuel : Nat) (e : Event) (s : State) :
    Stays f s (State.signalFuel fuel e s) := by
  induction fuel generalizing e s with
  | zero => exact fun mem => mem
  | succ fuel ih =>
    intro mem
    refine stays_foldl (fun s p mem => ?_) _ _ mem
    unfold State.handWrap
    split
    · exact mem
    · split
      · exact List.mem_append_left _ mem
      · exact stays_backlog plain _ (ih _ s mem)

theorem stays_frameDropped (plain : f.fault = none) (s : State) : Stays f s s.frameDropped :=
  fun mem => stays_backlog plain _ (stays_signalFuel plain 9 _ s mem)

theorem stays_makeInactive (plain : f.fault = none) {c : FaultCode} (low : c.severity ≠ .out) (x : FaultSource) (s : State) :
    Stays f s (s.makeInactive c x) := by
  intro mem
  unfold State.makeInactive State.applyFault
  dsimp only
  split
  · unfold State.notice
    split
    · exact mem
    · rw [if_neg (by exact low)]
      exact stays_noticeRoutine plain _ _ mem
  · exact mem

theorem stays_lineStatus (plain : f.fault = none) (s : State) : Stays f s s.lineStatus := by
  intro mem
  unfold State.lineStatus State.handRoutine
  split
  · exact mem
  · rw [if_neg (by simp [lineStatusFrame, plainFrame])]
    dsimp only
    split
    · exact List.mem_append_left _ mem
    · exact stays_frameDropped plain _ mem

/-- A frame that is no FAULT notice stays in the ROUTINE queue over a departure from SHOWTIME. -/
theorem stays_departShowtime (plain : f.fault = none) (reason : DropReason) (next : LinkState) (s : State) :
    Stays f s (s.departShowtime reason next) := by
  have dropped (n : Nat) (t : State) : Stays f t (Nat.repeat State.frameDropped n t) := by
    induction n with
    | zero => exact fun mem => mem
    | succ n ih => exact fun mem => stays_frameDropped plain _ (ih mem)
  intro mem
  exact stays_lineStatus plain _ (stays_makeInactive plain (by decide) _ _ (stays_makeInactive plain (by decide) _ _
    (dropped _ _ (stays_signalFuel plain 9 _ _ mem))))

/-! ### The commands -/

/-- What comes of a management command that takes the link DOWN from a training or a wait. -/
theorem finish_down {reason : DropReason} (frame : t = { s with ybi := t.ybi, lle := t.lle })
    (presence : t.ybi.presence = s.ybi.presence) (link : t.lle.link = s.lle.link) (showtime : s.lle.link ≠ .showtime)
    (lockout : s.lle.link ≠ .lockout) (down : s.lle.link ≠ .down) (idle : s.lth.stage = .none)
    (caught : t.lle.sync.catchUpTimer = none) : finish s (t.enterDown reason) = .next
      ((t.onLle fun l =>
        { l.emptied with
          link := .down, backoffTimer := none, handshakeTimer := none, probeTimer := none, loadTimer := none, e := 0
          d := s.cfl.record.dInit }).driveRail) := by
  have record : t.cfl.record = s.cfl.record := by rw [frame]
  rw [State.enterDown, leaveLink_plain (by rw [link]; exact showtime) (by rw [link]; exact lockout), record]
  exact finish_idle (K := []) (.refl _ _) (by rw [frame]; rfl) idle nofun caught down.symm presence

/-- The part with the retry count at 0 and the answer of CLEAR_RETRY queued. -/
def retryCleared (d : Delivered) (rest : List Delivered) (s : State) : State :=
  (s.routined rest (doneFrame d.src .clearRetry)).onLle fun l => { l with retry := 0 }

theorem answer_retryCleared (room : s.routineRoom) :
    ((s.taken rest).onLle fun l => { l with retry := 0 }).done d.src .clearRetry = retryCleared d rest s :=
  done_room (s := s.onLle fun l => { l with retry := 0 }) room

/-- CLEAR_RETRY ends a wait and a lockout (R54). -/
theorem clearRetry_waits (room : s.routineRoom) (link : s.lle.link = .retrainWait ∨ s.lle.link = .lockout) :
    State.clearRetry d (s.taken rest) = (retryCleared d rest s).enterDown .none := by
  have same : (retryCleared d rest s).lle.link = s.lle.link := rfl
  unfold State.clearRetry
  rw [answer_retryCleared room]
  dsimp only
  rcases link with link | link <;> rw [same, link]

theorem clearRetry_plain (room : s.routineRoom) (waits : s.lle.link ≠ .retrainWait) (lockout : s.lle.link ≠ .lockout) :
    State.clearRetry d (s.taken rest) = retryCleared d rest s := by
  unfold State.clearRetry
  rw [answer_retryCleared room]
  dsimp only
  split
  · exact absurd ‹_› waits
  · exact absurd ‹_› lockout
  · rfl

theorem stays_enterDown (plain : f.fault = none) (link : s.lle.link = .showtime) (reason : DropReason) :
    Stays f s (s.enterDown reason) := by
  intro mem
  have kept : f ∈ (State.departShowtime reason .down s).ybi.routine := stays_departShowtime plain reason .down s mem
  have same : (s.enterDown reason).ybi = (s.leaveLink reason .down).ybi := rfl
  rw [same, leaveLink_showtime link]
  exact kept

/-- RETRAIN takes the link DOWN from SHOWTIME by a drop, its answer queued. -/
theorem retrain_showtime (head : s.heads d rest) (room : s.routineRoom) (manager : s.isManager d.src = true)
    (message : d.message = .linkControl 3) (link : s.lle.link = .showtime) :
    ∃ t, exec .linkControlRetrain s = .next t ∧
      t = { s with ybi := t.ybi, sup := t.sup, lle := t.lle, plp := t.plp, flt := t.flt, ctb := t.ctb } ∧
      t.lle.link = .down ∧ t.lle.lastDrop = .forced ∧ t.lle.lastShow = some s.showValues ∧
      t.lle.sync = Showtime.start ∧ t.lle.slot = none ∧ t.lle.normal = emptyDown ∧ t.lle.guard = emptyDown ∧
      t.lle.e = 0 ∧ t.lle.d = s.cfl.record.dInit ∧ t.lle.retry = s.lle.retry ∧ t.lle.backoffTimer = s.lle.backoffTimer ∧
      t.plp = s.plp.cutShort ∧ t.ybi.rxBuffer = rest ∧ doneFrame d.src .linkControl ∈ t.ybi.routine := by
  have retrain : State.controlRetrain d (s.taken rest) = ((s.taken rest).done d.src .linkControl).enterDown .forced := by
    unfold State.controlRetrain
    rw [show (s.taken rest).lle.link = .showtime from link]
  have told := enterDown_told .forced (s.routined rest (doneFrame d.src .linkControl))
  rw [left_showtime (by exact link)] at told
  obtain ⟨t, next, rail⟩ := finish_departed (s := s) told (by rfl) link nofun (by rfl)
  have queued : doneFrame d.src .linkControl ∈
      (State.enterDown .forced (s.routined rest (doneFrame d.src .linkControl))).ybi.routine :=
    stays_enterDown (f := doneFrame d.src .linkControl) (s := s.routined rest (doneFrame d.src .linkControl)) rfl link .forced
      (List.mem_append_right _ List.mem_cons_self)
  refine ⟨t, ?_, ?_⟩
  · show execLinkControlRetrain s = _
    rw [execLinkControlRetrain, serve_manager head (by simp [isControlRetrain, message]) manager, retrain, done_room room]
    exact next
  · obtain ⟨q, frame⟩ := told.frame
    rw [frame] at rail queued
    rw [rail]
    exact ⟨rfl, rfl, rfl, rfl, rfl, rfl, rfl, rfl, rfl, rfl, rfl, rfl, rfl, rfl, queued⟩

/-- RETRAIN and CLEAR_RETRY take the link DOWN from LOCKOUT, whose fault they end. -/
theorem managers_lockout (head : s.heads d rest) (room : s.routineRoom) (manager : s.isManager d.src = true) {i : Instr}
    (named : (i = .linkControlRetrain ∧ d.message = .linkControl 3) ∨ (i = .clearRetry ∧ d.message = .clearRetry))
    (idle : s.linkIdle) (link : s.lle.link = .lockout) (urgent : s.ybi.urgent.length < 4) :
    ∃ t, exec i s = .next t ∧ t = { s with ybi := t.ybi, sup := t.sup, lle := t.lle, flt := t.flt } ∧
      t.lle = { s.lle.emptied with
        link := .down, retry := if i = .clearRetry then 0 else s.lle.retry, lockoutTimer := none, attemptHeld := false,
        e := 0, d := s.cfl.record.dInit } ∧
      t.faultActive .linkRetrainLimit .line = false ∧ t.ybi.rxBuffer = rest ∧
      t.ybi.routine = s.ybi.routine ++ [doneFrame d.src (if i = .clearRetry then .clearRetry else .linkControl)] := by
  obtain ⟨away, caught, stage⟩ := idle
  rcases named with ⟨rfl, message⟩ | ⟨rfl, message⟩
  · have retrain : State.controlRetrain d (s.taken rest) =
        ((s.taken rest).done d.src .linkControl).enterDown .forced := by
      unfold State.controlRetrain
      rw [show (s.taken rest).lle.link = .lockout from link]
    obtain ⟨t, u, f, next, inactive, frame⟩ := finish_lockout (s := s) (t := s.routined rest (doneFrame d.src .linkControl))
      (reason := .forced) rfl rfl link link stage caught urgent
    refine ⟨t, ?_, ?_⟩
    · show execLinkControlRetrain s = _
      rw [execLinkControlRetrain, serve_manager head (by simp [isControlRetrain, message]) manager, retrain,
        done_room room]
      exact next
    · rw [frame]
      exact ⟨rfl, rfl, inactive, rfl, rfl⟩
  · obtain ⟨t, u, f, next, inactive, frame⟩ := finish_lockout (s := s)
      (t := retryCleared d rest s)
      (reason := .none) rfl rfl link link stage caught urgent
    refine ⟨t, ?_, ?_⟩
    · show execClearRetry s = _
      rw [execClearRetry, serve_manager head (by simp [isClearRetry, message]) manager,
        clearRetry_waits room (.inr link)]
      exact next
    · rw [frame]
      exact ⟨rfl, rfl, inactive, rfl, rfl⟩

/-- Settles O27, by the request, the state of the link, and the sender being a manager or not. -/
theorem linkIsManagedByManagers : Obligations.LinkIsManagedByManagers := by
  refine ⟨fun d rest s head room manager => ⟨fun message idle link free => ?_, fun message idle link alone => ?_,
    fun message idle link => ?_, fun message link => ?_, fun message link stage => ?_, fun i named idle link urgent => ?_,
    fun message idle link => ?_, fun message waits lockout => ?_⟩, fun d rest s head room manager message link => ?_,
    fun d rest s head room other => ⟨fun message => ?_, fun message => ?_, fun message => ?_, fun message => ?_,
      fun message => ?_, fun n a message => ?_⟩⟩
  · obtain ⟨away, caught, stage⟩ := idle
    have active : s.lle.link ≠ .quiet ∧ s.lle.link ≠ .lockout := by
      rcases link with link | link <;> rw [link] <;> exact ⟨nofun, nofun⟩
    show execLinkControlHold s = _
    rw [execLinkControlHold, serve_manager head (by simp [isControlHold, message]) manager, State.controlHold,
      if_pos message, done_room room, State.addHolder, if_neg (by simpa [HolderSet.has, State.routined] using free)]
    dsimp only
    rw [if_neg (by exact active.1), State.enterQuiet, leaveLink_plain (by exact away) (by exact active.2)]
    exact finish_idle (K := []) (.refl _ _) rfl stage nofun caught active.1.symm
  · obtain ⟨away, caught, stage⟩ := idle
    show execLinkControlRelease s = _
    rw [execLinkControlRelease, serve_manager head (by simp [isControlRelease, message]) manager, done_room room,
      State.removeHolder, if_pos (by simp [HolderSet.has, State.routined, alone])]
    dsimp only
    have left : s.lle.holders.put .management false =
        { management := false, supply := false, voltage := false, survey := false } := by
      rw [alone]
      rfl
    rw [if_pos (by simp [HolderSet.isEmpty, State.routined, left, link]), ← left]
    exact finish_down (by rfl) (by rfl) (by rfl) away (by rw [link]; nofun) (by rw [link]; nofun) stage caught
  · obtain ⟨away, caught, stage⟩ := idle
    have active : s.lle.link ≠ .quiet ∧ s.lle.link ≠ .lockout ∧ s.lle.link ≠ .down := by
      refine ⟨?_, ?_, ?_⟩ <;> rintro same <;> simp [same, LinkState.isTraining] at link
    have retrain : State.controlRetrain d (s.taken rest) = ((s.taken rest).done d.src .linkControl).enterDown .forced := by
      unfold State.controlRetrain
      split
      · exact absurd ‹_› active.1
      · exact absurd ‹_› active.2.2
      · rfl
    show execLinkControlRetrain s = _
    rw [execLinkControlRetrain, serve_manager head (by simp [isControlRetrain, message]) manager, retrain, done_room room]
    exact finish_down (by rfl) (by rfl) (by rfl) away active.2.1 active.2.2 stage caught
  · have retrain : State.controlRetrain d (s.taken rest) = (s.taken rest).done d.src .linkControl := by
      unfold State.controlRetrain
      rw [show (s.taken rest).lle.link = .down from link]
    show execLinkControlRetrain s = _
    rw [execLinkControlRetrain, serve_manager head (by simp [isControlRetrain, message]) manager, retrain, done_room room]
    exact finish_undisturbed undisturbed_routined
  · exact retrain_showtime head room manager message link
  · exact managers_lockout head room manager named idle link urgent
  · obtain ⟨away, caught, stage⟩ := idle
    show execClearRetry s = _
    rw [execClearRetry, serve_manager head (by simp [isClearRetry, message]) manager,
      clearRetry_waits room (.inl link)]
    exact finish_down (t := retryCleared d rest s) (by rfl) (by rfl) (by rfl) away (by rw [link]; nofun) (by rw [link]; nofun) stage caught
  · show execClearRetry s = _
    rw [execClearRetry, serve_manager head (by simp [isClearRetry, message]) manager,
      clearRetry_plain room waits lockout]
    exact finish_undisturbed (undisturbed_routined.onLle rfl (by simp [State.linkStill]))
  · have retrain : State.controlRetrain d (s.taken rest) = (s.taken rest).refuse d.src .linkControl .notReady 0 := by
      unfold State.controlRetrain
      rw [show (s.taken rest).lle.link = .quiet from link]
    show execLinkControlRetrain s = _
    rw [execLinkControlRetrain, serve_manager head (by simp [isControlRetrain, message]) manager, retrain, refuse_room room]
    exact finish_undisturbed undisturbed_called
  · show execLinkControlHold s = _
    rw [execLinkControlHold]
    exact finish_notManager head room other (by simp [isControlHold, message]) (by rw [message]; rfl)
  · show execLinkControlRelease s = _
    rw [execLinkControlRelease]
    exact finish_notManager head room other (by simp [isControlRelease, message]) (by rw [message]; rfl)
  · show execLinkControlRetrain s = _
    rw [execLinkControlRetrain]
    exact finish_notManager head room other (by simp [isControlRetrain, message]) (by rw [message]; rfl)
  · show execClearRetry s = _
    rw [execClearRetry]
    exact finish_notManager head room other (by simp [isClearRetry, message]) (by rw [message]; rfl)
  · show execClearFaults s = _
    rw [execClearFaults]
    exact finish_notManager head room other (by simp [isClearFaults, message]) (by rw [message]; rfl)
  · show execCounterDelegate s = _
    rw [execCounterDelegate]
    exact finish_notManager head room other (by simp [isCounterDelegate, message]) (by rw [message]; rfl)

end Sys2Proof.Proofs.Managers
end

section
/-! The entry to SHOWTIME (O32). -/

set_option Elab.async false

namespace Sys2Proof.Proofs.Entry

open Sys2Proof Sys2Proof.Machine Sys2Proof.Proofs.Steps Sys2Proof.Proofs.Telling Sys2Proof.Proofs.Requests
open Sys2Proof.Proofs.Timers Sys2Proof.Proofs.Start Sys2Proof.Proofs.Link Sys2Proof.Proofs.Seconds
open Sys2Proof.Proofs.Training Sys2Proof.Proofs.Walker

variable {s t u before : State} {K : List FaultKey}

/-! ### The guard at an entry -/

theorem alignTable_waits (s : State) : ∃ w, s.alignTable = s.onLle fun l => { l with switchWaiting := w } := by
  unfold State.alignTable
  dsimp only
  repeat' split
  all_goals exact ⟨_, rfl⟩

/-- At the entry to SHOWTIME the comparator is CLEAR, and judges the detectors (R80, R92). -/
theorem judgeGuard_entry (clear : s.lle.sync.guard = .clear) (refused : s.lle.sync.switchRefused = false) :
    ∃ w, Gossips K (s.onLle fun l =>
      { l with switchWaiting := w, sync := { l.sync with guard := if s.disturbed = true then .active else .clear } })
      s.judgeGuard := by
  unfold State.judgeGuard
  rw [clear]
  cases disturbed : s.disturbed with
  | true =>
    have counted := Gossips.of_mutters (K := K) (mutters_signal .guardEntry (s.onSync fun y =>
      { y with guard := .active, switchRefused := false }))
    obtain ⟨w, aligned⟩ := alignTable_waits ((s.onSync fun y => { y with guard := .active, switchRefused := false }).signal
      .guardEntry)
    refine ⟨w, ?_⟩
    dsimp only
    rw [aligned]
    have same := counted.onLle fun l => { l with switchWaiting := w }
    simp only [State.onSync, State.onLle, ↓reduceIte, ← refused] at same ⊢
    exact same
  | false =>
    refine ⟨s.lle.switchWaiting, ?_⟩
    have same : (s.onLle fun l => { l with
        switchWaiting := s.lle.switchWaiting
        sync := { l.sync with guard := if false = true then .active else .clear } }) = s := by
      simp only [State.onLle, Bool.false_eq_true, ↓reduceIte, ← clear]
    rw [same]
    exact .refl K s

/-- Without a debt, and with the catch-up timer stopped, what follows a change of the link leaves section 5.1. -/
theorem settleLink_sync (paid : s.lle.sync.debt = 0) (stopped : s.lle.sync.catchUpTimer = none) :
    (s.settleLink before).lle.sync = s.lle.sync := by
  have pumped (t : State) : t.pumpOverhead.lle.sync = t.lle.sync := by
    unfold State.pumpOverhead
    repeat' split
    all_goals rfl
  have caught (t : State) (paid : t.lle.sync.debt = 0) (stopped : t.lle.sync.catchUpTimer = none) : t.catchUp = t := by
    unfold State.catchUp
    rw [if_neg (by simp [paid]), stopped]
    rfl
  have steps : (s.driveRail.controlPower.pumpOverhead.driveRail).lle.sync = s.lle.sync := by
    obtain ⟨w, power⟩ := controlPower_waits s.driveRail
    rw [driveRail_lle, pumped, power]
    rfl
  unfold State.settleLink
  split
  · rfl
  · rw [caught _ (by rw [steps]; exact paid) (by rw [steps]; exact stopped), steps]

/-! ### The entry -/

/-- The part as SHOWTIME begins, but for what is told of it (R46, R80). -/
def shown (normal guard : List Nat) (s : State) : State :=
  (s.onLle fun l =>
    { l with
      link := .showtime, retry := 0, loadTimer := none, e := l.loadE, d := min s.cfl.record.dInit s.cfl.record.dMax
      downInForce := .normal, upInForce := some .normal, upNormal := keepUp normal, upGuard := keepUp guard
      restoreRefused := false, lastFar := none
      sync := { Showtime.start with
        began := s.now, refreshTimer := some (s.now + 500), secondTimer := some (s.now + 1000) } }).onPlp fun p =>
  { p with ready := decide (p.queue.length < 16), downstreamAborted := false }

theorem takeTables_told {normal guard : List Nat} (fine : badFarTable s.cfl.record.bmax normal = false)
    (fine' : badFarTable s.cfl.record.bmax guard = false) :
    Gossips [⟨.linkRetrainLimit, .line⟩] (shown normal guard s) (s.takeTables normal guard) := by
  unfold State.takeTables
  rw [if_neg (by simp [fine, fine'])]
  have ended := gossips_makeInactive (K := [⟨.linkRetrainLimit, .line⟩]) (c := .linkRetrainLimit) (x := .line)
    List.mem_cons_self ((s.onLle fun l => { l with upNormal := keepUp normal, upGuard := keepUp guard }).onLle fun l =>
    { l with
      link := .showtime, retry := 0, loadTimer := none, e := l.loadE, d := min s.cfl.record.dInit s.cfl.record.dMax
      downInForce := .normal, upInForce := some .normal
      restoreRefused := false, lastFar := none
      sync := { Showtime.start with
        began := s.now, refreshTimer := some (s.now + 500), secondTimer := some (s.now + 1000) } })
  exact (ended.onPlp fun p => { p with ready := decide (p.queue.length < 16), downstreamAborted := false }).trans
    (.of_mutters (mutters_lineStatus _))

/-- What settles at the entry: the guard judges, and the link follows. -/
theorem settle_entry (h : LinkOnly t s) (g : LinkOnly t.judgeGuard s) (showtime : t.lle.link = .showtime)
    (away : s.lle.link ≠ .showtime) : t.settle s = t.judgeGuard.settleLink s := by
  have judged : t.settleGuard s = t.judgeGuard := if_pos ⟨showtime, .inr away⟩
  have follows := linkFollows_settleLink t.judgeGuard s
  unfold State.settle
  simp only [settlePortB_same h.supply h.calls h.ready, settleRecall_same h.calls h.presence h.portA h.portB,
    settleRinging_same h.calls h.supply h.portA h.portB (by rw [h.presence]) h.burst h.episodes,
    settlePair_same h.calls h.driven, judged]
  refine settleWait_same ?_ ?_ fun ready => ?_
  · rw [follows.frame]
    exact g.stage
  · rw [follows.frame]
    exact g.running
  · rw [phaseReady_follows follows]
    exact g.phase ready

/-- Without a survey the link is all that a command moves. -/
theorem linkOnly_idle (h : Gossips K u t) (frame : u = { s with now := u.now, ybi := u.ybi, lle := u.lle, plp := u.plp })
    (idle : s.lth.stage = .none) (presence : u.ybi.presence = s.ybi.presence := by rfl) : LinkOnly t s := by
  obtain ⟨q, rfl⟩ := h.frame
  have known : (told q u).ybi.presence = s.ybi.presence := presence
  have unready : s.phaseReady = false := by simp [State.phaseReady, idle]
  rw [frame] at known ⊢
  exact ⟨rfl, rfl, rfl, known, rfl, rfl, rfl, rfl, rfl, rfl, rfl, rfl, by rw [unready]; nofun⟩

/-- Settles O32: what the entry sets, and what the guard makes of the detectors. -/
theorem showtimeBegins : Obligations.ShowtimeBegins := by
  intro normal guard s idle link fine fine' empty
  obtain ⟨away, caught, stage⟩ := idle
  have told := takeTables_told fine fine'
  obtain ⟨w, judged⟩ := judgeGuard_entry (K := [⟨.linkRetrainLimit, .line⟩]) (s := s.takeTables normal guard)
    (by rw [gossips_lle told]; rfl) (by rw [gossips_lle told]; rfl)
  have disturbed : (s.takeTables normal guard).disturbed = s.disturbed := by
    obtain ⟨q, frame⟩ := told.frame
    rw [frame]
    rfl
  rw [disturbed] at judged
  have whole := (told.onLle fun l => { l with
    switchWaiting := w, sync := { l.sync with guard := if s.disturbed = true then .active else .clear } }).trans judged
  have next : exec (.farTablesReceived normal guard) s =
      .next ((s.takeTables normal guard).judgeGuard.settleLink s) := by
    show execFarTablesReceived normal guard s = _
    rw [execFarTablesReceived, if_pos link]
    exact congrArg Host.Outcome.next (settle_entry (linkOnly_idle told rfl stage) (linkOnly_idle whole rfl stage)
      (by rw [gossips_lle told]; rfl) away)
  have sync := settleLink_sync (before := s) (s := (s.takeTables normal guard).judgeGuard)
    (by rw [gossips_lle whole]; rfl) (by rw [gossips_lle whole]; rfl)
  have follows := (linkFollows_settleLink (s.takeTables normal guard).judgeGuard s).frame
  obtain ⟨q, frame⟩ := whole.frame
  rw [frame] at next follows sync
  refine ⟨_, next, ?_, ?_, ?_, ?_, ?_, ?_, ?_, ?_, ?_, ?_, ?_, ?_, ?_, sync, ?_⟩
  rotate_right
  · rw [follows]
    show { s.plp with ready := decide (s.plp.queue.length < 16), downstreamAborted := false } = _
    simp [empty]
  all_goals
    rw [follows]
    rfl

end Sys2Proof.Proofs.Entry
end

section
/-! The outcomes of an overhead request (O34). -/

set_option Elab.async false

namespace Sys2Proof.Proofs.Overhead

open Sys2Proof Sys2Proof.Machine Sys2Proof.Proofs.Steps Sys2Proof.Proofs.Telling Sys2Proof.Proofs.Requests
open Sys2Proof.Proofs.Timers Sys2Proof.Proofs.Start Sys2Proof.Proofs.Link Sys2Proof.Proofs.Seconds
open Sys2Proof.Proofs.Training Sys2Proof.Proofs.Walker Sys2Proof.Proofs.Entry

variable {s t u before : State} {K : List FaultKey} {o : Outstanding}

/-! ### How a request ends -/

/-- The part with a free slot, at an instant. -/
def freed (m : Nat) (s : State) : State := (s.reach m).onLle fun l => { l with slot := none }

theorem reach_self (s : State) : s.reach s.now = s := if_pos (Nat.le_refl _)

theorem takeAnswer_own {f : OverheadRequest → State → State} (slot : s.lle.slot = some o) :
    s.takeAnswer o.number f = f o.request (freed s.now s) := by
  unfold State.takeAnswer freed
  rw [slot, reach_self]
  exact if_pos rfl

theorem exec_agree (slot : s.lle.slot = some o) :
    exec (.overheadAgree o.number) s = finish s (State.agreed o.request (freed s.now s)) := by
  show execOverheadAgree o.number s = _
  rw [execOverheadAgree, takeAnswer_own slot]

theorem exec_decline (slot : s.lle.slot = some o) :
    exec (.overheadDecline o.number) s = finish s (State.declined o.request (freed s.now s)) := by
  show execOverheadDecline o.number s = _
  rw [execOverheadDecline, takeAnswer_own slot]

theorem exec_abandon (slot : s.lle.slot = some o) (second : o.attempt = 2) :
    exec .overheadTimerExpiry s = finish s (State.abandoned o.request (freed o.deadline s)) := by
  have expired : State.overheadExpires o (s.reach o.deadline) = State.abandoned o.request (freed o.deadline s) :=
    if_neg (by rw [second]; decide)
  show execOverheadTimerExpiry s = _
  rw [execOverheadTimerExpiry, slot]
  dsimp only
  rw [expired]

/-- A DECLINE and an abandon do the same to every request but SWAP. -/
theorem exec_turnedDown {i : Instr} {m : Nat} (slot : s.lle.slot = some o) (other : ∀ g bits, o.request ≠ .swap g bits)
    (cause : (i = .overheadDecline o.number ∧ m = s.now) ∨ (i = .overheadTimerExpiry ∧ o.attempt = 2 ∧ m = o.deadline)) :
    exec i s = finish s (State.turnedDown o.request (freed m s)) := by
  rcases cause with ⟨rfl, rfl⟩ | ⟨rfl, second, rfl⟩
  · have same : State.declined o.request (freed s.now s) = State.turnedDown o.request (freed s.now s) := by
      unfold State.declined
      split
      · exact absurd ‹_› (other _ _)
      · rfl
    rw [exec_decline slot, same]
  · have same : State.abandoned o.request (freed o.deadline s) = State.turnedDown o.request (freed o.deadline s) := by
      unfold State.abandoned
      split
      · exact absurd ‹_› (other _ _)
      · rfl
    rw [exec_abandon slot second, same]

theorem freed_frame {m : Nat} (due : s.now ≤ m) : ∃ n, freed m s = { s with now := m, lle := { s.lle with
    slot := none, sync := { s.lle.sync with symbolCount := n } } } := by
  obtain ⟨n, passed⟩ := reach_counts due
  exact ⟨n, by rw [freed, passed]; rfl⟩

/-- A change of the link alone, in its state: the link follows. -/
theorem finish_quiet (frame : t = { s with now := t.now, lle := t.lle }) (link : t.lle.link = s.lle.link) :
    ∃ w, finish s t = .next w ∧ LinkFollows t w :=
  ⟨_, finish_staying (K := []) (.refl _ t) (by rw [frame]) link (by decide) (by rw [frame]),
    linkFollows_settleLink _ s⟩

/-! ### AGREE -/

/-- What an AGREE puts in force, from one state of the link to a later one. -/
def Agreed (r : OverheadRequest) (a l : Lle) : Prop :=
  match r with
  | .switch table => l.downInForce = table
  | .power .cutback => l.power = .cutback
  | .power .restore => l.power = .full
  | .shield n => l.d = n ∧ l.normal = a.normal ∧ l.e = a.e ∧ l.snr = a.snr
  | .swap g bits => l.normal = setGroup a.normal g bits ∧ l.sync.swapAbandons = 0

/-- The faults that an AGREE may bring about. -/
def agreeFaults : List FaultKey := [⟨.fenceImpulse, .line⟩]

theorem agreed_told (r : OverheadRequest) (s : State) :
    ∃ l, Gossips agreeFaults (s.onLle fun _ => l) (s.agreed r) ∧ l.link = s.lle.link ∧ Agreed r s.lle l := by
  cases r with
  | switch table =>
    obtain ⟨w, aligned⟩ := alignTable_waits (s.onLle fun l => { l with downInForce := table })
    obtain ⟨x, y, watched⟩ := watchMargin_watches ((s.onLle fun l => { l with downInForce := table }).onLle fun l =>
      { l with switchWaiting := w })
    refine ⟨{ s.lle with
      downInForce := table, switchWaiting := w, sync := { s.lle.sync with marginWatch := x, marginTimer := y } }, ?_, rfl, rfl⟩
    unfold State.agreed
    dsimp only
    rw [aligned, watched]
    exact .refl _ _
  | power p =>
    cases p <;> exact ⟨_, .refl _ _, rfl, rfl⟩
  | shield n =>
    obtain ⟨w, h, told⟩ := gossips_depth (s.onLle fun l => { l with d := n })
    exact ⟨_, told, rfl, rfl, rfl, rfl, rfl⟩
  | swap g bits =>
    have counted := (Gossips.of_mutters (K := agreeFaults) (mutters_signal .swapDone (s.onLle fun l =>
      { l with normal := setGroup l.normal g bits }))).onLle fun l =>
        { l with sync := { l.sync.dropHead with swapAbandons := 0 } }
    obtain ⟨x, y, watched⟩ := watchMargin_watches (((s.onLle fun l =>
      { l with normal := setGroup l.normal g bits }).signal .swapDone).onSync fun y => { y.dropHead with swapAbandons := 0 })
    refine ⟨{ s.lle with normal := setGroup s.lle.normal g bits
                         sync := { s.lle.sync.dropHead with swapAbandons := 0, marginWatch := x, marginTimer := y } },
      ?_, rfl, rfl, rfl⟩
    show Gossips agreeFaults _ (State.swapAgreed g bits s)
    unfold State.swapAgreed
    rw [watched]
    exact counted.onLle fun l => { l with sync := { l.sync with marginWatch := x, marginTimer := y } }

/-! ### A slot that is taken -/

theorem settleLink_busy (busy : s.lle.slot.isNone = false) :
    (s.settleLink before).lle.slot = s.lle.slot ∧ (s.settleLink before).lle.farOut = s.lle.farOut := by
  obtain ⟨w, power⟩ := controlPower_waits s.driveRail
  have pumped : s.driveRail.controlPower.pumpOverhead = s.driveRail.controlPower := by
    refine if_neg fun free => ?_
    rw [power] at free
    exact absurd free.2 (Bool.not_eq_true _ ▸ busy)
  have caught (t : State) : t.catchUp.lle.slot = t.lle.slot ∧ t.catchUp.lle.farOut = t.lle.farOut := by
    unfold State.catchUp
    repeat' split
    all_goals exact ⟨rfl, rfl⟩
  unfold State.settleLink
  split
  · exact ⟨rfl, rfl⟩
  · rw [(caught _).1, (caught _).2, pumped, power]
    exact ⟨rfl, rfl⟩

/-! ### A DECLINE and an abandon -/

theorem turnedDown_cutback_mains (mains : s.sup.supply = .mains) : s.turnedDown (.power .cutback) = s :=
  if_pos (ceiling_high.mpr mains)

theorem turnedDown_cutback_battery (battery : s.sup.supply = .battery) : s.turnedDown (.power .cutback) = s.drop .power :=
  if_neg fun high => by cases battery.symm.trans (ceiling_high.mp high)

/-- The part as an abandoned SWAP leaves the queue, the row of abandons longer by one (R91). -/
def swapLeft (s : State) : State := s.onSync fun y => { y.dropHead with swapAbandons := y.swapAbandons + 1 }

theorem swapLeft_told (s : State) : Gossips K (swapLeft s) (swapLeft (s.signal .swapAbandoned)) :=
  (Gossips.of_mutters (mutters_signal .swapAbandoned s)).onLle fun l =>
    { l with sync := { l.sync.dropHead with swapAbandons := l.sync.swapAbandons + 1 } }

theorem swapAbandoned_short (short : s.lle.sync.swapAbandons < 2) : Gossips K (swapLeft s) s.swapAbandoned := by
  have left : s.swapAbandoned = swapLeft (s.signal .swapAbandoned) := by
    refine if_neg ?_
    show ¬ (s.signal .swapAbandoned).lle.sync.swapAbandons + 1 ≥ 3
    rw [gossips_lle (Gossips.of_mutters (K := []) (mutters_signal .swapAbandoned s))]
    omega
  rw [left]
  exact swapLeft_told s

theorem swapAbandoned_third (showtime : s.lle.link = .showtime) (third : 2 ≤ s.lle.sync.swapAbandons) :
    Gossips linkFaults (fallen .swapFailures (swapLeft s)) s.swapAbandoned := by
  have left : s.swapAbandoned = (swapLeft (s.signal .swapAbandoned)).drop .swapFailures := by
    refine if_pos ?_
    show (s.signal .swapAbandoned).lle.sync.swapAbandons + 1 ≥ 3
    rw [gossips_lle (Gossips.of_mutters (K := []) (mutters_signal .swapAbandoned s))]
    omega
  rw [left]
  exact (gossips_fallen (swapLeft_told s) showtime).trans (drop_told _ _)

/-- The part as it sends the request again (R57). -/
def resent (o : Outstanding) (s : State) : State :=
  s.onLle fun l =>
    { l with
      slot := some { o with attempt := 2, deadline := s.now + 250 }
      farOut := l.farOut ++ [.request o.number o.request (o.request.carried s.lle)] }

theorem overheadExpires_first (first : o.attempt = 1) : s.overheadExpires o = resent o s := if_pos first

/-- Settles O34, by the answer or the expiry, and the request. -/
theorem requestOutcomes : Obligations.RequestOutcomes := by
  refine ⟨fun o s slot stage => ?_, fun i m o s slot due showtime cause => ?_, fun o s slot due showtime => ?_⟩
  · obtain ⟨l, told, link, force⟩ := agreed_told o.request (freed s.now s)
    have now : freed s.now s = s.onLle fun l => { l with slot := none } := by rw [freed, reach_self]
    rw [now] at told link force
    obtain ⟨t, q, next, follows⟩ := finish_told (s := s) told rfl link (by decide)
    refine ⟨t, ?_, by rw [follows.frame]; rfl, fun table request => ?_, fun request => ?_, fun request => ?_,
      fun n request => ?_, fun g bits request => ?_⟩
    · rw [exec_agree slot, now]
      exact next
    all_goals
      rw [request] at force
      rw [follows.frame]
      exact force
  · have later : s.now ≤ m := by
      rcases cause with ⟨-, rfl⟩ | ⟨-, -, rfl⟩
      · exact Nat.le_refl _
      · exact due
    obtain ⟨n, passed⟩ := freed_frame later
    refine ⟨fun request => ?_, fun request => ?_, fun request mains => ?_, fun request battery => ?_, fun request => ?_,
      fun k request => ?_⟩
    all_goals
      rw [exec_turnedDown slot (by rw [request]; nofun) cause, request, passed]
    · obtain ⟨w, aligned⟩ := alignTable_waits (State.onSync (fun y => { y with switchRefused := true }) (freed m s))
      rw [passed] at aligned
      obtain ⟨t, next, follows⟩ := finish_quiet (s := s) (t := State.onLle (fun l => { l with switchWaiting := w })
        (State.onSync (fun y => { y with switchRefused := true }) { s with now := m, lle := { s.lle with
          slot := none, sync := { s.lle.sync with symbolCount := n } } })) rfl rfl
      refine ⟨t, ?_, ?_⟩
      · rw [← aligned] at next
        exact next
      · rw [follows.frame]
        exact ⟨rfl, rfl, rfl⟩
    · obtain ⟨w, aligned⟩ := alignTable_waits (State.onSync (fun y => { y with switchRetryTimer := some (m + 5000) })
        (freed m s))
      rw [passed] at aligned
      obtain ⟨t, next, follows⟩ := finish_quiet (s := s) (t := State.onLle (fun l => { l with switchWaiting := w })
        (State.onSync (fun y => { y with switchRetryTimer := some (m + 5000) }) { s with now := m, lle := { s.lle with
          slot := none, sync := { s.lle.sync with symbolCount := n } } })) rfl rfl
      refine ⟨t, ?_, ?_⟩
      · rw [← aligned] at next
        exact next
      · rw [follows.frame]
        exact ⟨rfl, rfl, rfl⟩
    · obtain ⟨t, next, follows⟩ := finish_quiet (s := s) (t := { s with now := m, lle := { s.lle with
          slot := none, sync := { s.lle.sync with symbolCount := n } } }) rfl rfl
      refine ⟨t, ?_, ?_⟩
      · rw [turnedDown_cutback_mains (by exact mains)]
        exact next
      · rw [follows.frame]
        exact ⟨rfl, rfl, showtime⟩
    · have dropped := drop_told .power (freed m s)
      rw [passed, fallen, left_showtime (by exact showtime)] at dropped
      obtain ⟨t, q, next, frame⟩ := finish_departure (s := s) dropped rfl showtime nofun rfl
      refine ⟨t, ?_, ?_⟩
      · rw [turnedDown_cutback_battery (by exact battery)]
        exact next
      · rw [frame]
        exact ⟨rfl, rfl, rfl, rfl, rfl, rfl⟩
    · obtain ⟨t, next, follows⟩ := finish_quiet (s := s) (t := { s with now := m, lle := { s.lle with
          slot := none, restoreRefused := true, sync := { s.lle.sync with symbolCount := n } } }) rfl rfl
      refine ⟨t, next, ?_⟩
      rw [follows.frame]
      exact ⟨rfl, rfl, rfl⟩
    · obtain ⟨t, next, follows⟩ := finish_quiet (s := s) (t := { s with now := m, lle := { s.lle with
          slot := none, sync := { s.lle.sync with symbolCount := n, shieldRefused := true } } }) rfl rfl
      refine ⟨t, next, ?_⟩
      rw [follows.frame]
      exact ⟨rfl, rfl, rfl⟩
  · refine ⟨fun g bits request => ?_, fun g bits second request short => ?_, fun first => ?_,
      fun g bits second request third => ?_⟩
    · obtain ⟨t, next, follows⟩ := finish_quiet (s := s) (t := State.onSync (fun y => { y.dropHead with swapAbandons := 0 })
        (s.onLle fun l => { l with slot := none })) rfl rfl
      refine ⟨t, ?_, ?_⟩
      · rw [exec_decline slot, request, freed, reach_self]
        exact next
      · rw [follows.frame]
        exact ⟨rfl, rfl, rfl, rfl⟩
    · obtain ⟨n, passed⟩ := freed_frame due
      have told := swapAbandoned_short (K := []) (s := freed o.deadline s) (by rw [passed]; exact short)
      rw [passed] at told
      obtain ⟨t, q, next, follows⟩ := finish_told (s := s) told rfl rfl (by decide)
      refine ⟨t, ?_, ?_⟩
      · rw [exec_abandon slot second, request, passed]
        exact next
      · rw [follows.frame]
        exact ⟨rfl, rfl, rfl, rfl, showtime⟩
    · obtain ⟨n, passed⟩ := reach_counts due
      have again := settleLink_busy (before := s) (s := resent o (s.reach o.deadline)) rfl
      have next : exec .overheadTimerExpiry s = .next ((resent o (s.reach o.deadline)).settleLink s) := by
        show execOverheadTimerExpiry s = _
        rw [execOverheadTimerExpiry, slot]
        dsimp only
        rw [overheadExpires_first first, passed]
        exact finish_staying (K := []) (.refl _ _) rfl rfl (by decide)
      have follows := (linkFollows_settleLink (resent o (s.reach o.deadline)) s).frame
      rw [passed] at next again follows
      refine ⟨_, next, ?_, ?_, again⟩ <;> rw [follows] <;> rfl
    · obtain ⟨n, passed⟩ := freed_frame due
      have dropped := swapAbandoned_third (s := freed o.deadline s) (by rw [passed]; exact showtime)
        (by rw [passed]; exact third)
      rw [passed, fallen, left_showtime (by exact showtime)] at dropped
      obtain ⟨t, q, next, frame⟩ := finish_departure (s := s) dropped rfl showtime nofun rfl
      refine ⟨t, ?_, ?_⟩
      · rw [exec_abandon slot second, request, passed]
        exact next
      · rw [frame]
        exact ⟨rfl, rfl, rfl, rfl, rfl, rfl⟩

end Sys2Proof.Proofs.Overhead
end

section
/-! The loop survey: a TEST (O26), the entries of the loop record (O48). -/

set_option Elab.async false

namespace Sys2Proof.Proofs.Survey

open Sys2Proof Sys2Proof.Machine Sys2Proof.Proofs.Steps Sys2Proof.Proofs.Telling Sys2Proof.Proofs.Requests
open Sys2Proof.Proofs.Timers Sys2Proof.Proofs.Start Sys2Proof.Proofs.Link Sys2Proof.Proofs.Seconds
open Sys2Proof.Proofs.Training Sys2Proof.Proofs.Walker Sys2Proof.Proofs.Entry

variable {s t u before : State} {K : List FaultKey} {d : Delivered} {rest : List Delivered}

/-! ### TEST -/

theorem itemsOf_one : itemsOf 1 = [.linkProfile] := by decide

theorem itemsOf_four : itemsOf 4 = [.lineVoltage] := by decide

/-- A TEST without an intrusive item is taken whoever sends it, with the allow drop flag of a manager alone. -/
theorem testRequest_plain {n bits : Nat} {allowDrop : Bool} (small : bits < 64)
    (plain : (itemsOf bits).any Item.intrusive = false) :
    s.testRequest n bits allowDrop = s.takeTest n (itemsOf bits) (s.isManager n && allowDrop) := by
  unfold State.testRequest
  rw [if_neg (Nat.not_le.mpr small)]
  cases manager : s.isManager n <;> simp [plain]

/-- The survey that a TEST for LINE_VOLTAGE alone begins. -/
def voltageSurvey (n : Nat) (allowDrop : Bool) : Machine.Survey where
  originator := some n
  items := [.lineVoltage]
  allowDrop := allowDrop
  merged := []
  ended := []

theorem takeTest_voltage {n : Nat} {allowDrop : Bool} (running : s.lth.running = none) (pending : s.lth.pending = none) :
    s.takeTest n [.lineVoltage] allowDrop = s.onLth fun l =>
      { l with running := some (voltageSurvey n allowDrop), stage := .waitVoltage, waitTimer := none } := by
  unfold State.takeTest
  rw [if_neg (by decide), if_neg (by decide), if_neg (by simp [running, pending]), running]
  rfl

theorem takeTest_profile {n : Nat} {allowDrop : Bool} : s.takeTest n [.linkProfile] allowDrop =
    (s.runProfile).handRoutine (plainFrame n .testDone [2, 0, 0, 0, 0, 0]) := rfl

/-- A survey that has just begun to wait, for a requester, waits 60 s unless the line is ready (R167). -/
theorem settleWait_new {r : Machine.Survey} {n : Nat} (stage : s.lth.stage = .waitVoltage)
    (running : s.lth.running = some r) (stopped : s.lth.waitTimer = none) (asked : r.originator = some n)
    (new : before.lth.running ≠ some r) : s.settleWait before = s.onLth fun l =>
      { l with waitTimer := if s.voltageReady then none else some (s.now + 60000) } := by
  have ready : s.phaseReady = s.voltageReady := by simp only [State.phaseReady, stage, running]
  unfold State.settleWait
  simp only [stage, running, ready, stopped, asked, new.symm]
  cases s.voltageReady with
  | true => simp [State.onLth, ← stopped]
  | false => simp [State.onLth, Config.surveyWaitMs]

/-- Settles O26, by the item that is named. -/
theorem testIsTaken : Obligations.TestIsTaken := by
  intro allowDrop d rest s head room
  refine ⟨fun message => ?_, fun message running pending => ?_⟩
  · have picked : isTest d = true := by simp [isTest, message]
    have queued : (State.runProfile (s.taken rest)).handRoutine (plainFrame d.src .testDone [2, 0, 0, 0, 0, 0]) =
        (s.routined rest (plainFrame d.src .testDone [2, 0, 0, 0, 0, 0])).onLth fun l =>
          { l with linkProfile := { status := .valid, results := some s.profile, stamp := s.uptime } } := by
      rw [handRoutine_room (by exact room) (by simp [plainFrame])]
      rfl
    show execTest s = _
    rw [execTest, serve_heads head picked, message]
    dsimp only
    rw [testRequest_plain (by decide) (by decide), itemsOf_one, takeTest_profile, queued]
    exact finish_undisturbed (undisturbed_routined.onLth rfl rfl id)
  · have picked : isTest d = true := by simp [isTest, message]
    have waits : finish s ((s.taken rest).onLth fun l =>
        { l with
          running := some (voltageSurvey d.src (s.isManager d.src && allowDrop)), stage := .waitVoltage
          waitTimer := none }) = .next ((s.taken rest).onLth fun l =>
        { l with
          running := some (voltageSurvey d.src (s.isManager d.src && allowDrop)), stage := .waitVoltage
          waitTimer := if s.voltageReady then none else some (s.now + 60000) }) := by
      have still : Still ((s.taken rest).onLth fun l =>
          { l with
            running := some (voltageSurvey d.src (s.isManager d.src && allowDrop)), stage := .waitVoltage
            waitTimer := none }) s :=
        ⟨rfl, rfl, rfl, rfl, rfl, rfl, rfl, rfl, rfl, rfl, (Undisturbed.refl s).link⟩
      rw [finish, settle_still still]
      rw [settleWait_new rfl rfl rfl rfl (by rw [running]; nofun)]
      rfl
    show execTest s = _
    rw [execTest, serve_heads head picked, message]
    dsimp only
    rw [testRequest_plain (by decide) (by decide), itemsOf_four, takeTest_voltage (by exact running) (by exact pending)]
    exact waits

/-! ### What settling leaves of the Loop Test Head -/

/-- The clock, the connections, the configuration, the queue of commands and the survey are as they were. -/
structure Aloof (s t : State) : Prop where
  now : t.now = s.now
  pins : t.pins = s.pins
  cfl : t.cfl = s.cfl
  pending : t.pending = s.pending
  lth : t.lth = s.lth

theorem Aloof.refl (s : State) : Aloof s s := ⟨rfl, rfl, rfl, rfl, rfl⟩

theorem Aloof.trans (h : Aloof s t) (g : Aloof t u) : Aloof s u :=
  ⟨g.now.trans h.now, g.pins.trans h.pins, g.cfl.trans h.cfl, g.pending.trans h.pending, g.lth.trans h.lth⟩

theorem Aloof.of_tells (h : Tells s t) : Aloof s t := by
  obtain ⟨q, rfl, -⟩ := h
  exact ⟨rfl, rfl, rfl, rfl, rfl⟩

theorem Aloof.ite {c : Prop} [Decidable c] (h : Aloof s t) (g : Aloof s u) : Aloof s (if c then t else u) := by
  split
  · exact h
  · exact g

theorem Aloof.foldl {α : Type} {f : State → α → State} (hf : ∀ s a, Aloof s (f s a)) (l : List α) (s : State) :
    Aloof s (l.foldl f s) := by
  induction l generalizing s with
  | nil => exact .refl s
  | cons a l ih => exact (hf s a).trans (ih (f s a))

theorem aloof_onPort (p : Port) (f : PortRec → PortRec) (s : State) : Aloof s (s.onPort p f) := by
  cases p <;> exact ⟨rfl, rfl, rfl, rfl, rfl⟩

theorem aloof_onVsw (f : Vsw → Vsw) (s : State) : Aloof s (s.onVsw f) := ⟨rfl, rfl, rfl, rfl, rfl⟩

theorem aloof_portOut (s : State) : Aloof s s.portOut :=
  ((show Aloof s (s.withdrawPortClaim .b) from ⟨rfl, rfl, rfl, rfl, rfl⟩).trans (aloof_onPort .b _ _)).trans
    ((Aloof.of_tells (tells_makeInactive _ _ _)).trans (.of_tells (tells_makeInactive _ _ _)))

theorem aloof_settlePortB (s before : State) : Aloof s (s.settlePortB before) := by
  unfold State.settlePortB State.servePortB
  repeat' split
  all_goals first
    | exact aloof_portOut s
    | exact .refl s
    | exact aloof_onPort .b _ s

theorem aloof_settleRecall (s before : State) : Aloof s (s.settleRecall before) := by
  unfold State.settleRecall
  split
  · exact .refl s
  · refine Aloof.foldl (fun s c => ?_) _ s
    split
    · exact Aloof.ite ⟨rfl, rfl, rfl, rfl, rfl⟩ (.refl s)
    · exact .refl s

theorem aloof_planOnce (began : List Episode) (s : State) : Aloof s (s.planOnce began) := by
  have judged (old : RingPlan) (s : State) : Aloof s (s.judgePlan old) :=
    (Aloof.of_tells (tells_signalTimes _ _ s)).trans
      (Aloof.ite (.of_tells (tells_makeInactive _ _ _)) (.of_tells (tells_raiseUnlessActive _ _ _)))
  have followed (p : Port) (s : State) : Aloof s (s.followPlan p) := by
    unfold State.followPlan
    split
    · exact aloof_onPort p _ s
    · exact aloof_onPort p _ s
    · exact .refl s
  have planned : Aloof s (s.onVsw fun v => { v with plan := s.computePlan }) := ⟨rfl, rfl, rfl, rfl, rfl⟩
  exact ((((planned.trans (judged s.vsw.plan _)).trans (followed .a _)).trans (followed .b _)).trans
    (Aloof.foldl (fun s e => Aloof.ite (.of_tells (tells_handCall _ s)) (.refl s)) _ _)).trans ⟨rfl, rfl, rfl, rfl, rfl⟩

theorem aloof_replan (began : List Episode) (s : State) : Aloof s (s.replan began) := by
  have until_ (n : Nat) : ∀ began s, Aloof s (State.planUntil n began s) := by
    induction n with
    | zero => exact aloof_planOnce
    | succ n ih =>
      exact fun began s => Aloof.ite (aloof_planOnce began s) ((aloof_planOnce began s).trans (ih [] _))
  exact until_ 2 began s

theorem aloof_syncEpisodes (s : State) : Aloof s s.syncEpisodes.1 :=
  (aloof_onVsw _ s).trans (Aloof.foldl (fun (s : State) (e : Episode) => Aloof.of_tells (tells_handCall (ringEndFrame e.callId
    ((s.callOf e.callId).any (fun c => decide (c.state = .active)))) s)) _ _)

theorem aloof_settleRinging (s before : State) : Aloof s (s.settleRinging before) := by
  have synced : Aloof s (if s.cct.calls = before.cct.calls then (s, []) else s.syncEpisodes).1 := by
    split
    · exact .refl s
    · exact aloof_syncEpisodes s
  exact synced.trans (Aloof.ite (aloof_replan _ _) (Aloof.ite (.refl _) (Aloof.ite (.refl _) ⟨rfl, rfl, rfl, rfl, rfl⟩)))

theorem aloof_settlePair (s before : State) : Aloof s (s.settlePair before) :=
  (Aloof.ite (.refl s) (aloof_onVsw _ s)).trans (Aloof.ite (.refl _) (aloof_onVsw _ _))

theorem aloof_judgeGuard (s : State) : Aloof s s.judgeGuard := by
  have aligned (s : State) : Aloof s s.alignTable := by
    obtain ⟨w, eq⟩ := alignTable_waits s
    rw [eq]
    exact ⟨rfl, rfl, rfl, rfl, rfl⟩
  have synced (f : Machine.Showtime → Machine.Showtime) (s : State) : Aloof s (s.onSync f) := ⟨rfl, rfl, rfl, rfl, rfl⟩
  unfold State.judgeGuard
  split
  · exact ((synced _ s).trans (.of_tells (tells_signal _ _))).trans (aligned _)
  · exact (synced _ s).trans (aligned _)
  · exact (synced _ s).trans (aligned _)
  · exact .refl s

theorem aloof_settleGuard (s before : State) : Aloof s (s.settleGuard before) :=
  Aloof.ite (aloof_judgeGuard s) (.refl s)

theorem aloof_settleLink (s before : State) : Aloof s (s.settleLink before) := by
  rw [(linkFollows_settleLink s before).frame]
  exact ⟨rfl, rfl, rfl, rfl, rfl⟩

theorem settleWait_waits (s before : State) : ∃ x, s.settleWait before = s.onLth fun l => { l with waitTimer := x } := by
  unfold State.settleWait
  repeat' split
  all_goals first
    | exact ⟨s.lth.waitTimer, rfl⟩
    | exact ⟨_, rfl⟩

theorem aloof_settleWait (h : Aloof s t) (before : State) :
    ∃ x, Aloof (s.onLth fun l => { l with waitTimer := x }) (t.settleWait before) := by
  obtain ⟨x, waits⟩ := settleWait_waits t before
  exact ⟨x, waits ▸ ⟨h.now, h.pins, h.cfl, h.pending, congrArg (fun l : Lth => { l with waitTimer := x }) h.lth⟩⟩

/-- Settling leaves the clock, and of the survey all but the wait timer. -/
theorem settle_aloof (s before : State) : ∃ x, Aloof (s.onLth fun l => { l with waitTimer := x }) (s.settle before) :=
  aloof_settleWait ((((((aloof_settlePortB s before).trans (aloof_settleRecall _ before)).trans
    (aloof_settleRinging _ before)).trans (aloof_settlePair _ before)).trans
    (aloof_settleGuard _ before)).trans (aloof_settleLink _ before)) before

end Sys2Proof.Proofs.Survey
end

section
/-! The items of a survey (O48): what the completion of an item writes, and what it leaves of the loop record. -/

set_option Elab.async false

namespace Sys2Proof.Proofs.Items

open Sys2Proof Sys2Proof.Machine Sys2Proof.Proofs.Steps Sys2Proof.Proofs.Telling Sys2Proof.Proofs.Timers
open Sys2Proof.Proofs.Rules Sys2Proof.Proofs.Start Sys2Proof.Proofs.Link Sys2Proof.Proofs.Seconds
open Sys2Proof.Proofs.Survey

variable {s t u before : State}

/-- The loop record, the clock, the connections, the configuration and the queue of commands are as they were. -/
structure Charted (s t : State) : Prop where
  now : t.now = s.now
  pins : t.pins = s.pins
  cfl : t.cfl = s.cfl
  pending : t.pending = s.pending
  entry : ∀ i, t.lth.entry i = s.lth.entry i

theorem Charted.refl (s : State) : Charted s s := ⟨rfl, rfl, rfl, rfl, fun _ => rfl⟩

theorem Charted.trans (h : Charted s t) (g : Charted t u) : Charted s u :=
  ⟨g.now.trans h.now, g.pins.trans h.pins, g.cfl.trans h.cfl, g.pending.trans h.pending,
    fun i => (g.entry i).trans (h.entry i)⟩

theorem Charted.of_aloof (h : Aloof s t) : Charted s t := ⟨h.now, h.pins, h.cfl, h.pending, fun _ => by rw [h.lth]⟩

theorem Charted.ite {c : Prop} [Decidable c] (h : Charted s t) (g : Charted s u) : Charted s (if c then t else u) := by
  split
  · exact h
  · exact g

theorem charted_onLth {f : Lth → Lth} (kept : ∀ l i, (f l).entry i = l.entry i) (s : State) : Charted s (s.onLth f) :=
  ⟨rfl, rfl, rfl, rfl, kept s.lth⟩

theorem aloof_onLle (f : Lle → Lle) (s : State) : Aloof s (s.onLle f) := ⟨rfl, rfl, rfl, rfl, rfl⟩

theorem aloof_leaveLink (reason : DropReason) (next : LinkState) (s : State) : Aloof s (s.leaveLink reason next) := by
  have left : Aloof s (left reason next s) := by
    unfold Link.left
    split <;> exact ⟨rfl, rfl, rfl, rfl, rfl⟩
  obtain ⟨q, told⟩ := (leaveLink_told reason next s).frame
  rw [told]
  exact left.trans ⟨rfl, rfl, rfl, rfl, rfl⟩

theorem aloof_enterDown (reason : DropReason) (s : State) : Aloof s (s.enterDown reason) :=
  (aloof_leaveLink reason .down s).trans (aloof_onLle _ _)

theorem aloof_addHolder (x : Holder) (s : State) : Aloof s (s.addHolder x) :=
  Aloof.ite (.refl s) ((aloof_onLle _ s).trans
    (Aloof.ite (.refl _) ((aloof_leaveLink .forced .quiet _).trans (aloof_onLle _ _))))

theorem aloof_removeHolder (x : Holder) (s : State) : Aloof s (s.removeHolder x) :=
  Aloof.ite ((aloof_onLle _ s).trans (Aloof.ite (aloof_enterDown _ _) (.refl _))) (.refl s)

theorem aloof_keepFault (code : FaultCode) (holds : Bool) (s : State) : Aloof s (s.keepFault code holds) :=
  Aloof.ite (.of_tells (tells_raiseUnlessActive _ _ _)) (.of_tells (tells_makeInactive _ _ _))

theorem entry_recheck (x : Option Nat) (l : Lth) (i : Item) : ({ l with recheckTimer := x } : Lth).entry i = l.entry i := by
  cases i <;> rfl

theorem charted_judgeHigh (high : Bool) (s : State) : Charted s (s.judgeHigh high) := by
  have kept := Charted.of_aloof (aloof_keepFault .foreignVoltageHigh high s)
  unfold State.judgeHigh
  dsimp only
  split
  · exact (kept.trans (charted_onLth (entry_recheck _) _)).trans (.of_aloof (aloof_addHolder _ _))
  · exact (kept.trans (charted_onLth (entry_recheck _) _)).trans (.of_aloof (aloof_removeHolder _ _))
  · exact kept

theorem charted_judgeItem (i : Item) (r : LoopReadings) (s : State) : Charted s (s.judgeItem i r) := by
  cases i with
  | foreignVoltage => exact (Charted.of_aloof (aloof_keepFault _ _ s)).trans (charted_judgeHigh _ _)
  | insulation => exact .of_aloof (aloof_keepFault _ _ s)
  | resistance => exact .of_aloof (aloof_keepFault _ _ s)
  | linkProfile => exact .refl s
  | lineVoltage => exact .refl s
  | capacitance => exact .refl s

theorem aloof_heldAttempt (s : State) : Aloof s s.heldAttempt := Aloof.ite (aloof_enterDown _ s) (.refl s)

theorem charted_endPhase (s : State) : Charted s s.endPhase := by
  have rested := charted_onLth (f := fun l =>
    { l with stage := .restoring, relay := .rest, itemTimer := none, restoreTimer := some (s.now + Config.restoreMs) })
    (fun l i => by cases i <;> rfl) s
  exact Charted.ite ((rested.trans (.of_aloof (aloof_heldAttempt _))).trans
    (Charted.ite ((Charted.of_aloof (aloof_removeHolder _ _)).trans (charted_onLth (fun l i => by cases i <;> rfl) _))
      (.refl _))) rested

theorem charted_nextInPhase (i : Item) (s : State) : Charted s (s.nextInPhase i) := by
  unfold State.nextInPhase
  split
  · exact charted_onLth (fun l i => by cases i <;> rfl) s
  · exact charted_endPhase s

theorem setEntry_entry (l : Lth) (i : Item) (e : RecordEntry) : (l.setEntry i e).entry i = e := by
  cases i <;> rfl

theorem setEntry_other (l : Lth) {i j : Item} (e : RecordEntry) (other : j ≠ i) :
    (l.setEntry i e).entry j = l.entry j := by
  cases i <;> cases j <;> first | rfl | exact absurd rfl other

/-- The completion of an item writes its entry, and of the loop record nothing more (R162). -/
theorem completeItem_written (i : Item) (r : LoopReadings) (s : State) :
    Charted (s.writeEntry i (measure i r).1 (measure i r).2) (s.completeItem i r) := by
  have ended := charted_onLth (f := fun l => { l with running := l.running.map (Survey.endItem i (measure i r).1) })
    (fun l j => by cases j <;> rfl) (s.writeEntry i (measure i r).1 (measure i r).2)
  have cleared := charted_onLth (f := Lth.clearDue i) (fun l j => by cases i <;> cases j <;> rfl)
    ((s.writeEntry i (measure i r).1 (measure i r).2).onRunning (Survey.endItem i (measure i r).1))
  exact ((ended.trans cleared).trans (charted_judgeItem i r _)).trans (charted_nextInPhase i _)

theorem charted_settle (s before : State) : Charted s (s.settle before) := by
  obtain ⟨x, apart⟩ := settle_aloof s before
  exact (charted_onLth (f := fun l => { l with waitTimer := x }) (fun l i => by cases i <;> rfl) s).trans (.of_aloof apart)

theorem measure_resistance (x : LoopReadings) :
    (x.loopOhm ≤ 4000 → measure .resistance x = (.valid, some (.resistance (.value x.loopOhm)))) ∧
      (4000 < x.loopOhm → x.loopOhm ≤ 20000 → measure .resistance x = (.outOfRange, some (.resistance .above4000))) ∧
      (20000 < x.loopOhm → measure .resistance x = (.outOfRange, some (.resistance .openLoop))) := by
  refine ⟨fun low => if_pos low, fun high low => ?_, fun high => ?_⟩
  · exact (if_neg (by omega)).trans (if_pos low)
  · exact (if_neg (by omega)).trans (if_neg (by omega))

theorem measure_capacitance (x : LoopReadings) :
    (x.nanofarad ≤ 1000 → measure .capacitance x = (.valid, some (.capacitance x.nanofarad (x.nanofarad * 20)))) ∧
      (1000 < x.nanofarad → measure .capacitance x = (.outOfRange, some (.capacitance 1000 20000))) :=
  ⟨fun low => if_pos low, fun high => if_neg (by omega)⟩

theorem Charted.frame (h : Charted s t) : t =
    { s with
      now := t.now, ybi := t.ybi, sup := t.sup, lle := t.lle, plp := t.plp, vsw := t.vsw, cct := t.cct, lth := t.lth
      flt := t.flt, ctb := t.ctb } := by
  obtain ⟨now, pins, cfl, pending, entry⟩ := h
  cases s
  cases t
  cases pins
  cases cfl
  cases pending
  rfl

/-- Settles O48: what follows the entry, settling included, leaves the loop record. -/
theorem itemsWriteTheirEntries : Obligations.ItemsWriteTheirEntries := by
  refine ⟨fun i d x s stage timer => ?_, fun x => ?_⟩
  · have done := (completeItem_written i x (s.reach d)).trans (charted_settle _ s)
    have next : exec (.itemTimerExpiry x) s = .next ((State.completeItem i x (s.reach d)).settle s) := by
      show execItemTimerExpiry x s = _
      rw [execItemTimerExpiry, stage]
      dsimp only
      rw [timer, onExpiry_some rfl]
      rfl
    obtain ⟨m, n, reached⟩ := reach_moves d s
    refine ⟨_, next, ?_, ?_, fun j other => ?_⟩
    · rw [done.frame, reached]
      rfl
    · rw [done.entry, State.uptime, done.now]
      exact setEntry_entry _ i _
    · rw [done.entry, reached]
      exact setEntry_other _ _ other
  · obtain ⟨near, far, opened⟩ := measure_resistance x
    obtain ⟨small, large⟩ := measure_capacitance x
    exact ⟨rfl, rfl, near, far, opened, rfl, small, large⟩

end Sys2Proof.Proofs.Items
end

section
/-! The phases of a survey: how one begins (O47), how its items and a request end (O47, O49). -/

set_option Elab.async false

namespace Sys2Proof.Proofs.Phases

open Sys2Proof Sys2Proof.Machine Sys2Proof.Proofs.Steps Sys2Proof.Proofs.Telling Sys2Proof.Proofs.Timers
open Sys2Proof.Proofs.Calls Sys2Proof.Proofs.Survey Sys2Proof.Proofs.Items

variable {s t u before : State} {x : LineState}

/-! ### What follows when the line has moved while the link is not in SHOWTIME -/

/-- The supply, the calls, the stations, the ports and what rings are as the command found them. -/
structure Unrung (before t : State) : Prop where
  supply : t.sup.supply = before.sup.supply
  calls : t.cct.calls = before.cct.calls
  ready : t.cfl.state = before.cfl.state
  presence : t.ybi.presence = before.ybi.presence
  portA : t.vsw.portA.state = before.vsw.portA.state
  portB : t.vsw.portB.state = before.vsw.portB.state
  episodes : t.vsw.episodes = before.vsw.episodes
  driven : t.sup.converter.burst = before.sup.converter.burst

/-- What settling looks at outside the line, its bursts and the survey is as the command found it; no survey waits. -/
structure LineMoved (before t : State) : Prop where
  unrung : Unrung before t
  away : t.lle.link ≠ .showtime
  link : t.linkStill before = true
  voltage : t.lth.stage ≠ .waitVoltage
  metallic : t.lth.stage ≠ .waitMetallic

theorem settleGuard_away (away : t.lle.link ≠ .showtime) : t.settleGuard before = t := by
  unfold State.settleGuard
  rw [if_neg fun both => away both.1]

/-- The part with the converter and what it does to the pair set. -/
def ringing (c : Converter) (p : Bool) (s : State) : State :=
  (s.onSup fun x => { x with converter := c }).onVsw fun v => { v with pairRinging := p }

/-- Of the ports, the calls and the ringing, the demand and the state of the pair are all that follows. -/
theorem settlePair_unrung (h : Unrung before t) : ∃ c p,
    (((t.settlePortB before).settleRecall before).settleRinging before).settlePair before = ringing c p t := by
  have asked : ∃ c, t.settleRinging before = t.onSup fun p => { p with converter := c } := by
    have due : t.planDue before t.vsw.episodes = false := by
      simp [State.planDue, h.supply, h.portA, h.portB, h.presence]
    unfold State.settleRinging
    simp only [if_pos h.calls, due]
    repeat' split
    all_goals first
      | contradiction
      | exact ⟨t.sup.converter, rfl⟩
      | exact ⟨_, rfl⟩
  obtain ⟨c, asked⟩ := asked
  have paired : ∃ p, (t.onSup fun p => { p with converter := c }).settlePair before = ringing c p t := by
    have calls : (t.onSup fun p => { p with converter := c }).cct.calls = before.cct.calls := h.calls
    unfold State.settlePair
    simp only [if_pos calls]
    split
    · exact ⟨t.vsw.pairRinging, rfl⟩
    · exact ⟨_, rfl⟩
  obtain ⟨p, paired⟩ := paired
  refine ⟨c, p, ?_⟩
  rw [settlePortB_same h.supply h.calls h.ready, settleRecall_same h.calls h.presence h.portA h.portB, asked, paired]

/-- The demand for ringing and the state of the pair are all that follows. -/
theorem settle_lineMoved (h : LineMoved before t) : ∃ c p, t.settle before = ringing c p t := by
  obtain ⟨c, p, rung⟩ := settlePair_unrung h.unrung
  refine ⟨c, p, ?_⟩
  unfold State.settle
  dsimp only
  rw [rung, settleGuard_away (by exact h.away), settleLink_same (by exact h.link),
    settleWait_notWaiting (by exact h.voltage) (by exact h.metallic)]

/-- Without a change of the bursts nothing follows. -/
theorem settle_lineQuiet (h : LineMoved before t) (burst : t.vsw.inBurst = before.vsw.inBurst) : t.settle before = t := by
  unfold State.settle
  dsimp only
  obtain ⟨supply, calls, ready, presence, portA, portB, episodes, driven⟩ := h.unrung
  rw [settlePortB_same supply calls ready, settleRecall_same calls presence portA portB,
    settleRinging_same calls supply portA portB (by rw [presence]) burst episodes,
    settlePair_same calls driven, settleGuard_away h.away, settleLink_same h.link,
    settleWait_notWaiting h.voltage h.metallic]

/-- Where LINE_STATUS finds room, it is what a line that enters a state is told by (R19). -/
theorem setLine_room (moves : s.vsw.line ≠ x) (room : s.routineRoom) : s.setLine x = (relined x s).onYbi fun y =>
    { y with routine := y.routine ++ [lineStatusFrame (decide (s.lle.link = .showtime)) x] } := by
  have frame := relined_frame x s
  have said : s.setLine x = (relined x s).lineStatus := by
    unfold State.setLine relined
    rw [if_neg moves, if_neg moves]
  have room' : (relined x s).routineRoom := by
    rw [frame]
    exact room
  have line : (relined x s).vsw.line = x := by rw [frame]
  have link : (relined x s).lle = s.lle := by rw [frame]
  rw [said, State.lineStatus, line, link]
  exact handRoutine_room room' nofun

/-! ### A phase begins -/

/-- Where the line alone enters a state, nothing rings otherwise than before. -/
theorem unrung_relines {u : State} (h : Relines x u t) (supply : u.sup = s.sup) (calls : u.cct.calls = s.cct.calls)
    (ready : u.cfl = s.cfl) (presence : u.ybi.presence = s.ybi.presence) (portA : u.vsw.portA.state = s.vsw.portA.state)
    (portB : u.vsw.portB.state = s.vsw.portB.state) (episodes : u.vsw.episodes = s.vsw.episodes) : Unrung s t := by
  have frame := h.frame
  refine ⟨?_, ?_, ?_, ?_, (congrArg PortRec.state h.portA).trans portA, (congrArg PortRec.state h.portB).trans portB,
    h.episodes.trans episodes, ?_⟩ <;> rw [frame]
  · exact congrArg Sup.supply supply
  · exact calls
  · exact congrArg Cfl.state ready
  · exact presence
  · exact congrArg (fun x : Sup => x.converter.burst) supply

/-- The line has gone to TEST and an item begun. -/
theorem begun_moved {l : Lth → Lth} {i : Item} (h : Relines .test (s.onLth l) t) (away : s.lle.link ≠ .showtime) :
    LineMoved s (t.beginItem i) := by
  have unrung : Unrung s t := unrung_relines h rfl rfl rfl rfl rfl rfl rfl
  have frame := h.frame
  refine ⟨⟨unrung.supply, unrung.calls, unrung.ready, unrung.presence, unrung.portA, unrung.portB, unrung.episodes,
    unrung.driven⟩, ?_, ?_, nofun, nofun⟩
  · rw [State.beginItem, State.onLth_lle, frame]
    exact away
  · rw [frame]
    simp [State.beginItem, State.linkStill]

/-- What comes of the beginning of a phase: the line is in TEST, and the item runs. -/
theorem finish_begun {l : Lth → Lth} {i : Item} (away : s.lle.link ≠ .showtime) :
    ∃ t, finish s (((s.onLth l).setLine .test).beginItem i) = .next t ∧
      t = { s with ybi := t.ybi, sup := t.sup, vsw := t.vsw, lth := t.lth, flt := t.flt, ctb := t.ctb } ∧
      t.lth.stage = .item i ∧ t.lth.relay = (l s.lth).relay ∧ t.lth.itemTimer = some (s.now + i.durationMs) ∧
      t.lth.waitTimer = none ∧ t.lth.running = (l s.lth).running ∧ t.vsw.line = .test := by
  have relines := relines_setLine .test (s.onLth l)
  obtain ⟨c, p, settled⟩ := settle_lineMoved (begun_moved (i := i) relines away)
  have survey := relines.survey
  have now : ((s.onLth l).setLine .test).now = s.now := by rw [relines.frame]; rfl
  have next : finish s (((s.onLth l).setLine .test).beginItem i) =
      .next (ringing c p (((s.onLth l).setLine .test).beginItem i)) := congrArg _ settled
  refine ⟨_, next, ?_, rfl, ?_, ?_, rfl, ?_, ?_⟩
  · rw [relines.frame]; rfl
  · exact (congrArg Lth.relay survey).trans rfl
  · exact congrArg (fun n => some (n + i.durationMs)) now
  · exact (congrArg Lth.running survey).trans rfl
  · exact relines.line

/-! ### An item is the last of its phase -/

/-- The part as the last item of a phase has completed in `l`, its restore time running. -/
def restoring (now : Nat) (l : Lth) : Lth :=
  { l with stage := .restoring, relay := .rest, itemTimer := none, restoreTimer := some (now + Config.restoreMs) }

/-- A voltage phase ends with the line resting. -/
theorem endPhase_voltage (quiet : s.intrusiveRunning = false) : s.endPhase = s.onLth (restoring s.now) := by
  unfold State.endPhase
  dsimp only
  rw [quiet]
  rfl

/-- So does a metallic phase without a held attempt and without holder SURVEY. -/
theorem endPhase_metallic (attempt : s.lle.attemptHeld = false) (holder : s.lth.holderAdded = false) :
    s.endPhase = s.onLth (restoring s.now) := by
  have rested : State.heldAttempt (s.onLth (restoring s.now)) = s.onLth (restoring s.now) := by
    unfold State.heldAttempt
    rw [if_neg (by simp [attempt])]
  have kept : (s.onLth (restoring s.now)).lth.holderAdded = false := holder
  unfold State.endPhase
  dsimp only
  split
  · show (if (State.heldAttempt (s.onLth (restoring s.now))).lth.holderAdded then _ else _) = _
    rw [rested, kept]
    exact (if_neg Bool.false_ne_true).trans rested
  · rfl

theorem nextInPhase_last {i : Item} {r : Machine.Survey} (running : s.lth.running = some r) (last : r.nextItem i = none) :
    s.nextInPhase i = s.endPhase := by
  unfold State.nextInPhase
  simp [running, last]

/-- Of a survey that alone has moved and does not wait, nothing follows. -/
theorem finish_surveyed {f : Lth → Lth} (voltage : (f s.lth).stage ≠ .waitVoltage)
    (metallic : (f s.lth).stage ≠ .waitMetallic) (frame : t = { before with now := t.now, lth := t.lth })
    (survey : t.lth = f s.lth) : finish before t = .next t := by
  have still : Still t before := by
    rw [frame]
    exact ⟨rfl, rfl, rfl, rfl, rfl, rfl, rfl, rfl, rfl, rfl, by simp [State.linkStill]⟩
  unfold finish
  rw [settle_still still, settleWait_notWaiting (by rw [survey]; exact voltage) (by rw [survey]; exact metallic)]

/-- The part as a running item has written its entry and ended. -/
def written (i : Item) (x : LoopReadings) (s : State) : State :=
  ((s.writeEntry i (measure i x).1 (measure i x).2).onRunning (Survey.endItem i (measure i x).1)).onLth (Lth.clearDue i)

/-- What comes of the last item of a phase of whose reading no fault follows. -/
theorem itemTimer_last {i : Item} {d : Nat} {x : LoopReadings} {r : Machine.Survey} (due : s.now ≤ d)
    (timer : s.lth.itemTimer = some d) (away : s.lle.link ≠ .showtime) (stage : s.lth.stage = .item i)
    (unjudged : ∀ s : State, s.judgeItem i x = s) (running : (written i x s).lth.running = some r)
    (last : r.nextItem i = none)
    (ends : (written i x { s with now := d }).endPhase = (written i x { s with now := d }).onLth (restoring d)) :
    exec (.itemTimerExpiry x) s = .next ((written i x { s with now := d }).onLth (restoring d)) := by
  have done : State.completeItem i x { s with now := d } = (written i x { s with now := d }).onLth (restoring d) := by
    have same : (written i x { s with now := d }).lth.running = some r := by
      cases i <;> exact running
    show (State.judgeItem i x (written i x { s with now := d })).nextInPhase i = _
    rw [unjudged, nextInPhase_last same last, ends]
  show execItemTimerExpiry x s = _
  rw [execItemTimerExpiry, stage]
  dsimp only
  rw [timer, onExpiry_some rfl, reach_of_le due away, done]
  exact finish_surveyed (f := fun l => restoring d (written i x { s with now := d }).lth) (s := s) nofun nofun rfl rfl

/-- The last item of a voltage phase ends: the line rests for 200 ms. -/
theorem lineVoltage_last {d : Nat} {x : LoopReadings} {r : Machine.Survey} (due : s.now ≤ d)
    (timer : s.lth.itemTimer = some d) (running : s.lth.running = some r) (away : s.lle.link ≠ .showtime)
    (stage : s.lth.stage = .item .lineVoltage) (last : (r.endItem .lineVoltage .valid).nextItem .lineVoltage = none) :
    ∃ t, exec (.itemTimerExpiry x) s = .next t ∧ t = { s with now := d, lth := t.lth } ∧
      t.lth = { s.lth with
        lineVoltage := { status := .valid, results := some (.lineVoltage (min 100 x.feed)), stamp := t.uptime }
        running := some (r.endItem .lineVoltage .valid), lineVoltageDue := false, stage := .restoring,
        relay := .rest, itemTimer := none, restoreTimer := some (d + 200) } := by
  have ended : s.lth.running.map (Survey.endItem .lineVoltage .valid) = some (r.endItem .lineVoltage .valid) :=
    congrArg (Option.map _) running
  have quiet : (written .lineVoltage x { s with now := d }).intrusiveRunning = false := by
    have same : (written .lineVoltage x { s with now := d }).lth.stage = .item .lineVoltage := stage
    rw [State.intrusiveRunning, same]
    rfl
  refine ⟨_, itemTimer_last due timer away stage (fun _ => rfl) ended last (endPhase_voltage quiet), rfl, ?_⟩
  rw [← ended]
  rfl

/-- The last item of a metallic phase ends so too, without a held attempt and without holder SURVEY. -/
theorem capacitance_last {d : Nat} {x : LoopReadings} {r : Machine.Survey} (due : s.now ≤ d)
    (timer : s.lth.itemTimer = some d) (running : s.lth.running = some r) (away : s.lle.link ≠ .showtime)
    (stage : s.lth.stage = .item .capacitance) (holder : s.lth.holderAdded = false) (attempt : s.lle.attemptHeld = false)
    (small : x.nanofarad ≤ 1000) (last : (r.endItem .capacitance .valid).nextItem .capacitance = none) :
    ∃ t, exec (.itemTimerExpiry x) s = .next t ∧ t = { s with now := d, lth := t.lth } ∧
      t.lth = { s.lth with
        capacitance :=
          { status := .valid, results := some (.capacitance x.nanofarad (x.nanofarad * 20)), stamp := t.uptime }
        running := some (r.endItem .capacitance .valid), stage := .restoring, relay := .rest, itemTimer := none,
        restoreTimer := some (d + 200) } := by
  have read : measure .capacitance x = (.valid, some (.capacitance x.nanofarad (x.nanofarad * 20))) := if_pos small
  have ended : s.lth.running.map (Survey.endItem .capacitance .valid) = some (r.endItem .capacitance .valid) :=
    congrArg (Option.map _) running
  have still : (written .capacitance x s).lth.running = some (r.endItem .capacitance .valid) := by
    unfold written
    rw [read]
    exact ended
  refine ⟨_, itemTimer_last due timer away stage (fun _ => rfl) still last (endPhase_metallic attempt holder), rfl, ?_⟩
  unfold written
  rw [read, ← ended]
  rfl

/-! ### How a phase begins -/

theorem phase_voltage {r : Machine.Survey} {i : Item} (stage : s.lth.stage = .waitVoltage)
    (running : s.lth.running = some r) (ready : s.voltageReady = true) (first : r.remaining.find? Item.isVoltage = some i) :
    exec .surveyPhaseStart s = finish s (((s.onLth fun l => { l with relay := .monitor }).setLine .test).beginItem i) := by
  have due : s.phaseReady = true := by simp [State.phaseReady, stage, running, ready]
  show execSurveyPhaseStart s = _
  rw [execSurveyPhaseStart, if_pos due, State.beginPhase, stage, running]
  simp only [first]
  rfl

theorem phase_metallic {r : Machine.Survey} {i : Item}
    (stage : s.lth.stage = .waitMetallic) (running : s.lth.running = some r) (ready : s.metallicReady r = true)
    (kept : r.allowDrop = false) (first : r.remaining.find? Item.intrusive = some i) :
    exec .surveyPhaseStart s = finish s (((s.onLth fun l => { l with relay := .separate }).setLine .test).beginItem i) := by
  have due : s.phaseReady = true := by simp [State.phaseReady, stage, running, ready]
  show execSurveyPhaseStart s = _
  rw [execSurveyPhaseStart, if_pos due, State.beginPhase, stage, running]
  simp only [first, kept]
  rfl

/-- The automatic check that a due FOREIGN_VOLTAGE alone begins. -/
def voltageCheck : Machine.Survey where
  originator := none
  items := [.foreignVoltage]
  allowDrop := false
  merged := []
  ended := []

theorem check_voltage (due : s.lth.voltageDue = true) (alone : s.lth.lineVoltageDue = false)
    (running : s.lth.running = none) (pending : s.lth.pending = none) (ready : s.voltageReady = true) :
    exec .automaticCheckStart s = finish s (((s.onLth fun l =>
      { l with running := some voltageCheck, waitTimer := none, relay := .monitor }).setLine .test).beginItem
        .foreignVoltage) := by
  have items : s.lth.dueItems = [.foreignVoltage] := by simp [Lth.dueItems, due, alone]
  show execAutomaticCheckStart s = _
  rw [execAutomaticCheckStart, items]
  dsimp only
  rw [if_pos ⟨by simp [running], by simp [pending], ready⟩]
  rfl

/-- Settles O47, by the command and the phase. -/
theorem surveyPhasesAndItems : Obligations.SurveyPhasesAndItems := by
  refine ⟨fun s away line => ⟨fun r i stage running ready first => ?_, fun r i stage running ready kept first => ?_,
    fun due alone running pending ready => ?_⟩, fun d x r s due timer running away => ⟨?_, ?_⟩⟩
  · rw [phase_voltage stage running ready first]
    obtain ⟨t, next, frame, item, relay, timer, stopped, still, test⟩ :=
      finish_begun (s := s) (l := fun l => { l with relay := .monitor }) (i := i) away
    exact ⟨t, next, frame, item, relay, timer, stopped, still.trans running, test⟩
  · rw [phase_metallic stage running ready kept first]
    obtain ⟨t, next, frame, item, relay, timer, stopped, still, test⟩ :=
      finish_begun (s := s) (l := fun l => { l with relay := .separate }) (i := i) away
    exact ⟨t, next, frame, item, relay, timer, stopped, still.trans running, test⟩
  · rw [check_voltage due alone running pending ready]
    obtain ⟨t, next, frame, item, relay, timer, stopped, still, test⟩ := finish_begun (s := s)
      (l := fun l => { l with running := some voltageCheck, waitTimer := none, relay := .monitor }) (i := .foreignVoltage) away
    exact ⟨t, next, frame, item, relay, timer, still, test⟩
  · exact fun stage last => lineVoltage_last due timer running away stage last
  · exact fun stage holder attempt small last => capacitance_last due timer running away stage holder attempt small last

end Sys2Proof.Proofs.Phases
end

section
/-! A request of the survey ends, waits too long, or is aborted by ringing (O49). -/

set_option Elab.async false

namespace Sys2Proof.Proofs.Aborts

open Sys2Proof Sys2Proof.Machine Sys2Proof.Proofs.Steps Sys2Proof.Proofs.Telling Sys2Proof.Proofs.Timers
open Sys2Proof.Proofs.Calls Sys2Proof.Proofs.Survey Sys2Proof.Proofs.Items Sys2Proof.Proofs.Phases

variable {s t u before : State} {x : LineState} {r : Machine.Survey} {n d : Nat}

/-! ### A request whose items have all ended -/

theorem remaining_endAll (r : Machine.Survey) : (r.endAll r.remaining).remaining = [] := by
  unfold Survey.remaining
  rw [List.filter_eq_nil_iff]
  intro i mem
  simp only [Bool.and_eq_true, Bool.not_eq_true', not_and, Bool.not_eq_false]
  intro named
  cases ended : r.ended.any (fun e => decide (e.1 = i)) with
  | true =>
    rw [List.any_eq_true] at ended ⊢
    obtain ⟨e, old, same⟩ := ended
    exact ⟨e, List.mem_append_left _ old, same⟩
  | false =>
    rw [List.any_eq_true]
    have named' : r.items.contains i = true := named
    refine ⟨(i, .notRun), List.mem_append_right _ (List.mem_map.mpr ⟨i, ?_, rfl⟩), by simp⟩
    exact List.mem_filter.mpr ⟨mem, by simp only [named', ended, Bool.not_false, Bool.and_self]⟩

theorem endAll_nil (r : Machine.Survey) : r.endAll [] = r := by
  simp [Survey.endAll]

theorem originatorFrame_kind (r : Machine.Survey) (n : Nat) : (r.originatorFrame n).kind ≠ .presence := by
  unfold Survey.originatorFrame
  split <;> exact nofun

/-- The running request, all its items ended, leaves with its answer. -/
theorem continueSurvey_ends (running : s.lth.running = some r) (ended : r.remaining = []) (asked : r.originator = some n)
    (alone : r.merged = []) (pending : s.lth.pending = none) (room : s.routineRoom) :
    State.continueSurvey 2 s = (s.onLth fun l => { l with running := none, stage := .none, waitTimer := none }).onYbi
      fun y => { y with routine := y.routine ++ [r.originatorFrame n] } := by
  have finished : s.finishSurvey (r.endAll r.remaining) =
      (s.onLth fun l => { l with running := none, stage := .none, waitTimer := none }).onYbi
        fun y => { y with routine := y.routine ++ [r.originatorFrame n] } := by
    rw [ended, endAll_nil]
    unfold State.finishSurvey State.answerSurvey
    simp only [asked, alone, List.foldl_nil]
    exact handRoutine_room room (originatorFrame_kind r n)
  have left : (s.finishSurvey (r.endAll r.remaining)).lth.pending = none := by
    rw [finished]
    exact pending
  unfold State.continueSurvey
  simp only [running, ended, List.any_nil, Bool.false_and, Bool.false_eq_true, ↓reduceIte]
  rw [ended] at finished left
  rw [left]
  exact finished

/-! ### The end of the restore time -/

theorem restingLine_lth (f : Lth → Lth) (s : State) : (s.onLth f).restingLine = s.restingLine := rfl

theorem relined_silent (silent : s.vsw.inBurst = false) : (relined x s).vsw.inBurst = false := by
  unfold relined
  split
  · exact silent
  · rfl

/-- The line leaves TEST, the repeat of no claim being deferred, and LINE_STATUS is queued. -/
theorem leaveTest_told (none_ : s.cct.deferred = []) (moves : s.vsw.line ≠ s.restingLine) (room : s.routineRoom) :
    s.leaveTest = (relined s.restingLine s).onYbi fun y =>
      { y with routine := y.routine ++ [lineStatusFrame (decide (s.lle.link = .showtime)) s.restingLine] } := by
  have frame := relined_frame s.restingLine s
  have deferred : (relined s.restingLine s).cct.deferred = [] := by
    rw [frame]
    exact none_
  unfold State.leaveTest State.decideDeferred
  rw [setLine_room moves room]
  simp only [State.onYbi_cct, deferred, List.foldl_nil]
  have same : (relined s.restingLine s).cct = { (relined s.restingLine s).cct with deferred := [] } := by
    rw [← deferred]
  unfold State.onCct
  simp only [State.onYbi_cct]
  rw [← same]
  rfl

theorem restingLine_ne_test (s : State) : s.restingLine ≠ .test := by
  unfold State.restingLine
  split <;> exact nofun

/-- The part as the restore time ends. -/
def restored (d : Nat) (s : State) : State := ({ s with now := d }).onLth fun l => { l with restoreTimer := none }

/-- The restore time of the last phase ends: the line leaves TEST, and the request is answered (R166, R168). -/
theorem restoreTimer_ends (due : s.now ≤ d) (timer : s.lth.restoreTimer = some d) (running : s.lth.running = some r)
    (ended : r.remaining = []) (asked : r.originator = some n) (alone : r.merged = []) (pending : s.lth.pending = none)
    (deferred : s.cct.deferred = []) (line : s.vsw.line = .test) (away : s.lle.link ≠ .showtime)
    (mute : s.ybi.listenOnly = false) (empty : s.ybi.routine = []) (silent : s.vsw.inBurst = false) :
    ∃ t, exec .restoreTimerExpiry s = .next t ∧
      t = { s with now := t.now, ybi := t.ybi, vsw := t.vsw, lth := t.lth } ∧
      t.now = d ∧ t.vsw.line = s.restingLine ∧ t.lth.running = none ∧
      t.lth.stage = .none ∧ t.lth.restoreTimer = none ∧
      t.ybi = { s.ybi with routine := [lineStatusFrame false s.restingLine, r.originatorFrame n] } := by
  have frame := relined_frame s.restingLine (restored d s)
  have quiet := relined_silent (x := s.restingLine) (s := restored d s) silent
  have left : (restored d s).leaveTest = (relined s.restingLine (restored d s)).onYbi fun y =>
      { y with routine := y.routine ++ [lineStatusFrame (decide (s.lle.link = .showtime)) s.restingLine] } :=
    leaveTest_told (s := restored d s) deferred (by
      show s.vsw.line ≠ s.restingLine
      rw [line]
      exact (restingLine_ne_test s).symm) ⟨mute, by simp [restored, State.onLth, empty, Config.queueCapacity]⟩
  have down : decide (s.lle.link = .showtime) = false := decide_eq_false away
  rw [down] at left
  have done : State.restored { s with now := d } = (((relined s.restingLine (restored d s)).onYbi fun y =>
      { y with routine := y.routine ++ [lineStatusFrame false s.restingLine] }).onLth fun l =>
        { l with running := none, stage := .none, waitTimer := none }).onYbi fun y =>
      { y with routine := y.routine ++ [r.originatorFrame n] } := by
    show State.continueSurvey 2 (restored d s).leaveTest = _
    rw [left, frame]
    exact continueSurvey_ends (by exact running) ended asked alone (by exact pending)
      ⟨mute, by simp [State.onYbi, restored, State.onLth, empty, Config.queueCapacity]⟩
  rw [frame] at done quiet
  have settled := settle_lineQuiet (before := s) (t := State.restored { s with now := d }) (by
    rw [done]
    exact ⟨⟨rfl, rfl, rfl, rfl, rfl, rfl, rfl, rfl⟩, away, by simp [State.linkStill, restored], nofun, nofun⟩) (by
    rw [done]
    exact quiet.trans silent.symm)
  have next : exec .restoreTimerExpiry s = .next (State.restored { s with now := d }) := by
    show execRestoreTimerExpiry s = _
    rw [execRestoreTimerExpiry, timer, onExpiry_some rfl, reach_of_le due away]
    exact congrArg _ settled
  rw [done] at next
  refine ⟨_, next, rfl, rfl, rfl, rfl, rfl, rfl, ?_⟩
  simp [State.onYbi, restored, State.onLth, empty]

/-! ### The wait of a request ends -/

theorem waitTimer_ends (due : s.now ≤ d) (timer : s.lth.waitTimer = some d) (running : s.lth.running = some r)
    (asked : r.originator = some n) (alone : r.merged = []) (pending : s.lth.pending = none) (room : s.routineRoom)
    (away : s.lle.link ≠ .showtime) :
    ∃ t, exec .waitTimerExpiry s = .next t ∧ t = { s with now := d, ybi := t.ybi, lth := t.lth } ∧
      t.lth = { s.lth with running := none, stage := .none, waitTimer := none } ∧
      t.ybi = { s.ybi with routine := s.ybi.routine ++ [(r.endAll r.remaining).originatorFrame n] } := by
  have ended : (State.onRunning (fun r => r.endAll r.remaining) { s with now := d }).lth.running =
      some (r.endAll r.remaining) := congrArg (Option.map _) running
  have done := continueSurvey_ends (s := State.onRunning (fun r => r.endAll r.remaining) { s with now := d }) ended
    (remaining_endAll r) asked alone pending room
  have still : Still ((State.onLth (fun l => { l with running := none, stage := .none, waitTimer := none })
      (State.onRunning (fun r => r.endAll r.remaining) { s with now := d })).onYbi fun y =>
        { y with routine := y.routine ++ [(r.endAll r.remaining).originatorFrame n] }) s :=
    ⟨rfl, rfl, rfl, rfl, rfl, rfl, rfl, rfl, rfl, rfl, by simp [State.linkStill, State.onRunning]⟩
  rw [← done] at still
  have next : exec .waitTimerExpiry s =
      .next (State.continueSurvey 2 (State.onRunning (fun r => r.endAll r.remaining) { s with now := d })) := by
    show execWaitTimerExpiry s = _
    rw [execWaitTimerExpiry, timer, onExpiry_some rfl, reach_of_le due away]
    refine congrArg _ ((settle_still still).trans (settleWait_notWaiting ?_ ?_)) <;> rw [done] <;> exact nofun
  rw [done] at next
  exact ⟨_, next, rfl, rfl, rfl⟩

/-! ### Ringing in TEST -/

theorem testRing_aborts (due : s.now ≤ d) (line : s.vsw.line = .test) (timer : s.vsw.burstOnTimer = some d)
    (stage : s.lth.stage = .item .foreignVoltage) (running : s.lth.running = some r) (away : s.lle.link ≠ .showtime) :
    ∃ t, exec .testRingDetected s = .next t ∧ t = { s with now := d, lth := t.lth, vsw := t.vsw } ∧
      t.vsw = { s.vsw with burstOnTimer := none } ∧ t.lth.stage = .restoring ∧ t.lth.holdOff = true ∧
      t.lth.relay = .rest ∧ t.lth.restoreTimer = some (d + 200) ∧
      t.lth.foreignVoltage = { status := .aborted, results := none, stamp := t.uptime } ∧
      t.lth.running = some ((r.endItem .foreignVoltage .aborted).endAll (r.endItem .foreignVoltage .aborted).remaining) := by
  have quiet : (State.onRunning (fun r => let r := r.endItem .foreignVoltage .aborted; r.endAll r.remaining)
      (({ s with now := d, vsw := { s.vsw with burstOnTimer := none } } : State).writeEntry .foreignVoltage .aborted
        none)).intrusiveRunning = false := by
    have same : (State.onRunning (fun r => let r := r.endItem .foreignVoltage .aborted; r.endAll r.remaining)
      (({ s with now := d, vsw := { s.vsw with burstOnTimer := none } } : State).writeEntry .foreignVoltage .aborted
        none)).lth.stage = .item .foreignVoltage := stage
    rw [State.intrusiveRunning, same]
    rfl
  have done : State.abortSurvey { s with now := d, vsw := { s.vsw with burstOnTimer := none } } =
      ((State.onRunning (fun r => let r := r.endItem .foreignVoltage .aborted; r.endAll r.remaining)
        (({ s with now := d, vsw := { s.vsw with burstOnTimer := none } } : State).writeEntry .foreignVoltage .aborted
          none)).onLth (restoring d)).onLth fun l => { l with holdOff := true } := by
    have same : ({ s with now := d, vsw := { s.vsw with burstOnTimer := none } } : State).lth.stage =
        .item .foreignVoltage := stage
    unfold State.abortSurvey
    rw [same]
    dsimp only
    rw [endPhase_voltage quiet]
    rfl
  have still : Still (State.abortSurvey { s with now := d, vsw := { s.vsw with burstOnTimer := none } }) s := by
    rw [done]
    exact ⟨rfl, rfl, rfl, rfl, rfl, rfl, rfl, rfl, rfl, rfl, by simp [State.linkStill, State.onRunning, State.writeEntry]⟩
  have next : exec .testRingDetected s =
      .next (State.abortSurvey { s with now := d, vsw := { s.vsw with burstOnTimer := none } }) := by
    show execTestRingDetected s = _
    rw [execTestRingDetected, if_pos line, timer, onExpiry_some rfl, reach_of_le due away]
    refine congrArg _ ((settle_still still).trans (settleWait_notWaiting ?_ ?_)) <;> rw [done] <;> exact nofun
  rw [done] at next
  refine ⟨_, next, rfl, rfl, rfl, rfl, rfl, rfl, rfl, ?_⟩
  exact congrArg (Option.map fun r : Machine.Survey =>
    (r.endItem .foreignVoltage .aborted).endAll (r.endItem .foreignVoltage .aborted).remaining) running

/-- Settles O49, by the way a request or an item ends. -/
theorem surveyEnds : Obligations.SurveyEnds :=
  ⟨fun _ _ _ _ due timer running ended asked alone pending deferred line away mute empty silent =>
      restoreTimer_ends due timer running ended asked alone pending deferred line away mute empty silent,
    fun _ _ _ _ due timer running asked alone pending room away =>
      waitTimer_ends due timer running asked alone pending room away,
    fun _ _ _ due line timer stage running away => testRing_aborts due line timer stage running away⟩

end Sys2Proof.Proofs.Aborts
end

section
/-! Outpulsing and the cadence of ringing (O46). -/

set_option Elab.async false

namespace Sys2Proof.Proofs.Cadences

open Sys2Proof Sys2Proof.Machine Sys2Proof.Proofs.Steps Sys2Proof.Proofs.Timers Sys2Proof.Proofs.Rules
open Sys2Proof.Proofs.Seconds Sys2Proof.Proofs.Phases

variable {s t u before : State} {d : Nat}

/-! ### Outpulsing -/

theorem reach_vsw (d : Nat) (s : State) : (s.reach d).vsw = s.vsw := by
  obtain ⟨m, n, reached⟩ := reach_moves d s
  rw [reached]

/-- The phase of the outpulsing ends, and nothing follows. -/
theorem outpulseTimer_advances {o : Outpulse} {f : Vsw → Vsw} (runs : s.vsw.outpulse = some o)
    (advances : Vsw.advanceOutpulse o s.vsw = f s.vsw) (portA : (f s.vsw).portA = s.vsw.portA)
    (portB : (f s.vsw).portB = s.vsw.portB) (burst : (f s.vsw).inBurst = s.vsw.inBurst)
    (episodes : (f s.vsw).episodes = s.vsw.episodes) (line : (f s.vsw).line = s.vsw.line) :
    exec .outpulseTimerExpiry s = .next ((s.reach o.ends).onVsw f) := by
  have same : (s.reach o.ends).onVsw (Vsw.advanceOutpulse o) = (s.reach o.ends).onVsw f := by
    unfold State.onVsw
    rw [reach_vsw, advances]
  show execOutpulseTimerExpiry s = _
  rw [execOutpulseTimerExpiry, runs]
  dsimp only
  rw [same]
  refine finish_undisturbed ((reach_undisturbed o.ends s).onVsw ?_ ?_ ?_ ?_ ?_) <;> rw [reach_vsw]
  · rw [portA]
  · rw [portB]
  · exact burst
  · exact episodes
  · exact line

theorem outpulsing : ∀ (o : Outpulse) (s : State), s.vsw.outpulse = some o →
    (o.phase = .opened → o.pulsesLeft ≠ 0 →
      exec .outpulseTimerExpiry s = .next
        ((s.reach o.ends).onVsw fun v => { v with outpulse := some { o with phase := .make, ends := o.ends + 40 } })) ∧
    (o.phase = .opened → o.pulsesLeft = 0 →
      exec .outpulseTimerExpiry s = .next
        ((s.reach o.ends).onVsw fun v =>
          { v with
            outpulse := some { o with phase := .make, ends := o.ends + 40 }, repeatQueue := v.repeatQueue.drop 1 })) ∧
    (o.phase = .make → o.pulsesLeft ≠ 0 →
      exec .outpulseTimerExpiry s = .next
        ((s.reach o.ends).onVsw fun v =>
          { v with outpulse := some { pulsesLeft := o.pulsesLeft - 1, phase := .opened, ends := o.ends + 60 } })) ∧
    (o.phase = .make → o.pulsesLeft = 0 →
      exec .outpulseTimerExpiry s = .next
        ((s.reach o.ends).onVsw fun v => { v with outpulse := some { o with phase := .pause, ends := o.ends + 700 } })) ∧
    (o.phase = .pause → s.vsw.repeatQueue = [] →
      exec .outpulseTimerExpiry s = .next ((s.reach o.ends).onVsw fun v => { v with outpulse := none })) ∧
    ∀ x q, o.phase = .pause → s.vsw.repeatQueue = x :: q →
      exec .outpulseTimerExpiry s = .next
        ((s.reach o.ends).onVsw fun v =>
          let next : Outpulse :=
            { pulsesLeft := (if x.digit = 0 then 10 else x.digit) - 1, phase := .opened, ends := o.ends + 60 }
          { v with outpulse := some next }) := by
  intro o s runs
  refine ⟨fun phase left => ?_, fun phase last => ?_, fun phase left => ?_, fun phase last => ?_, fun phase empty => ?_,
    fun x q phase queue => ?_⟩
  · refine outpulseTimer_advances runs ?_ rfl rfl rfl rfl rfl
    simp only [Vsw.advanceOutpulse, phase, if_neg left]
    rfl
  · refine outpulseTimer_advances runs ?_ rfl rfl rfl rfl rfl
    simp only [Vsw.advanceOutpulse, phase, if_pos last]
    rfl
  · refine outpulseTimer_advances runs ?_ rfl rfl rfl rfl rfl
    simp only [Vsw.advanceOutpulse, phase, if_neg left]
    rfl
  · refine outpulseTimer_advances runs ?_ rfl rfl rfl rfl rfl
    simp only [Vsw.advanceOutpulse, phase, if_pos last]
    rfl
  · refine outpulseTimer_advances runs ?_ rfl rfl rfl rfl rfl
    simp only [Vsw.advanceOutpulse, phase, Vsw.beginOutpulse, empty]
  · refine outpulseTimer_advances runs ?_ rfl rfl rfl rfl rfl
    simp only [Vsw.advanceOutpulse, phase, Vsw.beginOutpulse, queue]
    rfl

/-! ### The cadence -/

theorem settleRinging_asks (calls : u.cct.calls = before.cct.calls) (due : u.planDue before u.vsw.episodes = false)
    (moved : u.vsw.episodes ≠ before.vsw.episodes) (some_ : u.vsw.episodes ≠ []) :
    u.settleRinging before = u.demandRing := by
  unfold State.settleRinging
  simp only [if_pos calls, due, Bool.false_eq_true, ↓reduceIte]
  rw [if_neg fun both => moved both.2, if_neg (by simpa using some_)]

/-- When the phases of the episodes alone have moved, the demand is made, and the pair follows the converter. -/
theorem settle_phases (h : Undisturbed t before) (f : List Episode) (moved : f ≠ before.vsw.episodes) (some_ : f ≠ []) :
    ∃ p, (t.onVsw fun v => { v with episodes := f }).settle before =
      ((t.onVsw fun v => { v with episodes := f }).demandRing).onVsw fun v => { v with pairRinging := p } := by
  have link : t.lle.link = before.lle.link := by
    have same := h.link
    simp only [State.linkStill, Bool.and_eq_true, decide_eq_true_eq] at same
    tauto
  have asked : (t.onVsw fun v => { v with episodes := f }).settleRinging before =
      (t.onVsw fun v => { v with episodes := f }).demandRing := by
    have due : (t.onVsw fun v => { v with episodes := f }).planDue before f = false := by
      simp [State.planDue, h.supply, h.portA, h.portB, h.presence]
    exact settleRinging_asks h.calls due moved some_
  have paired : ∃ p, ((t.onVsw fun v => { v with episodes := f }).demandRing).settlePair before =
      ((t.onVsw fun v => { v with episodes := f }).demandRing).onVsw fun v => { v with pairRinging := p } := by
    have calls : ((t.onVsw fun v => { v with episodes := f }).demandRing).cct.calls = before.cct.calls := h.calls
    unfold State.settlePair
    simp only [if_pos calls]
    split
    · exact ⟨t.vsw.pairRinging, rfl⟩
    · exact ⟨_, rfl⟩
  obtain ⟨p, paired⟩ := paired
  refine ⟨p, ?_⟩
  unfold State.settle
  dsimp only
  rw [settlePortB_same (by exact h.supply) (by exact h.calls) (by exact h.ready),
    settleRecall_same (by exact h.calls) (by exact h.presence) (by exact h.portA) (by exact h.portB), asked, paired,
    settleGuard_same (by exact h.line) (fun showtime => link ▸ showtime), settleLink_same (by exact h.link),
    settleWait_same (by exact h.stage) (by exact h.running) (by exact h.phase)]

/-- The loads that are rung while one episode runs are those of the plan for it in its bursts, and none between them. -/
theorem demandRing_intercom {e : Episode} (alone : s.vsw.episodes = [e]) (kind : e.kind = .intercom) :
    s.demandRing = s.onSup fun p => { p with
      converter := p.converter.demand s.sup.supply s.now
        (if e.phase % 2 = 0 then (s.vsw.plan.loads.filter (fun l => l.callId == e.callId)).map (·.load) else []) } := by
  unfold State.demandRing
  by_cases burst : e.phase % 2 = 0
  · have same : ∀ l : PlannedLoad, ([e.callId].contains l.callId) = (l.callId == e.callId) := by
      intro l
      rw [Bool.eq_iff_iff]
      simp
    simp only [alone, List.filter_cons, Vsw.inPhase, kind, burst, BEq.rfl, List.filter_nil, List.map_cons, List.map_nil,
      same, ↓reduceIte]
  · simp [alone, Vsw.inPhase, kind, burst]

/-- Settles O46, by what runs: the outpulsing or a cadence. -/
theorem outpulsingAndCadence : Obligations.OutpulsingAndCadence := by
  refine ⟨fun o s runs _ => outpulsing o s runs, fun d e s alone timer due => ?_⟩
  have next : e.next s.cfl.record.cadence =
      { e with phase := e.phase + 1, timer := some (d + phaseMs s.cfl.record.cadence (e.phase + 1)) } := by
    unfold Episode.next
    rw [timer]
    rfl
  obtain ⟨m, n, reached⟩ := reach_moves d s
  obtain ⟨p, settled⟩ := settle_phases (reach_undisturbed d s) [e.next s.cfl.record.cadence]
    (by
      rw [alone]
      intro same
      have phases := congrArg (List.map Episode.phase) same
      simp [Episode.next] at phases) nofun
  have done : exec (.cadencePhaseExpiry e.callId) s = .next ((State.demandRing ((s.reach d).onVsw fun v =>
      { v with episodes := [e.next s.cfl.record.cadence] })).onVsw fun v => { v with pairRinging := p }) := by
    have due : (s.vsw.episodes.find? (fun x => x.callId == e.callId && x.timer.isSome)).bind (·.timer) = some d := by
      simp [alone, timer]
    have moved : ((s.reach d).onVsw fun v => { v with
        episodes := v.episodes.map (fun x =>
          if x.callId = e.callId ∧ x.timer.isSome then x.next (s.reach d).cfl.record.cadence else x) }) =
        (s.reach d).onVsw fun v => { v with episodes := [e.next s.cfl.record.cadence] } := by
      rw [reached]
      simp [State.onVsw, alone, timer]
    show execCadencePhaseExpiry e.callId s = _
    rw [execCadencePhaseExpiry, onExpiry_some due, moved]
    exact congrArg _ settled
  have now : (s.reach d).now = d := reach_now due
  have sup : (s.reach d).sup = s.sup := by rw [reached]
  refine ⟨_, done, ?_, ?_, ?_, ?_, ?_, fun on kind even => ?_, fun off kind odd rung => ?_⟩
  · rfl
  · rw [← next]; rfl
  · show (s.reach d).vsw.plan = _
    rw [reach_vsw]
  · show (s.reach d).sup.supply = _
    rw [sup]
  · show (s.reach d).sup.railLevel = _
    rw [sup]
  · have asked := demandRing_intercom (s := (s.reach d).onVsw fun v => { v with episodes := [e.next s.cfl.record.cadence] })
      rfl kind
    rw [if_neg (by simp [Episode.next]; omega)] at asked
    rw [asked]
    simp [State.onSup, Converter.demand, sup, on, Converter.idleFrom]
  · have asked := demandRing_intercom (s := (s.reach d).onVsw fun v => { v with episodes := [e.next s.cfl.record.cadence] })
      rfl kind
    rw [if_pos (by simp [Episode.next]; omega)] at asked
    have loads : ((s.vsw.plan.loads.filter (fun l => l.callId == e.callId)).map (·.load)).isEmpty = false := by
      obtain ⟨l, mem, same⟩ := rung
      have kept : l ∈ s.vsw.plan.loads.filter (fun l => l.callId == e.callId) :=
        List.mem_filter.mpr ⟨mem, by simp [same]⟩
      rw [List.isEmpty_eq_false_iff]
      intro none_
      exact absurd (List.map_eq_nil_iff.mp none_ ▸ kept) List.not_mem_nil
    rw [asked]
    have plan : (s.reach d).vsw.plan = s.vsw.plan := by rw [reach_vsw]
    simp [State.onSup, Converter.demand, sup, off, plan, now, Episode.next, loads, Config.converterSettleMs]

end Sys2Proof.Proofs.Cadences
end

section
/-! The no-load check and the low-current watch of a port (O43). -/

set_option Elab.async false

namespace Sys2Proof.Proofs.Checks

open Sys2Proof Sys2Proof.Machine Sys2Proof.Proofs.Steps Sys2Proof.Proofs.Telling Sys2Proof.Proofs.Timers
open Sys2Proof.Proofs.Rules Sys2Proof.Proofs.Link Sys2Proof.Proofs.Seconds Sys2Proof.Proofs.Cadences

variable {s t u before : State} {d : Nat} {p : Port}

theorem port_onPort (p : Port) (f : PortRec → PortRec) (s : State) : (s.onPort p f).port p = f (s.port p) := by
  cases p <;> rfl

theorem onPort_frame (p : Port) (f : PortRec → PortRec) (s : State) :
    s.onPort p f = { s with vsw := (s.onPort p f).vsw } := by
  cases p <;> rfl

theorem reach_port (d : Nat) (p : Port) (s : State) : (s.reach d).port p = s.port p := by
  unfold State.port
  rw [reach_vsw]

theorem onPort_congr {f g : PortRec → PortRec} (same : f (s.port p) = g (s.port p)) : s.onPort p f = s.onPort p g := by
  cases p
  · exact congrArg (fun r => s.onVsw fun v => { v with portA := r }) same
  · exact congrArg (fun r => s.onVsw fun v => { v with portB := r }) same

/-- The fault that a check of a port keeps is ACTIVE or not as it was found, and nothing else has moved. -/
theorem check_told {c : FaultCode} (low : c.severity ≠ .out) (holds : Bool) (room : s.flt.entries.length < 16) :
    ∃ q f, (if holds then s.raiseUnlessActive c (.port p) else s.makeInactive c (.port p)) =
      { s with ybi := { s.ybi with routine := q }, flt := f } ∧ f.isActive ⟨c, .port p⟩ = holds := by
  cases holds with
  | false =>
    obtain ⟨q, f, told, inactive, -⟩ := makeInactive_told (x := .port p) low s
    exact ⟨q, f, told, inactive⟩
  | true =>
    cases active : s.faultActive c (.port p) with
    | true => exact ⟨s.ybi.routine, s.flt, by simp [State.raiseUnlessActive, active], active⟩
    | false =>
      obtain ⟨q, f, told, firm, -⟩ := raise_room (x := .port p) low room
      exact ⟨q, f, by simp [State.raiseUnlessActive, active, told], firm.1⟩

/-- Of a change of the ROUTINE queue and of the fault table nothing follows while no survey waits. -/
theorem finish_noted {q : List TxFrame} {f : Flt} (calm : Undisturbed u s) (idle : s.lth.stage = .none) :
    finish s { u with ybi := { u.ybi with routine := q }, flt := f } =
      .next { u with ybi := { u.ybi with routine := q }, flt := f } :=
  finish_undisturbed ⟨calm.supply, calm.calls, calm.ready, calm.presence, calm.portA, calm.portB, calm.burst,
    calm.episodes, calm.driven, calm.line, calm.link, calm.stage, calm.running,
    fun ready => by simp [State.phaseReady, idle] at ready⟩

theorem current_setCurrent (p : Port) (ma : Nat) (x : Pins) : (Pins.setCurrent p ma x).current p = ma := by
  cases p <;> rfl

/-- The low-current timer starts (R118). -/
theorem watchCurrent_starts (low : s.pins.current p < 18) (fed : s.fed p = true) (offHook : (s.port p).offHook = true)
    (stopped : (s.port p).lowCurrentTimer = none) (inactive : s.faultActive .portLowCurrent (.port p) = false) :
    s.watchCurrent p = s.onPort p fun r => { r with lowCurrentTimer := some (s.now + 2000) } := by
  unfold State.watchCurrent
  refine onPort_congr ?_
  cases p with
  | a =>
    have low' : s.pins.currentA < 18 := low
    simp only [offHook, fed, low', inactive, stopped, holdTimer, Config.lowCurrentMs]
    rfl
  | b =>
    have low' : s.pins.currentB < 18 := low
    simp only [offHook, fed, low', inactive, stopped, holdTimer, Config.lowCurrentMs]
    rfl

/-- Settles O43, by the timer or the current. -/
theorem portsAreChecked : Obligations.PortsAreChecked := by
  intro p s
  refine ⟨fun d timer due => ?_, fun d timer due room idle found => ?_, fun ma same => ?_,
    fun ma high low ready fed offHook stopped inactive => ?_, fun d timer room idle => ?_⟩
  · have now : (s.reach d).now = d := reach_now due
    show execNoLoadTimerExpiry p s = _
    rw [execNoLoadTimerExpiry, onExpiry_some timer, State.beginCheck, now]
    exact finish_undisturbed ((reach_undisturbed d s).onPort rfl)
  · have calm := (reach_undisturbed d s).onPort (p := p) (f := fun r =>
      { r with noLoadCheck := none, noLoadTimer := some (d + Config.noLoadMs) }) rfl
    have room' : ((s.reach d).onPort p fun r =>
        { r with noLoadCheck := none, noLoadTimer := some (d + Config.noLoadMs) }).flt.entries.length < 16 := by
      obtain ⟨m, n, reached⟩ := reach_moves d s
      rw [onPort_frame, reached]
      exact room
    obtain ⟨q, f, told, active⟩ := check_told (p := p) (c := .portNoLoad) (by decide) (!found) room'
    have checked : State.endCheck p found (s.reach d) = if !found then
        ((s.reach d).onPort p fun r => { r with noLoadCheck := none, noLoadTimer := some (d + Config.noLoadMs) }).raiseUnlessActive
          .portNoLoad (.port p)
      else ((s.reach d).onPort p fun r => { r with noLoadCheck := none, noLoadTimer := some (d + Config.noLoadMs) }).makeInactive
          .portNoLoad (.port p) := by
      unfold State.endCheck
      dsimp only
      rw [reach_now due]
      cases found <;> rfl
    have done := checked.trans told
    have next : exec (.noLoadCheckDone p found) s = .next (State.endCheck p found (s.reach d)) := by
      show execNoLoadCheckDone p found s = _
      rw [execNoLoadCheckDone, onExpiry_some timer, done]
      exact finish_noted calm idle
    rw [done] at next
    refine ⟨_, next, ?_, ?_, active⟩
    · rw [onPort_frame]
    · exact (port_onPort p _ _).trans (by rw [reach_port]; rfl)
  · have stays : (decide (s.pins.current p < 18) != decide (ma < 18)) = false := by simp [same]
    show execLoopCurrentChange p ma s = _
    rw [execLoopCurrentChange, State.takeCurrent, stays]
    exact finish_undisturbed (Undisturbed.refl s).onPins
  · have crosses : (decide (s.pins.current p < 18) != decide (ma < 18)) = true := by simp [low, high]
    have watched : (s.onPins (Pins.setCurrent p ma)).watchCurrent p =
        (s.onPins (Pins.setCurrent p ma)).onPort p fun r => { r with lowCurrentTimer := some (s.now + 2000) } := by
      have low' : (s.onPins (Pins.setCurrent p ma)).pins.current p < 18 := by
        rw [State.onPins_pins, current_setCurrent]
        exact low
      exact watchCurrent_starts low' (by simp [State.fed, ready]; exact fed) offHook stopped inactive
    show execLoopCurrentChange p ma s = _
    rw [execLoopCurrentChange, State.takeCurrent, crosses]
    simp only [↓reduceIte]
    rw [watched]
    exact finish_undisturbed ((Undisturbed.refl s).onPins.onPort rfl)
  · have calm := (reach_undisturbed d s).onPort (p := p) (f := fun r => { r with lowCurrentTimer := none }) rfl
    have room' : ((s.reach d).onPort p fun r => { r with lowCurrentTimer := none }).flt.entries.length < 16 := by
      obtain ⟨m, n, reached⟩ := reach_moves d s
      rw [onPort_frame, reached]
      exact room
    obtain ⟨q, f, told, firm, -⟩ := raise_room (x := .port p) (c := .portLowCurrent) (by decide) room'
    have next : exec (.lowCurrentExpiry p) s =
        .next (((s.reach d).onPort p fun r => { r with lowCurrentTimer := none }).raise .portLowCurrent (.port p)) := by
      show execLowCurrentExpiry p s = _
      rw [execLowCurrentExpiry, onExpiry_some timer, told]
      exact finish_noted calm idle
    rw [told] at next
    refine ⟨_, next, ?_, ?_, firm.1⟩
    · rw [onPort_frame]
    · exact (port_onPort p _ _).trans (by rw [reach_port])

end Sys2Proof.Proofs.Checks
end

section
/-! The outside line is sensed, and moves while the link is not in SHOWTIME (O44). -/

set_option Elab.async false

namespace Sys2Proof.Proofs.Lines

open Sys2Proof Sys2Proof.Machine Sys2Proof.Proofs.Steps Sys2Proof.Proofs.Telling Sys2Proof.Proofs.Timers
open Sys2Proof.Proofs.Calls Sys2Proof.Proofs.Link Sys2Proof.Proofs.Seconds Sys2Proof.Proofs.Training Sys2Proof.Proofs.Start
open Sys2Proof.Proofs.Phases

variable {s t u before : State} {x : LineState} {d : Nat}

/-! ### Sensing -/

/-- What the voltage of an IDLE line does to its timers (R120, R121). -/
theorem senseVoltage_idle (ready : s.cfl.state = .ready) (idle : s.vsw.line = .idle) :
    s.senseVoltage = s.onVsw fun v =>
      { v with
        offHookBandTimer := holdTimer (decide (bandOf s.pins.lineMillivolt = .offHook)) s.now 100 v.offHookBandTimer
        onHookBandTimer := none
        noFeedTimer := holdTimer (decide (bandOf s.pins.lineMillivolt = .noFeed)) s.now 10000 v.noFeedTimer
        feedTimer := none } := by
  unfold State.senseVoltage State.sensing
  simp [ready, idle, holdTimer, Config.bandMs, Config.noFeedMs]

/-- A voltage on an IDLE line. -/
theorem lineVoltage_sensed {mv : Nat} (ready : s.cfl.state = .ready) (idle : s.vsw.line = .idle) :
    exec (.lineVoltageChange mv) s = .next ((s.onPins fun p => { p with lineMillivolt := mv }).onVsw fun v =>
      { v with
        offHookBandTimer := holdTimer (decide (bandOf mv = .offHook)) s.now 100 v.offHookBandTimer
        onHookBandTimer := none
        noFeedTimer := holdTimer (decide (bandOf mv = .noFeed)) s.now 10000 v.noFeedTimer
        feedTimer := none }) := by
  show execLineVoltageChange mv s = _
  rw [execLineVoltageChange, senseVoltage_idle (by exact ready) (by exact idle)]
  exact finish_undisturbed ((Undisturbed.refl s).onPins.onVsw rfl rfl rfl rfl rfl)

theorem ringingVoltage_sensed {present : Bool} (ready : s.cfl.state = .ready) (idle : s.vsw.line = .idle)
    (silent : s.vsw.inBurst = false) :
    exec (.ringingVoltageChange present) s = .next ((s.onPins fun p => { p with ringing := present }).onVsw fun v =>
      { v with burstOnTimer := holdTimer present s.now 150 v.burstOnTimer, burstOffTimer := none }) := by
  have sensed : (s.onPins fun p => { p with ringing := present }).senseRinging =
      (s.onPins fun p => { p with ringing := present }).onVsw fun v =>
        { v with burstOnTimer := holdTimer present s.now 150 v.burstOnTimer, burstOffTimer := none } := by
    unfold State.senseRinging State.sensing
    simp [ready, idle, silent, holdTimer, Config.burstOnMs, State.onVsw, State.onPins]
  show execRingingVoltageChange present s = _
  rw [execRingingVoltageChange, sensed]
  exact finish_undisturbed ((Undisturbed.refl s).onPins.onVsw rfl rfl rfl rfl rfl)

/-- The first block of O44: what an IDLE line senses. -/
theorem idle_senses (ready : s.cfl.state = .ready) (idle : s.vsw.line = .idle) :
    (∀ mv, 3000 ≤ mv → mv ≤ 15000 → s.vsw.offHookBandTimer = none →
      ∃ t, exec (.lineVoltageChange mv) s = .next t ∧ t = { s with pins := t.pins, vsw := t.vsw } ∧
        t.pins = { s.pins with lineMillivolt := mv } ∧
        t.vsw = { s.vsw with
          offHookBandTimer := some (s.now + 100), onHookBandTimer := none, noFeedTimer := none, feedTimer := none }) ∧
    (∀ mv, mv < 3000 → s.vsw.noFeedTimer = none →
      ∃ t, exec (.lineVoltageChange mv) s = .next t ∧ t = { s with pins := t.pins, vsw := t.vsw } ∧
        t.pins = { s.pins with lineMillivolt := mv } ∧
        t.vsw = { s.vsw with
          offHookBandTimer := none, onHookBandTimer := none, noFeedTimer := some (s.now + 10000), feedTimer := none }) ∧
    (∀ mv, 40000 ≤ mv →
      ∃ t, exec (.lineVoltageChange mv) s = .next t ∧ t = { s with pins := t.pins, vsw := t.vsw } ∧
        t.vsw = { s.vsw with
          offHookBandTimer := none, onHookBandTimer := none, noFeedTimer := none, feedTimer := none }) ∧
    (s.vsw.inBurst = false → s.vsw.burstOnTimer = none →
      exec (.ringingVoltageChange true) s = .next
        ((s.onPins fun p => { p with ringing := true }).onVsw fun v =>
          { v with burstOnTimer := some (s.now + 150), burstOffTimer := none })) ∧
    (s.vsw.inBurst = false →
      exec (.ringingVoltageChange false) s = .next
        ((s.onPins fun p => { p with ringing := false }).onVsw fun v =>
          { v with burstOnTimer := none, burstOffTimer := none })) := by
  refine ⟨fun mv low high stopped => ⟨_, lineVoltage_sensed ready idle, rfl, rfl, ?_⟩,
    fun mv low stopped => ⟨_, lineVoltage_sensed ready idle, rfl, rfl, ?_⟩,
    fun mv high => ⟨_, lineVoltage_sensed ready idle, rfl, ?_⟩, fun silent stopped => ?_, fun silent => ?_⟩
  · have band : bandOf mv = .offHook := by
      rw [bandOf, if_neg (by omega), if_neg (by omega), if_pos low]
    simp [State.onVsw, band, holdTimer, stopped]
  · have band : bandOf mv = .noFeed := by
      rw [bandOf, if_neg (by omega), if_neg (by omega), if_neg (by omega)]
    simp [State.onVsw, band, holdTimer, stopped]
  · have band : bandOf mv = .onHook := if_pos high
    simp [State.onVsw, band, holdTimer]
  · rw [ringingVoltage_sensed ready idle silent]
    simp [State.onVsw, holdTimer, stopped]
  · rw [ringingVoltage_sensed ready idle silent]
    simp [State.onVsw, holdTimer]

/-! ### The line moves while the link is not in SHOWTIME -/

/-- What a command that has the line enter a state leads to, all else but notices and the voltage timers standing. -/
theorem finish_relines (away : s.lle.link ≠ .showtime) (idle : s.lth.stage = .none) (h : Relines x u t)
    (frame : u = { s with now := d, ybi := u.ybi, vsw := u.vsw, flt := u.flt }) (presence : u.ybi.presence = s.ybi.presence)
    (portA : u.vsw.portA = s.vsw.portA) (portB : u.vsw.portB = s.vsw.portB) (episodes : u.vsw.episodes = s.vsw.episodes) :
    ∃ w, finish s t = .next w ∧
      w = { s with now := w.now, ybi := w.ybi, sup := w.sup, vsw := w.vsw, lth := w.lth, flt := w.flt, ctb := w.ctb } ∧
      w.now = d ∧ w.vsw.line = x ∧ w.vsw.portA = s.vsw.portA ∧ w.vsw.portB = s.vsw.portB ∧ w.flt = t.flt ∧
      w.vsw.releaseTimer = t.vsw.releaseTimer := by
  have unrung : Unrung s t := unrung_relines h (by rw [frame]) (by rw [frame]) (by rw [frame]) presence
    (congrArg PortRec.state portA) (congrArg PortRec.state portB) episodes
  have told := h.frame
  rw [frame] at told
  have survey : t.lth.stage = .none := by
    rw [h.survey, frame]
    exact idle
  obtain ⟨c, p, settled⟩ := settle_lineMoved (before := s) (t := t) ⟨unrung, by rw [told]; exact away,
    by rw [told]; simp [State.linkStill], by rw [survey]; nofun, by rw [survey]; nofun⟩
  have next : finish s t = .next (ringing c p t) := congrArg _ settled
  refine ⟨_, next, ?_, ?_, h.line, h.portA.trans portA, h.portB.trans portB, rfl, rfl⟩ <;> rw [told] <;> rfl

theorem setLine_releaseTimer (moves : s.vsw.line ≠ x) (other : x ≠ .releasing) :
    (s.setLine x).vsw.releaseTimer = none := by
  have told := (mutters_setLine x s).frame
  rw [told]
  show (relined x s).vsw.releaseTimer = none
  unfold relined
  rw [if_neg moves]
  exact if_neg other

theorem finish_setLine {u : State} (away : s.lle.link ≠ .showtime) (idle : s.lth.stage = .none)
    (frame : u = { s with now := d, ybi := u.ybi, vsw := u.vsw, flt := u.flt }) (presence : u.ybi.presence = s.ybi.presence)
    (portA : u.vsw.portA = s.vsw.portA) (portB : u.vsw.portB = s.vsw.portB) (episodes : u.vsw.episodes = s.vsw.episodes) :
    ∃ w, finish s (u.setLine x) = .next w ∧
      w = { s with now := w.now, ybi := w.ybi, sup := w.sup, vsw := w.vsw, lth := w.lth, flt := w.flt, ctb := w.ctb } ∧
      w.now = d ∧ w.vsw.line = x ∧ w.vsw.portA = s.vsw.portA ∧ w.vsw.portB = s.vsw.portB ∧ w.flt = (u.setLine x).flt ∧
      w.vsw.releaseTimer = (u.setLine x).vsw.releaseTimer :=
  finish_relines away idle (relines_setLine x u) frame presence portA portB episodes

theorem endRinging_idle (line : s.vsw.line ≠ .ringIn) : s.endRinging x = s.setLine x := if_neg line

theorem offHookBand_held (due : s.now ≤ d) (away : s.lle.link ≠ .showtime) (idle : s.lth.stage = .none)
    (timer : s.vsw.offHookBandTimer = some d) (line : s.vsw.line = .idle) :
    ∃ t, exec .offHookBandHeld s = .next t ∧
      t = { s with now := t.now, ybi := t.ybi, sup := t.sup, vsw := t.vsw, lth := t.lth, flt := t.flt, ctb := t.ctb } ∧
      t.now = d ∧ t.vsw.line = .parallel ∧ t.vsw.portA = s.vsw.portA ∧ t.vsw.portB = s.vsw.portB := by
  obtain ⟨w, next, frame, now, moved, portA, portB, -, -⟩ := finish_setLine (x := .parallel) (u := { s with now := d })
    away idle rfl rfl rfl rfl rfl
  refine ⟨w, ?_, frame, now, moved, portA, portB⟩
  show execOffHookBandHeld s = _
  rw [execOffHookBandHeld, onExpiry_some timer, reach_of_le due away, endRinging_idle (by rw [line]; exact nofun)]
  exact next

theorem onHookBand_held (due : s.now ≤ d) (away : s.lle.link ≠ .showtime) (idle : s.lth.stage = .none)
    (timer : s.vsw.onHookBandTimer = some d) :
    ∃ t, exec .onHookBandHeld s = .next t ∧
      t = { s with now := t.now, ybi := t.ybi, sup := t.sup, vsw := t.vsw, lth := t.lth, flt := t.flt, ctb := t.ctb } ∧
      t.now = d ∧ t.vsw.line = .idle ∧ t.vsw.portA = s.vsw.portA ∧ t.vsw.portB = s.vsw.portB := by
  obtain ⟨w, next, frame, now, moved, portA, portB, -, -⟩ := finish_setLine (x := .idle) (u := { s with now := d })
    away idle rfl rfl rfl rfl rfl
  refine ⟨w, ?_, frame, now, moved, portA, portB⟩
  show execOnHookBandHeld s = _
  rw [execOnHookBandHeld, onExpiry_some timer, reach_of_le due away]
  exact next

theorem releaseGuard_ends (due : s.now ≤ d) (away : s.lle.link ≠ .showtime) (idle : s.lth.stage = .none)
    (timer : s.vsw.releaseTimer = some d) (line : s.vsw.line = .releasing) :
    ∃ t, exec .releaseGuardExpiry s = .next t ∧
      t = { s with now := t.now, ybi := t.ybi, sup := t.sup, vsw := t.vsw, lth := t.lth, flt := t.flt, ctb := t.ctb } ∧
      t.now = d ∧
      t.vsw.line = (if s.faultActive .foreignVoltageHigh .line = true ∨ s.faultActive .loopOpen .line = true then .out
        else .idle) ∧
      t.vsw.releaseTimer = none ∧ t.vsw.portA = s.vsw.portA ∧ t.vsw.portB = s.vsw.portB := by
  have other : s.restingLine ≠ .releasing := by
    unfold State.restingLine
    split <;> exact nofun
  obtain ⟨w, next, frame, now, moved, portA, portB, -, rests⟩ := finish_setLine (x := s.restingLine)
    (u := { s with now := d }) away idle rfl rfl rfl rfl rfl
  refine ⟨w, ?_, frame, now, moved.trans (by simp [State.restingLine]), rests.trans ?_, portA, portB⟩
  · show execReleaseGuardExpiry s = _
    rw [execReleaseGuardExpiry, onExpiry_some timer, reach_of_le due away]
    exact next
  · exact setLine_releaseTimer (by rw [show ({ s with now := d } : State).vsw.line = _ from line]; exact other.symm) other

/-- Where LINE_STATUS finds room, the fault table stands as the line enters a state. -/
theorem setLine_flt (room : s.routineRoom) : (s.setLine x).flt = s.flt := by
  by_cases moves : s.vsw.line = x
  · rw [State.setLine, if_pos moves]
  · rw [setLine_room moves room, State.onYbi_flt, relined_frame]

/-- The feed has been away for 10 s: LOOP_OPEN is ACTIVE, and an IDLE line enters OUT (R121). -/
theorem noFeed_expires (due : s.now ≤ d) (away : s.lle.link ≠ .showtime) (idle : s.lth.stage = .none)
    (timer : s.vsw.noFeedTimer = some d) (line : s.vsw.line = .idle) (place : s.flt.entries.length < 16)
    (urgent : s.ybi.urgent.length < 4) (room : s.routineRoom) :
    ∃ t, exec .noFeedExpiry s = .next t ∧
      t = { s with now := t.now, ybi := t.ybi, sup := t.sup, vsw := t.vsw, lth := t.lth, flt := t.flt, ctb := t.ctb } ∧
      t.now = d ∧ t.faultActive .loopOpen .line = true ∧ t.vsw.line = .out := by
  obtain ⟨q, told⟩ := raise_urgent (c := .loopOpen) (x := .line) rfl
    (s := { s with now := d, vsw := { s.vsw with noFeedTimer := none } }) urgent
  have active : (s.flt.raised ⟨.loopOpen, .line⟩ d (State.uptime { s with now := d, vsw := { s.vsw with noFeedTimer := none } })).1.isActive
      ⟨.loopOpen, .line⟩ = true :=
    Table.raised_active (k := ⟨.loopOpen, .line⟩) (by rw [Table.makeRoom_of_room place]; exact place)
  have out : (({ s with now := d, vsw := { s.vsw with noFeedTimer := none } } : State).raise .loopOpen
      .line).handOverLine =
      (({ s with now := d, vsw := { s.vsw with noFeedTimer := none } } : State).raise .loopOpen .line).setLine .out := by
    have resting : (({ s with now := d, vsw := { s.vsw with noFeedTimer := none } } : State).raise .loopOpen
        .line).restingLine = .out := by
      rw [told]
      refine if_pos ?_
      rw [Bool.or_eq_true]
      exact .inr active
    have line' : (({ s with now := d, vsw := { s.vsw with noFeedTimer := none } } : State).raise .loopOpen
        .line).vsw.line = .idle := by
      rw [told]
      exact line
    unfold State.handOverLine
    rw [resting, line']
  obtain ⟨w, next, frame, now, moved, -, -, faults, -⟩ := finish_setLine (s := s) (d := d) (x := .out)
    (u := ({ s with now := d, vsw := { s.vsw with noFeedTimer := none } } : State).raise .loopOpen .line)
    away idle (by rw [told]) (by rw [told]) (by rw [told]) (by rw [told]) (by rw [told])
  refine ⟨w, ?_, frame, now, ?_, moved⟩
  · show execNoFeedExpiry s = _
    rw [execNoFeedExpiry, onExpiry_some timer, reach_of_le due away]
    exact (congrArg (finish s) out).trans next
  · rw [setLine_flt (by rw [told]; exact room), told] at faults
    rw [State.faultActive, faults]
    exact active

/-- The feed has stood for 1 s: LOOP_OPEN is not ACTIVE, and the line leaves OUT for IDLE (R121). -/
theorem feed_restored (due : s.now ≤ d) (away : s.lle.link ≠ .showtime) (idle : s.lth.stage = .none)
    (timer : s.vsw.feedTimer = some d) (line : s.vsw.line = .out)
    (high : s.faultActive .foreignVoltageHigh .line = false) (urgent : s.ybi.urgent.length < 4) (room : s.routineRoom) :
    ∃ t, exec .feedRestored s = .next t ∧
      t = { s with now := t.now, ybi := t.ybi, sup := t.sup, vsw := t.vsw, lth := t.lth, flt := t.flt, ctb := t.ctb } ∧
      t.now = d ∧ t.faultActive .loopOpen .line = false ∧ t.vsw.line = .idle := by
  have told : ∃ q, ({ s with now := d, vsw := { s.vsw with feedTimer := none } } : State).makeInactive .loopOpen .line =
      { s with
        now := d, vsw := { s.vsw with feedTimer := none }, ybi := { s.ybi with urgent := q }
        flt := (s.flt.madeInactive ⟨.loopOpen, .line⟩ d (State.uptime { s with now := d })).1 } :=
    applyFault_urgent (k := ⟨.loopOpen, .line⟩) rfl
      (s.flt.madeInactive ⟨.loopOpen, .line⟩ d (State.uptime { s with now := d })) urgent
  obtain ⟨q, told⟩ := told
  have inactive : (s.flt.madeInactive ⟨.loopOpen, .line⟩ d (State.uptime { s with now := d })).1.isActive
      ⟨.loopOpen, .line⟩ = false := Table.madeInactive_self
  have low : (s.flt.madeInactive ⟨.loopOpen, .line⟩ d (State.uptime { s with now := d })).1.isActive
      ⟨.foreignVoltageHigh, .line⟩ = false :=
    not_active_of_spares spares_madeInactive (by decide) high
  have stands : State.feedStands { s with now := d } =
      (({ s with now := d, vsw := { s.vsw with feedTimer := none } } : State).makeInactive .loopOpen .line).setLine
        .idle := by
    have resting : (({ s with now := d, vsw := { s.vsw with feedTimer := none } } : State).makeInactive .loopOpen
        .line).restingLine = .idle := by
      rw [told]
      refine if_neg ?_
      rw [Bool.or_eq_true, State.faultActive, State.faultActive, low, inactive]
      simp
    have line' : (({ s with now := d, vsw := { s.vsw with feedTimer := none } } : State).makeInactive .loopOpen
        .line).vsw.line = .out := by
      rw [told]
      exact line
    have handed : (({ s with now := d, vsw := { s.vsw with feedTimer := none } } : State).makeInactive .loopOpen
        .line).handOverLine = (({ s with now := d, vsw := { s.vsw with feedTimer := none } } : State).makeInactive
        .loopOpen .line).setLine .idle := by
      unfold State.handOverLine
      rw [resting, line']
    unfold State.feedStands
    exact (if_neg (by exact Bool.eq_false_iff.mp high)).trans handed
  obtain ⟨w, next, frame, now, moved, -, -, faults, -⟩ := finish_setLine (s := s) (d := d) (x := .idle)
    (u := ({ s with now := d, vsw := { s.vsw with feedTimer := none } } : State).makeInactive .loopOpen .line)
    away idle (by rw [told]) (by rw [told]) (by rw [told]) (by rw [told]) (by rw [told])
  refine ⟨w, ?_, frame, now, ?_, moved⟩
  · show execFeedRestored s = _
    rw [execFeedRestored, onExpiry_some timer, reach_of_le due away]
    exact (congrArg (finish s) stands).trans next
  · rw [setLine_flt (by rw [told]; exact room), told] at faults
    rw [State.faultActive, faults]
    exact inactive

end Sys2Proof.Proofs.Lines
end

section
/-! The guard comparator follows a line that moves in SHOWTIME (O44). -/

set_option Elab.async false

namespace Sys2Proof.Proofs.Guards

open Sys2Proof Sys2Proof.Machine Sys2Proof.Proofs.Steps Sys2Proof.Proofs.Telling Sys2Proof.Proofs.Timers
open Sys2Proof.Proofs.Calls Sys2Proof.Proofs.Link Sys2Proof.Proofs.Seconds Sys2Proof.Proofs.Training Sys2Proof.Proofs.Start
open Sys2Proof.Proofs.Cadences Sys2Proof.Proofs.Walker Sys2Proof.Proofs.Entry Sys2Proof.Proofs.Survey Sys2Proof.Proofs.Phases Sys2Proof.Proofs.Lines

variable {s t u before : State} {x : LineState} {d : Nat} {K : List FaultKey}

/-! ### The comparator -/

/-- The comparator takes a detector that is set: ACTIVE, counted, and the GUARD table is wanted (R92, R94). -/
theorem judgeGuard_enters (clear : s.lle.sync.guard = .clear) (set : s.disturbed = true) :
    ∃ w, Gossips K (s.onLle fun l =>
      { l with switchWaiting := w, sync := { l.sync with guard := .active, switchRefused := false } }) s.judgeGuard := by
  have counted := Gossips.of_mutters (K := K) (mutters_signal .guardEntry (s.onSync fun y =>
    { y with guard := .active, switchRefused := false }))
  obtain ⟨w, aligned⟩ := alignTable_waits ((s.onSync fun y => { y with guard := .active, switchRefused := false }).signal
    .guardEntry)
  have judged : s.judgeGuard = State.alignTable ((s.onSync fun y =>
      { y with guard := .active, switchRefused := false }).signal .guardEntry) := by
    unfold State.judgeGuard
    rw [clear, set]
  rw [judged, aligned]
  exact ⟨w, counted.onLle fun l => { l with switchWaiting := w }⟩

/-- With the slot free and NORMAL in force, the GUARD table is asked for. -/
theorem judgeGuard_asks (clear : s.lle.sync.guard = .clear) (set : s.disturbed = true)
    (force : s.lle.downInForce = .normal) (free : s.lle.slot = none) (plain : s.ctb.wrapping 12 = []) :
    s.judgeGuard = ((s.onLle fun l =>
      { l with
        switchWaiting := some .guard, sync := { l.sync with guard := .active, switchRefused := false } }).onCtb fun b =>
        { b with counters := b.counters.map (Counter.count 12) }) := by
  unfold State.judgeGuard
  rw [clear, set]
  dsimp only
  rw [signal_plain (by exact plain)]
  simp [State.alignTable, force, free, Lle.switchOutstanding, Lle.outstanding]
  rfl

/-- No detector is set any more: EXITING for 5 s (R92). -/
theorem judgeGuard_leaves (active : s.lle.sync.guard = .active) (set : s.disturbed = false) :
    ∃ w, s.judgeGuard = s.onLle fun l =>
      { l with
        switchWaiting := w, sync := { l.sync with guard := .exiting, guardTimer := some (s.now + 5000) } } := by
  obtain ⟨w, aligned⟩ := alignTable_waits (s.onSync fun y =>
    { y with guard := .exiting, guardTimer := some (s.now + Config.guardMs) })
  unfold State.judgeGuard
  rw [active, set]
  dsimp only
  rw [aligned]
  exact ⟨w, rfl⟩

/-- A detector is set again within the 5 s. -/
theorem judgeGuard_returns (exiting : s.lle.sync.guard = .exiting) (set : s.disturbed = true) :
    ∃ w, s.judgeGuard = s.onLle fun l =>
      { l with switchWaiting := w, sync := { l.sync with guard := .active, guardTimer := none } } := by
  obtain ⟨w, aligned⟩ := alignTable_waits (s.onSync fun y => { y with guard := .active, guardTimer := none })
  unfold State.judgeGuard
  rw [exiting, set]
  dsimp only
  rw [aligned]
  exact ⟨w, rfl⟩

theorem disturbed_parallel (selected : s.cfl.record.guardSelection ≠ .ringIn) (line : s.vsw.line = .parallel) :
    s.disturbed = true := by
  unfold State.disturbed
  cases choice : s.cfl.record.guardSelection with
  | ringIn => exact absurd choice selected
  | parallel => simp [line]
  | both => simp [line]

theorem disturbed_idle (line : s.vsw.line = .idle) : s.disturbed = false := by
  unfold State.disturbed
  cases s.cfl.record.guardSelection <;> simp [line]

/-! ### What follows a line that moves in SHOWTIME -/

theorem settleWait_idle (h : Aloof t u) (idle : t.lth.stage = .none) : u.settleWait before = u := by
  have stage : u.lth.stage = .none := by
    rw [h.lth]
    exact idle
  exact settleWait_notWaiting (by rw [stage]; nofun) (by rw [stage]; nofun)

/-- The guard and the link follow the line. -/
theorem settle_lineGuarded (unrung : Unrung before t) (showtime : t.lle.link = .showtime)
    (moved : t.vsw.line ≠ before.vsw.line) (idle : t.lth.stage = .none) :
    ∃ c p, t.settle before = ((ringing c p t).judgeGuard).settleLink before := by
  obtain ⟨c, p, rung⟩ := settlePair_unrung unrung
  have guarded : (ringing c p t).settleGuard before = (ringing c p t).judgeGuard := if_pos ⟨showtime, .inl moved⟩
  have apart : Aloof (ringing c p t) (((ringing c p t).judgeGuard).settleLink before) :=
    (aloof_judgeGuard _).trans (aloof_settleLink _ before)
  refine ⟨c, p, ?_⟩
  unfold State.settle
  dsimp only
  rw [rung, guarded, settleWait_idle apart idle]

theorem relines_apart (h : Relines x u t) : t.lle = u.lle ∧ t.cfl = u.cfl ∧ t.now = u.now := by
  rw [h.frame]
  exact ⟨rfl, rfl, rfl⟩

/-- What comes of a line that enters a state in SHOWTIME, and of the comparator that judges it there. -/
theorem finish_lineGuarded (due : s.now ≤ d) (showtime : s.lle.link = .showtime) (idle : s.lth.stage = .none)
    (moves : s.vsw.line ≠ x) : ∃ n c p, Relines x { s with
      now := d, lle := { s.lle with sync := { s.lle.sync with symbolCount := n } } } ((s.reach d).setLine x) ∧
      finish s ((s.reach d).setLine x) =
        .next (((ringing c p ((s.reach d).setLine x)).judgeGuard).settleLink s) := by
  obtain ⟨n, passed⟩ := reach_counts due
  have relines := relines_setLine x (s.reach d)
  rw [passed] at relines ⊢
  obtain ⟨c, p, settled⟩ := settle_lineGuarded (before := s)
    (unrung_relines relines rfl rfl rfl rfl rfl rfl rfl) (by rw [relines.frame]; exact showtime)
    (by rw [relines.line]; exact moves.symm) (by rw [relines.survey]; exact idle)
  exact ⟨n, c, p, relines, congrArg _ settled⟩

theorem settleLink_guard (s before : State) : (s.settleLink before).lle.sync.guard = s.lle.sync.guard ∧
    (s.settleLink before).lle.sync.guardTimer = s.lle.sync.guardTimer ∧
    (s.settleLink before).lle.sync.switchRefused = s.lle.sync.switchRefused ∧
    (s.settleLink before).vsw = s.vsw ∧ (s.settleLink before).ctb = s.ctb ∧
    s.settleLink before = { s with sup := (s.settleLink before).sup, lle := (s.settleLink before).lle } := by
  rw [(linkFollows_settleLink s before).frame]
  exact ⟨rfl, rfl, rfl, rfl, rfl, rfl⟩

/-- The GUARD table is asked for as the comparator takes a detector, and sent into the free slot. -/
theorem guard_asked (clear : s.lle.sync.guard = .clear) (set : s.disturbed = true) (showtime : s.lle.link = .showtime)
    (force : s.lle.downInForce = .normal) (free : s.lle.slot = none) (plain : s.ctb.wrapping 12 = [])
    (same : before.lle.sync.guard = .clear) :
    (s.judgeGuard.settleLink before) = { s with
      sup := (s.judgeGuard.settleLink before).sup, lle := (s.judgeGuard.settleLink before).lle
      ctb := (s.judgeGuard.settleLink before).ctb } ∧
    (s.judgeGuard.settleLink before).lle.sync.guard = .active ∧
    (s.judgeGuard.settleLink before).lle.sync.switchRefused = false ∧
    (s.judgeGuard.settleLink before).ctb = { s.ctb with counters := s.ctb.counters.map (Counter.count 12) } ∧
    (s.judgeGuard.settleLink before).lle.slot =
      some { request := .switch .guard, number := s.lle.nextNumber, attempt := 1, deadline := s.now + 250 } ∧
    (s.judgeGuard.settleLink before).lle.farOut =
      s.lle.farOut ++ [.request s.lle.nextNumber (.switch .guard) s.lle.guard] := by
  have judged := judgeGuard_asks clear set force free plain
  obtain ⟨guard, -, refused, -, ctb, frame⟩ := settleLink_guard s.judgeGuard before
  obtain ⟨slot, farOut⟩ := settleLink_switch (s := s.judgeGuard) (before := before) (x := .guard)
    (by rw [judged]; simp [State.linkStill, same]) (by rw [judged]; exact showtime) (by rw [judged]; exact free)
    (by rw [judged]; rfl)
  rw [judged] at guard refused ctb slot farOut frame ⊢
  refine ⟨?_, guard, refused, ctb, slot, farOut⟩
  rw [ctb]
  exact frame

/-- What the comparator makes of a detector that is set again, or not set any more. -/
theorem guard_returns (exiting : s.lle.sync.guard = .exiting) (set : s.disturbed = true) :
    (s.judgeGuard.settleLink before) = { s with
      sup := (s.judgeGuard.settleLink before).sup, lle := (s.judgeGuard.settleLink before).lle } ∧
    (s.judgeGuard.settleLink before).lle.sync.guard = .active ∧
    (s.judgeGuard.settleLink before).lle.sync.guardTimer = none := by
  obtain ⟨w, judged⟩ := judgeGuard_returns exiting set
  obtain ⟨guard, timer, -, -, -, frame⟩ := settleLink_guard s.judgeGuard before
  rw [judged] at guard timer frame ⊢
  exact ⟨frame, guard, timer⟩

theorem guard_leaves (active : s.lle.sync.guard = .active) (set : s.disturbed = false) :
    (s.judgeGuard.settleLink before) = { s with
      sup := (s.judgeGuard.settleLink before).sup, lle := (s.judgeGuard.settleLink before).lle } ∧
    (s.judgeGuard.settleLink before).lle.sync.guard = .exiting ∧
    (s.judgeGuard.settleLink before).lle.sync.guardTimer = some (s.now + 5000) := by
  obtain ⟨w, judged⟩ := judgeGuard_leaves active set
  obtain ⟨guard, timer, -, -, -, frame⟩ := settleLink_guard s.judgeGuard before
  rw [judged] at guard timer frame ⊢
  exact ⟨frame, guard, timer⟩

/-! ### The commands -/

/-- The part as the line has entered a state in SHOWTIME, before the comparator judges it. -/
structure Entered (d : Nat) (x : LineState) (s y : State) : Prop where
  frame : y = { s with
    now := d, ybi := y.ybi, sup := y.sup, lle := y.lle, vsw := y.vsw, lth := y.lth, flt := y.flt, ctb := y.ctb }
  line : y.vsw.line = x
  link : ∃ n, y.lle = { s.lle with sync := { s.lle.sync with symbolCount := n } }

theorem lineGuarded_entered (due : s.now ≤ d) (showtime : s.lle.link = .showtime) (idle : s.lth.stage = .none)
    (moves : s.vsw.line ≠ x) : ∃ y, Entered d x s y ∧ y.ctb = ((s.reach d).setLine x).ctb ∧
      finish s ((s.reach d).setLine x) = .next (y.judgeGuard.settleLink s) := by
  obtain ⟨n, c, p, relines, next⟩ := finish_lineGuarded due showtime idle moves
  obtain ⟨lle, -, -⟩ := relines_apart relines
  refine ⟨ringing c p ((s.reach d).setLine x), ⟨?_, relines.line, n, lle⟩, rfl, next⟩
  rw [relines.frame]
  rfl

/-- Entry to PARALLEL from CLEAR: the comparator is ACTIVE, and the GUARD table asked for. -/
theorem parallel_enters (due : s.now ≤ d) (showtime : s.lle.link = .showtime)
    (selected : s.cfl.record.guardSelection ≠ .ringIn) (idle : s.lth.stage = .none)
    (timer : s.vsw.offHookBandTimer = some d) (line : s.vsw.line = .idle) (clear : s.lle.sync.guard = .clear)
    (force : s.lle.downInForce = .normal) (free : s.lle.slot = none) (room : s.routineRoom)
    (plain : s.ctb.wrapping 12 = []) :
    ∃ t, exec .offHookBandHeld s = .next t ∧
      t = { s with now := d, ybi := t.ybi, sup := t.sup, lle := t.lle, vsw := t.vsw, lth := t.lth, flt := t.flt, ctb := t.ctb } ∧
      t.vsw.line = .parallel ∧ t.lle.sync.guard = .active ∧ t.lle.sync.switchRefused = false ∧
      t.ctb = { s.ctb with counters := s.ctb.counters.map (Counter.count 12) } ∧
      t.lle.slot = some { request := .switch .guard, number := s.lle.nextNumber, attempt := 1, deadline := d + 250 } ∧
      t.lle.farOut = s.lle.farOut ++ [.request s.lle.nextNumber (.switch .guard) s.lle.guard] := by
  obtain ⟨y, entered, counters, next⟩ := lineGuarded_entered (x := .parallel) due showtime idle (by rw [line]; exact nofun)
  obtain ⟨n, lle⟩ := entered.link
  have record : y.cfl = s.cfl := by rw [entered.frame]
  have now : y.now = d := by rw [entered.frame]
  have told : ((s.reach d).setLine .parallel).ctb = s.ctb := by
    obtain ⟨m, passed⟩ := reach_counts due
    rw [setLine_room (by rw [passed, line]; exact nofun) (by rw [passed]; exact room), State.onYbi_ctb, relined_frame,
      passed]
  have ctb := counters.trans told
  obtain ⟨frame, guard, refused, counted, slot, farOut⟩ := guard_asked (s := y) (before := s) (by rw [lle]; exact clear)
    (disturbed_parallel (by rw [record]; exact selected) entered.line) (by rw [lle]; exact showtime)
    (by rw [lle]; exact force) (by rw [lle]; exact free) (by rw [ctb]; exact plain) clear
  refine ⟨_, ?_, ?_, ?_, guard, refused, by rw [counted, ctb], by rw [slot, lle, now], by rw [farOut, lle]⟩
  · show execOffHookBandHeld s = _
    rw [execOffHookBandHeld, onExpiry_some timer, endRinging_idle (by rw [reach_vsw, line]; exact nofun)]
    exact next
  · rw [frame, entered.frame]
  · rw [frame]
    exact entered.line

/-- Entry to PARALLEL within the 5 s after it was left. -/
theorem parallel_returns (due : s.now ≤ d) (showtime : s.lle.link = .showtime)
    (selected : s.cfl.record.guardSelection ≠ .ringIn) (idle : s.lth.stage = .none)
    (timer : s.vsw.offHookBandTimer = some d) (line : s.vsw.line = .idle) (exiting : s.lle.sync.guard = .exiting) :
    ∃ t, exec .offHookBandHeld s = .next t ∧
      t = { s with now := d, ybi := t.ybi, sup := t.sup, lle := t.lle, vsw := t.vsw, lth := t.lth, flt := t.flt, ctb := t.ctb } ∧
      t.vsw.line = .parallel ∧ t.lle.sync.guard = .active ∧ t.lle.sync.guardTimer = none := by
  obtain ⟨y, entered, -, next⟩ := lineGuarded_entered (x := .parallel) due showtime idle (by rw [line]; exact nofun)
  obtain ⟨n, lle⟩ := entered.link
  have record : y.cfl = s.cfl := by rw [entered.frame]
  obtain ⟨frame, guard, stopped⟩ := guard_returns (s := y) (before := s) (by rw [lle]; exact exiting)
    (disturbed_parallel (by rw [record]; exact selected) entered.line)
  refine ⟨_, ?_, ?_, ?_, guard, stopped⟩
  · show execOffHookBandHeld s = _
    rw [execOffHookBandHeld, onExpiry_some timer, endRinging_idle (by rw [reach_vsw, line]; exact nofun)]
    exact next
  · rw [frame, entered.frame]
  · rw [frame]
    exact entered.line

/-- The end of PARALLEL: the comparator is EXITING for 5 s. -/
theorem parallel_ends (due : s.now ≤ d) (showtime : s.lle.link = .showtime) (idle : s.lth.stage = .none)
    (timer : s.vsw.onHookBandTimer = some d) (line : s.vsw.line = .parallel) (active : s.lle.sync.guard = .active) :
    ∃ t, exec .onHookBandHeld s = .next t ∧
      t = { s with now := d, ybi := t.ybi, sup := t.sup, lle := t.lle, vsw := t.vsw, lth := t.lth, flt := t.flt, ctb := t.ctb } ∧
      t.vsw.line = .idle ∧ t.lle.sync.guard = .exiting ∧ t.lle.sync.guardTimer = some (d + 5000) := by
  obtain ⟨y, entered, -, next⟩ := lineGuarded_entered (x := .idle) due showtime idle (by rw [line]; exact nofun)
  obtain ⟨n, lle⟩ := entered.link
  have now : y.now = d := by rw [entered.frame]
  obtain ⟨frame, guard, started⟩ := guard_leaves (s := y) (before := s) (by rw [lle]; exact active)
    (disturbed_idle entered.line)
  refine ⟨_, ?_, ?_, ?_, guard, by rw [started, now]⟩
  · show execOnHookBandHeld s = _
    rw [execOnHookBandHeld, onExpiry_some timer]
    exact next
  · rw [frame, entered.frame]
  · rw [frame]
    exact entered.line

/-- Settles O44: what an IDLE line senses, and how it moves outside SHOWTIME and in it. -/
theorem lineIsSensedAndMoves : Obligations.LineIsSensedAndMoves :=
  ⟨fun _ ready line => idle_senses ready line,
    fun _ _ due away idle => ⟨fun timer line => offHookBand_held due away idle timer line,
      fun timer _ => onHookBand_held due away idle timer, fun timer line => releaseGuard_ends due away idle timer line,
      fun timer line place urgent room => noFeed_expires due away idle timer line place urgent room,
      fun timer line high urgent room => feed_restored due away idle timer line high urgent room⟩,
    fun _ _ due showtime selected idle => ⟨fun timer line =>
        ⟨fun clear force free room plain =>
          parallel_enters due showtime selected idle timer line clear force free room plain,
          fun exiting => parallel_returns due showtime selected idle timer line exiting⟩,
      fun timer line active => parallel_ends due showtime idle timer line active⟩⟩

end Sys2Proof.Proofs.Guards
end

section
/-! What of the part the ports, the calls and the ringing leave as an event settles. -/

set_option Elab.async false

namespace Sys2Proof.Proofs.Settling

open Sys2Proof Sys2Proof.Machine Sys2Proof.Proofs.Steps Sys2Proof.Proofs.Survey

variable {s t u before : State}

/-- A ring plan has been made: notices and frames may have been queued, the ports follow it, and the converter. -/
structure Replans (s t : State) : Prop where
  frame : t = { s with
    ybi := { s.ybi with
      urgent := t.ybi.urgent, call := t.ybi.call, routine := t.ybi.routine, backlogTimer := t.ybi.backlogTimer }
    sup := { s.sup with converter := t.sup.converter }
    vsw := { s.vsw with portA := t.vsw.portA, portB := t.vsw.portB, plan := t.vsw.plan }
    flt := t.flt, ctb := t.ctb }

theorem Replans.refl (s : State) : Replans s s := ⟨rfl⟩

theorem Replans.trans (h : Replans s t) (g : Replans t u) : Replans s u := by
  refine ⟨?_⟩
  have later := g.frame
  rw [h.frame] at later
  exact later

theorem Replans.of_tells (h : Tells s t) : Replans s t := by
  obtain ⟨q, rfl, -⟩ := h
  exact ⟨rfl⟩

theorem Replans.ite {c : Prop} [Decidable c] (h : Replans s t) (g : Replans s u) : Replans s (if c then t else u) := by
  split
  · exact h
  · exact g

theorem Replans.foldl {α : Type} {f : State → α → State} (hf : ∀ s a, Replans s (f s a)) (l : List α) (s : State) :
    Replans s (l.foldl f s) := by
  induction l generalizing s with
  | nil => exact .refl s
  | cons a l ih => exact (hf s a).trans (ih (f s a))

theorem replans_onPort (p : Port) (f : PortRec → PortRec) (s : State) : Replans s (s.onPort p f) := by
  cases p <;> exact ⟨rfl⟩

theorem replans_judgePlan (old : RingPlan) (s : State) : Replans s (s.judgePlan old) :=
  (Replans.of_tells (tells_signalTimes _ _ s)).trans
    (Replans.ite (.of_tells (tells_makeInactive _ _ _)) (.of_tells (tells_raiseUnlessActive _ _ _)))

theorem replans_followPlan (p : Port) (s : State) : Replans s (s.followPlan p) := by
  unfold State.followPlan
  split
  · exact replans_onPort p _ s
  · exact replans_onPort p _ s
  · exact .refl s

theorem replans_demandRing (s : State) : Replans s s.demandRing := ⟨rfl⟩

theorem replans_onPlan (f : Vsw → RingPlan) (s : State) : Replans s (s.onVsw fun v => { v with plan := f v }) := ⟨rfl⟩

theorem replans_planOnce (began : List Episode) (s : State) : Replans s (s.planOnce began) :=
  (((((replans_onPlan (fun _ => s.computePlan) s).trans
    (replans_judgePlan s.vsw.plan _)).trans (replans_followPlan .a _)).trans (replans_followPlan .b _)).trans
    (Replans.foldl (fun s _ => Replans.ite (.of_tells (tells_handCall _ s)) (.refl s)) _ _)).trans
    (replans_demandRing _)

theorem replans_planUntil (n : Nat) (began : List Episode) (s : State) : Replans s (State.planUntil n began s) := by
  induction n generalizing began s with
  | zero => exact replans_planOnce began s
  | succ n ih => exact Replans.ite (replans_planOnce began s) ((replans_planOnce began s).trans (ih [] _))

theorem replans_replan (began : List Episode) (s : State) : Replans s (s.replan began) := replans_planUntil 2 began s

/-- The link, the line and its timers, the survey and the rail are as they were; notices and frames may have been queued,
calls and deferred claims, the ports, the plan and the converter have moved. -/
structure Offline (s t : State) : Prop where
  frame : t = { s with
    ybi := { s.ybi with
      urgent := t.ybi.urgent, call := t.ybi.call, routine := t.ybi.routine, backlogTimer := t.ybi.backlogTimer }
    sup := { s.sup with converter := t.sup.converter }
    vsw := { s.vsw with
      portA := t.vsw.portA, portB := t.vsw.portB, pairSpeech := t.vsw.pairSpeech, pairRinging := t.vsw.pairRinging
      episodes := t.vsw.episodes, plan := t.vsw.plan }
    cct := { s.cct with calls := t.cct.calls, deferred := t.cct.deferred }
    flt := t.flt, ctb := t.ctb }

theorem Offline.refl (s : State) : Offline s s := ⟨rfl⟩

theorem Offline.trans (h : Offline s t) (g : Offline t u) : Offline s u := by
  refine ⟨?_⟩
  have later := g.frame
  rw [h.frame] at later
  exact later

theorem Offline.of_tells (h : Tells s t) : Offline s t := by
  obtain ⟨q, rfl, -⟩ := h
  exact ⟨rfl⟩

theorem Offline.ite {c : Prop} [Decidable c] (h : Offline s t) (g : Offline s u) : Offline s (if c then t else u) := by
  split
  · exact h
  · exact g

theorem Offline.foldl {α : Type} {f : State → α → State} (hf : ∀ s a, Offline s (f s a)) (l : List α) (s : State) :
    Offline s (l.foldl f s) := by
  induction l generalizing s with
  | nil => exact .refl s
  | cons a l ih => exact (hf s a).trans (ih (f s a))

theorem offline_onPort (p : Port) (f : PortRec → PortRec) (s : State) : Offline s (s.onPort p f) := by
  cases p <;> exact ⟨rfl⟩

theorem offline_portOut (s : State) : Offline s s.portOut :=
  ((show Offline s (s.withdrawPortClaim .b) from ⟨rfl⟩).trans (offline_onPort .b _ _)).trans
    ((Offline.of_tells (tells_makeInactive _ _ _)).trans (.of_tells (tells_makeInactive _ _ _)))

theorem offline_servePortB (s : State) : Offline s s.servePortB :=
  Offline.ite (Offline.ite (Offline.ite (.refl s) (offline_portOut s))
    (Offline.ite (offline_onPort .b _ s) (.refl s))) (.refl s)

theorem offline_settlePortB (s before : State) : Offline s (s.settlePortB before) :=
  Offline.ite (.refl s) (offline_servePortB s)

theorem offline_recallWaits (id : Nat) (s : State) : Offline s (s.recallWaits id) := ⟨rfl⟩

theorem offline_settleRecall (s before : State) : Offline s (s.settleRecall before) := by
  unfold State.settleRecall
  split
  · exact .refl s
  · refine Offline.foldl (fun s c => ?_) _ s
    split
    · exact Offline.ite (offline_recallWaits _ s) (.refl s)
    · exact .refl s

theorem Offline.of_replans (h : Replans s t) : Offline s t := by
  obtain ⟨frame⟩ := h
  rw [frame]
  exact ⟨rfl⟩

theorem offline_onEpisodes (g : Vsw → List Episode) (s : State) :
    Offline s (s.onVsw fun v => { v with episodes := g v }) := ⟨rfl⟩

theorem offline_syncEpisodes (s : State) : Offline s s.syncEpisodes.1 :=
  (offline_onEpisodes _ s).trans
    (Offline.foldl (fun (s : State) (e : Episode) => Offline.of_tells (tells_handCall (ringEndFrame e.callId
      ((s.callOf e.callId).any (fun c => decide (c.state = .active)))) s)) _ _)

theorem offline_settleRinging (s before : State) : Offline s (s.settleRinging before) := by
  have synced : Offline s (if s.cct.calls = before.cct.calls then (s, []) else s.syncEpisodes).1 := by
    split
    · exact .refl s
    · exact offline_syncEpisodes s
  exact synced.trans (Offline.ite (Offline.of_replans (replans_replan _ _)) (Offline.ite (.refl _)
    (Offline.ite (.refl _) (Offline.of_replans (replans_demandRing _)))))

theorem offline_settlePair (s before : State) : Offline s (s.settlePair before) :=
  (Offline.ite (.refl s) (show Offline s (s.onVsw fun v => { v with pairSpeech := s.cct.pairCall }) from ⟨rfl⟩)).trans
    (Offline.ite (.refl _) (show Offline _ (State.onVsw (fun v => { v with pairRinging := _ }) _) from ⟨rfl⟩))

/-- The ports, the calls and the ringing settle, and then the guard, the link and the wait of a survey. -/
theorem settle_offline (s before : State) : ∃ x, Offline s x ∧
    x = (((s.settlePortB before).settleRecall before).settleRinging before).settlePair before ∧
    s.settle before = ((x.settleGuard before).settleLink before).settleWait before :=
  ⟨_, (((offline_settlePortB s before).trans (offline_settleRecall _ before)).trans
    (offline_settleRinging _ before)).trans (offline_settlePair _ before), rfl, rfl⟩

end Sys2Proof.Proofs.Settling
end

section
/-! An incoming call rings and is missed (O45): the ringing begins, ends, and the guard follows it. -/

set_option Elab.async false

namespace Sys2Proof.Proofs.Incoming

open Sys2Proof Sys2Proof.Machine Sys2Proof.Proofs.Steps Sys2Proof.Proofs.Telling Sys2Proof.Proofs.Timers
open Sys2Proof.Proofs.Calls Sys2Proof.Proofs.Survey Sys2Proof.Proofs.Phases Sys2Proof.Proofs.Cadences
open Sys2Proof.Proofs.Lines Sys2Proof.Proofs.Guards Sys2Proof.Proofs.Settling Sys2Proof.Proofs.Seconds

variable {s t u before : State} {x : LineState} {d : Nat}

/-! ### What settles while the link is away -/

/-- While the link is not in SHOWTIME and stands, and no survey waits, the ports, the calls and the ringing are all that
settles. -/
theorem settle_away (away : t.lle.link ≠ .showtime) (link : t.linkStill before = true) (idle : t.lth.stage = .none) :
    t.settle before = (((t.settlePortB before).settleRecall before).settleRinging before).settlePair before := by
  obtain ⟨x, offline, same, settled⟩ := settle_offline t before
  have frame := offline.frame
  have lle : x.lle = t.lle := by rw [frame]
  have lth : x.lth = t.lth := by rw [frame]
  have still : x.linkStill before = true := by
    rw [frame]
    exact link
  rw [settled, settleGuard_away (by rw [lle]; exact away), settleLink_same still,
    settleWait_notWaiting (by rw [lth, idle]; nofun) (by rw [lth, idle]; nofun), same]

theorem servePortB_stands (supply : s.sup.supply = .mains) (portB : s.vsw.portB.state ≠ .outOfService) :
    s.servePortB = s := by
  unfold State.servePortB
  simp [supply, portB]

theorem settlePair_follows (s before : State) : ∃ a b, s.settlePair before = s.onVsw fun v =>
    { v with pairSpeech := a, pairRinging := b } := by
  unfold State.settlePair
  dsimp only
  repeat' split
  · exact ⟨s.vsw.pairSpeech, s.vsw.pairRinging, rfl⟩
  · exact ⟨s.vsw.pairSpeech, _, rfl⟩
  · exact ⟨_, s.vsw.pairRinging, rfl⟩
  · exact ⟨_, _, rfl⟩

/-- When an episode has begun or ended with the calls, the plan is made and the pair follows. -/
theorem settle_rung (away : t.lle.link ≠ .showtime) (link : t.linkStill before = true) (idle : t.lth.stage = .none)
    (served : t.servePortB = t) (noneHeld : t.noneHeld) (calls : t.cct.calls ≠ before.cct.calls)
    (due : t.syncEpisodes.1.planDue before t.vsw.episodes = true) :
    ∃ a b, t.settle before = (t.syncEpisodes.1.replan t.syncEpisodes.2).onVsw fun v =>
      { v with pairSpeech := a, pairRinging := b } := by
  have portB : t.settlePortB before = t := by
    unfold State.settlePortB
    split
    · rfl
    · exact served
  have ringing : t.settleRinging before = t.syncEpisodes.1.replan t.syncEpisodes.2 := by
    unfold State.settleRinging
    simp only [if_neg calls, due, ↓reduceIte]
  rw [settle_away away link idle, portB, settleRecall_noHeld noneHeld, ringing]
  exact settlePair_follows _ before

/-! ### A ringing ends with its last episode -/

/-- A port that rings for nobody goes back on the hook (R117). -/
def hooked (now : Nat) (r : PortRec) : PortRec := if r.state = .ringing then PortRec.onHookAt now else r

theorem hooked_hooked (now : Nat) (r : PortRec) : hooked now (hooked now r) = hooked now r := by
  have silent : (PortRec.onHookAt now).state ≠ .ringing := nofun
  by_cases rings : r.state = .ringing
  · simp only [hooked, if_pos rings, if_neg silent]
  · simp only [hooked, if_neg rings]

theorem followPlan_empty (p : Port) (empty : s.vsw.plan = RingPlan.empty) :
    s.followPlan p = s.onPort p (hooked s.now) := by
  have unnamed : (s.vsw.plan.ringsFor (.port p)).isSome = false := by
    rw [empty]
    rfl
  unfold State.followPlan
  split
  · rename_i named
    exact absurd (named.symm.trans unnamed) (by decide)
  · rename_i rings _
    cases p <;> exact congrArg (fun r => State.onPort _ (fun _ => r) s) (if_pos rings).symm
  · rename_i notNamed
    have stays : hooked s.now (s.port p) = s.port p := if_neg fun rings => notNamed rings unnamed
    cases p
    · exact congrArg (fun r => ({ s with vsw := { s.vsw with portA := r } } : State)) stays.symm
    · exact congrArg (fun r => ({ s with vsw := { s.vsw with portB := r } } : State)) stays.symm

/-- What of the part a plan without an episode leaves. -/
structure Unplanned (s t : State) : Prop where
  frame : t = { s with
    ybi := { s.ybi with routine := t.ybi.routine }, flt := t.flt
    sup := { s.sup with converter := t.sup.converter }
    vsw := { s.vsw with
      plan := RingPlan.empty, portA := hooked s.now s.vsw.portA, portB := hooked s.now s.vsw.portB } }

theorem noEpisodes (f : State → Episode → State) (s : State) (none_ : s.vsw.episodes = []) :
    s.vsw.episodes.foldl f s = s := by
  rw [none_]
  rfl

theorem unplanned_planOnce (began : List Episode) (none_ : s.vsw.episodes = []) : Unplanned s (s.planOnce began) := by
  obtain ⟨q, f, told, -⟩ := ringOverload_frame (s.onVsw fun v => { v with plan := RingPlan.empty })
  have judged : State.judgePlan s.vsw.plan (s.onVsw fun v => { v with plan := RingPlan.empty }) =
      (s.onVsw fun v => { v with plan := RingPlan.empty }).makeInactive .ringOverload .pair := rfl
  have done : s.planOnce began = State.demandRing ((State.onPort .b (hooked s.now) (State.onPort .a (hooked s.now)
      ({ s.onVsw (fun v => { v with plan := RingPlan.empty }) with ybi := { s.ybi with routine := q }, flt := f } :
        State)))) := by
    unfold State.planOnce
    simp only [computePlan_silent none_, judged, told]
    rw [followPlan_empty .a rfl, followPlan_empty .b rfl]
    exact congrArg State.demandRing (noEpisodes _ _ none_)
  rw [done]
  exact ⟨rfl⟩

theorem Unplanned.again (h : Unplanned s t) (g : Unplanned t u) : Unplanned s u := by
  refine ⟨?_⟩
  have later := g.frame
  rw [h.frame] at later
  simp only [hooked_hooked] at later
  exact later

theorem unplanned_replan (began : List Episode) (none_ : s.vsw.episodes = []) : Unplanned s (s.replan began) := by
  have until_ (n : Nat) : ∀ (began : List Episode) (s : State), s.vsw.episodes = [] →
      Unplanned s (State.planUntil n began s) := by
    induction n with
    | zero => exact fun began s none_ => unplanned_planOnce began none_
    | succ n ih =>
      intro began s none_
      have once := unplanned_planOnce began none_
      unfold State.planUntil
      dsimp only
      split
      · exact once
      · refine once.again (ih [] _ ?_)
        rw [once.frame]
        exact none_
  exact until_ 2 began s none_

/-! ### The first burst -/

theorem burstBegins_frame (s : State) : ∃ a b, s.burstBegins = s.onVsw fun v =>
    { v with inBurst := true, ringEndTimer := none, burstOnTimer := a, burstOffTimer := b } := ⟨_, _, rfl⟩

theorem ringStart_first (none_ : s.cct.calls = []) : s.ringStart = s.onCct fun c =>
    { c with
      calls := [CallRec.fresh c.nextCallId .outside .incoming .setup []], nextCallId := nextCallId c.nextCallId } := by
  have room : s.tableFull = false := by simp [State.tableFull, none_, Config.callCapacity]
  have id : s.cct.newId = s.cct.nextCallId := by simp [Cct.newId, none_, freeCallId, Config.callCapacity]
  unfold State.ringStart State.addCall
  rw [room, id]
  simp [State.onCct, none_, CallRec.fresh]

theorem syncEpisodes_first {w : Nat × EpisodeKind} (none_ : s.vsw.episodes = []) (wanted : s.cct.episodes = [w]) :
    s.syncEpisodes = (s.onVsw fun v => { v with episodes := [Episode.start s.cfl.record.cadence s.now w] },
      [Episode.start s.cfl.record.cadence s.now w]) := by
  simp [State.syncEpisodes, none_, wanted, State.onVsw]

/-- An incoming call is placed in a table without calls, and rings. -/
theorem settle_ringStart {v : State} (frame : v = { s with
      now := v.now, ybi := v.ybi, vsw := v.vsw, lth := v.lth, flt := v.flt, ctb := v.ctb })
    (away : s.lle.link ≠ .showtime) (idle : v.lth.stage = .none) (none_ : s.cct.calls = []) (supply : s.sup.supply = .mains)
    (portB : v.vsw.portB.state ≠ .outOfService) (silent : v.vsw.episodes = []) :
    ∃ w, v.ringStart.settle s = w ∧ w = { v with
      ybi := w.ybi, sup := w.sup, vsw := w.vsw, cct := w.cct, flt := w.flt, ctb := w.ctb } ∧
      w.vsw = { v.vsw with
        portA := w.vsw.portA, portB := w.vsw.portB, pairSpeech := w.vsw.pairSpeech, pairRinging := w.vsw.pairRinging
        episodes := [Episode.start s.cfl.record.cadence v.now (s.cct.nextCallId, .outside)], plan := w.vsw.plan } ∧
      w.cct = { s.cct with
        calls := [CallRec.fresh s.cct.nextCallId .outside .incoming .setup []]
        nextCallId := nextCallId s.cct.nextCallId } := by
  have started := ringStart_first (s := v) (by rw [frame]; exact none_)
  have wanted : v.ringStart.cct.episodes = [(s.cct.nextCallId, .outside)] := by
    rw [started, frame]
    rfl
  have synced := syncEpisodes_first (s := v.ringStart) (by rw [started]; exact silent) wanted
  have noneHeld : v.ringStart.noneHeld := by
    rw [started]
    intro c mem
    rw [List.mem_singleton.mp mem]
    exact nofun
  obtain ⟨a, b, settled⟩ := settle_rung (t := v.ringStart) (before := s) (by rw [started, frame]; exact away)
    (by rw [started, frame]; simp [State.linkStill]) (by rw [started]; exact idle)
    (servePortB_stands (by rw [started, frame]; exact supply) (by rw [started]; exact portB)) noneHeld
    (by rw [started, none_]; exact List.cons_ne_nil _ _)
    (by rw [synced, started]; simp [State.planDue, silent])
  have record : v.ringStart.cfl = s.cfl := by rw [started, State.onCct_cfl, frame]
  have now : v.ringStart.now = v.now := by rw [started, State.onCct_now]
  have cct : v.ringStart.cct = { s.cct with
      calls := [CallRec.fresh s.cct.nextCallId .outside .incoming .setup []]
      nextCallId := nextCallId s.cct.nextCallId } := by
    rw [started, frame]
    rfl
  rw [synced, record, now] at settled
  generalize Episode.start s.cfl.record.cadence v.now (s.cct.nextCallId, .outside) = e at settled ⊢
  have plan := (replans_replan [e] (v.ringStart.onVsw fun x => { x with episodes := [e] })).frame
  dsimp only at settled
  generalize State.replan [e] (v.ringStart.onVsw fun x => { x with episodes := [e] }) = w at settled plan
  refine ⟨_, settled, ?_, ?_, ?_⟩ <;> rw [plan]
  · rw [started]
    rfl
  · rw [started]
    rfl
  · exact cct

/-- The line enters RING_IN, and its first burst begins. -/
def firstBurst (d : Nat) (s : State) : State := (State.setLine .ringIn { s with now := d }).burstBegins

/-- The first burst of a ringing: RING_IN, with an incoming call in SETUP that rings (R122, R154). -/
theorem ringBurst_begins (due : s.now ≤ d) (away : s.lle.link ≠ .showtime) (idle : s.lth.stage = .none)
    (timer : s.vsw.burstOnTimer = some d) (line : s.vsw.line = .idle) (none_ : s.cct.calls = [])
    (supply : s.sup.supply = .mains) (portB : s.vsw.portB.state ≠ .outOfService) (silent : s.vsw.episodes = []) :
    ∃ t, exec .ringBurstDetected s = .next t ∧
      t = { s with now := t.now, ybi := t.ybi, sup := t.sup, vsw := t.vsw, cct := t.cct, lth := t.lth, flt := t.flt, ctb := t.ctb } ∧
      t.now = d ∧ t.vsw.line = .ringIn ∧ t.vsw.inBurst = true ∧
      t.vsw.ringEndTimer = none ∧
      t.cct = { s.cct with
        calls := [CallRec.fresh s.cct.nextCallId .outside .incoming .setup []]
        nextCallId := nextCallId s.cct.nextCallId } ∧
      t.vsw.episodes.map (fun e => (e.callId, e.kind)) = [(s.cct.nextCallId, .outside)] := by
  have relines := relines_setLine .ringIn { s with now := d }
  obtain ⟨a, b, bursts⟩ := burstBegins_frame (State.setLine .ringIn { s with now := d })
  have entered : firstBurst d s = { s with
      now := d, ybi := (firstBurst d s).ybi, vsw := (firstBurst d s).vsw, lth := (firstBurst d s).lth
      flt := (firstBurst d s).flt, ctb := (firstBurst d s).ctb } := by
    unfold firstBurst
    rw [bursts, relines.frame]
    rfl
  have line' : (firstBurst d s).vsw.line = .ringIn := relines.line
  have survey : (firstBurst d s).lth.stage = .none := by
    show (State.setLine .ringIn { s with now := d }).lth.stage = .none
    rw [relines.survey]
    exact idle
  have now : (firstBurst d s).now = d := by rw [entered]
  obtain ⟨w, settled, frame, vsw, cct⟩ := settle_ringStart (s := s) (v := firstBurst d s)
    (by rw [now]; exact entered) away survey none_ supply
    (by rw [show (firstBurst d s).vsw.portB = s.vsw.portB from relines.portB]; exact portB)
    (relines.episodes.trans silent)
  refine ⟨w, ?_, ?_, ?_, ?_, ?_, ?_, cct, ?_⟩
  · show execRingBurstDetected s = _
    rw [execRingBurstDetected, if_pos (.inl line), onExpiry_some timer, reach_of_le due away]
    have takes : State.takeBurst { s with now := d } = (firstBurst d s).ringStart := by
      have same : ({ s with now := d } : State).vsw.line = .idle := line
      unfold State.takeBurst
      rw [same]
      rfl
    rw [takes]
    exact congrArg _ settled
  · rw [frame, entered]
  · rw [frame, now]
  · rw [vsw, line']
  · rw [vsw]
    rfl
  · rw [vsw]
    rfl
  · rw [vsw]
    rfl

/-! ### The end of a burst -/

theorem ringBurst_ends (due : s.now ≤ d) (away : s.lle.link ≠ .showtime) (idle : s.lth.stage = .none)
    (timer : s.vsw.burstOffTimer = some d) (line : s.vsw.line = .ringIn) :
    ∃ t, exec .ringBurstEnd s = .next t ∧ t = { s with now := t.now, sup := t.sup, vsw := t.vsw } ∧
      t.now = d ∧ t.vsw.inBurst = false ∧ t.vsw.burstOffTimer = none ∧
      t.vsw.ringEndTimer = some (d + 6000) ∧ t.vsw.line = .ringIn := by
  have sensed : ∃ a, State.senseRinging (({ s with now := d } : State).onVsw fun v =>
      { v with inBurst := false, burstOffTimer := none, ringEndTimer := some (d + Config.ringEndMs) }) =
      ({ s with now := d } : State).onVsw fun v =>
        { v with inBurst := false, burstOffTimer := none, ringEndTimer := some (d + 6000), burstOnTimer := a } :=
    ⟨_, rfl⟩
  obtain ⟨a, sensed⟩ := sensed
  obtain ⟨c, p, settled⟩ := settle_lineMoved (before := s) (t := ({ s with now := d } : State).onVsw fun v =>
      { v with inBurst := false, burstOffTimer := none, ringEndTimer := some (d + 6000), burstOnTimer := a })
    ⟨⟨rfl, rfl, rfl, rfl, rfl, rfl, rfl, rfl⟩, away, by simp [State.linkStill],
      by rw [State.onVsw_lth, idle]; exact nofun, by rw [State.onVsw_lth, idle]; exact nofun⟩
  have next : exec .ringBurstEnd s = .next (ringing c p (({ s with now := d } : State).onVsw fun v =>
      { v with inBurst := false, burstOffTimer := none, ringEndTimer := some (d + 6000), burstOnTimer := a })) := by
    show execRingBurstEnd s = _
    rw [execRingBurstEnd, onExpiry_some timer, reach_of_le due away]
    exact congrArg _ ((congrArg (fun t => State.settle t s) sensed).trans settled)
  exact ⟨_, next, rfl, rfl, rfl, rfl, rfl, line⟩

/-! ### The ringing ends -/

theorem ringEnd_removes {c : CallRec} (one : s.cct.calls = [c]) (outside : c.kind = .outside) (incoming : c.origin = .incoming)
    (setup : c.state = .setup) (empty : c.parties = []) (plain : s.ctb.wrapping 17 = []) :
    s.ringEnd = (s.onCct fun t => { t with calls := [] }).onCtb fun b =>
      { b with counters := b.counters.map (Counter.count 17) } := by
  have found : s.incomingCall = some c := by simp [State.incomingCall, one, outside, incoming, setup]
  have gone : s.removeCall c.id = s.onCct fun t => { t with calls := [] } := by
    simp [State.removeCall, callOf_single one, empty, State.onCct, one]
  unfold State.ringEnd
  rw [found]
  dsimp only
  rw [gone]
  exact signal_plain plain

/-- The last episode has ended, and RING_END says so. -/
def silenced (e : Episode) (s : State) : State :=
  (s.onVsw fun v => { v with episodes := [] }).onYbi fun y => { y with call := y.call ++ [ringEndFrame e.callId false] }

theorem syncEpisodes_last {e : Episode} (one : s.vsw.episodes = [e]) (none_ : s.cct.calls = []) (room : s.callRoom) :
    s.syncEpisodes = (silenced e s, []) := by
  have wanted : s.cct.episodes = [] := by simp [Cct.episodes, none_]
  have answered : (s.onVsw fun v => { v with episodes := [] }).callOf e.callId = none := by
    simp [State.callOf, none_]
  have told := handCall_room (s := s.onVsw fun v => { v with episodes := [] }) (f := ringEndFrame e.callId false) room
  have cleared : (s.onVsw fun v => { v with
      episodes := v.episodes.filter (fun x => ([] : List (Nat × EpisodeKind)).contains (x.callId, x.kind)) ++ [] }) =
      s.onVsw fun v => { v with episodes := [] } := by
    simp [State.onVsw, one]
  unfold State.syncEpisodes
  simp only [wanted, one, List.filter_nil, List.map_nil, cleared]
  simp only [List.filter_cons, List.contains_nil, Bool.not_false, List.filter_nil, ↓reduceIte, List.foldl_cons,
    List.foldl_nil, answered, Option.any_none, told]
  rfl

/-- A line that enters a state has neither a burst nor a ring-end timer (R119). -/
theorem relined_unrung (moves : s.vsw.line ≠ x) :
    (relined x s).vsw.inBurst = false ∧ (relined x s).vsw.ringEndTimer = none := by
  unfold relined
  rw [if_neg moves]
  exact ⟨rfl, rfl⟩

/-- What settles when the one call, which rings, has been removed. -/
theorem settle_ringEnd {v : State} {e : Episode} {c : CallRec} (sup : v.sup = s.sup) (lle : v.lle = s.lle)
    (cfl : v.cfl = s.cfl) (away : s.lle.link ≠ .showtime)
    (idle : v.lth.stage = .none) (one : s.cct.calls = [c]) (supply : s.sup.supply = .mains)
    (portB : v.vsw.portB.state ≠ .outOfService) (rings : v.vsw.episodes = [e]) (room : v.callRoom)
    (none_ : v.cct.calls = []) :
    ∃ w, v.settle s = w ∧ w = { v with ybi := w.ybi, sup := w.sup, vsw := w.vsw, flt := w.flt } ∧
      w.vsw = { v.vsw with
        portA := hooked v.now v.vsw.portA, portB := hooked v.now v.vsw.portB, pairSpeech := w.vsw.pairSpeech
        pairRinging := w.vsw.pairRinging, episodes := [], plan := RingPlan.empty } ∧
      w.ybi.call = v.ybi.call ++ [ringEndFrame e.callId false] := by
  have synced := syncEpisodes_last rings none_ room
  obtain ⟨a, b, settled⟩ := settle_rung (t := v) (before := s) (by rw [lle]; exact away)
    (by simp [State.linkStill, lle, sup, cfl]) idle (servePortB_stands (by rw [sup]; exact supply) portB)
    (by rw [State.noneHeld, none_]; simp) (by rw [none_, one]; simp)
    (by rw [synced]; simp [State.planDue, rings, silenced])
  rw [synced] at settled
  have plan := (unplanned_replan (s := silenced e v) [] rfl).frame
  dsimp only at settled
  generalize State.replan [] (silenced e v) = w at settled plan
  refine ⟨_, settled, ?_, ?_, ?_⟩ <;> rw [plan] <;> rfl

/-- 6 s after the last burst an incoming call that nobody answered is gone, and counted (R122, R154). -/
theorem ringing_ends {c : CallRec} {e : Episode} (due : s.now ≤ d) (away : s.lle.link ≠ .showtime)
    (idle : s.lth.stage = .none) (timer : s.vsw.ringEndTimer = some d) (line : s.vsw.line = .ringIn)
    (one : s.cct.calls = [c]) (outside : c.kind = .outside) (incoming : c.origin = .incoming) (setup : c.state = .setup)
    (empty : c.parties = []) (rings : s.vsw.episodes = [e]) (id : e.callId = c.id) (supply : s.sup.supply = .mains)
    (portB : s.vsw.portB.state ≠ .outOfService) (plain : s.ctb.wrapping 17 = []) (room : s.routineRoom)
    (callRoom : s.callRoom) :
    ∃ t, exec .ringEndTimeout s = .next t ∧
      t = { s with now := d, ybi := t.ybi, sup := t.sup, vsw := t.vsw, cct := t.cct, lth := t.lth, flt := t.flt, ctb := t.ctb } ∧
      t.vsw.line = .idle ∧ t.vsw.ringEndTimer = none ∧ t.vsw.inBurst = false ∧ t.vsw.episodes = [] ∧
      t.vsw.plan = RingPlan.empty ∧
      t.vsw.portA = (if s.vsw.portA.state = .ringing then PortRec.onHookAt d else s.vsw.portA) ∧
      t.vsw.portB = (if s.vsw.portB.state = .ringing then PortRec.onHookAt d else s.vsw.portB) ∧
      t.cct = { s.cct with calls := [] } ∧ t.ybi.call = s.ybi.call ++ [ringEndFrame c.id false] ∧
      t.ctb = { s.ctb with counters := s.ctb.counters.map (Counter.count 17) } := by
  have moves : ({ s with now := d } : State).vsw.line ≠ .idle := by
    rw [show ({ s with now := d } : State).vsw.line = .ringIn from line]
    exact nofun
  have told := setLine_room (s := { s with now := d }) moves room
  obtain ⟨silent, stopped⟩ := relined_unrung moves
  have relined' := relined_frame .idle { s with now := d }
  generalize relined .idle { s with now := d } = v at *
  have removed := ringEnd_removes (s := State.setLine .idle { s with now := d }) (c := c)
    (by rw [told, relined']; exact one) outside incoming setup empty (by rw [told, relined']; exact plain)
  rw [told] at removed
  have ended : State.endRinging .idle { s with now := d } =
      ((v.onYbi fun y => { y with routine := y.routine ++ [lineStatusFrame (decide (s.lle.link = .showtime)) .idle] }).onCct
        fun t => { t with calls := [] }).onCtb fun b => { b with counters := b.counters.map (Counter.count 17) } := by
    unfold State.endRinging
    rw [if_pos (by exact line), told]
    exact removed
  obtain ⟨w, settled, frame, vsw, call⟩ := settle_ringEnd (s := s) (c := c) (e := e)
    (v := ((v.onYbi fun y => { y with routine := y.routine ++ [lineStatusFrame (decide (s.lle.link = .showtime)) .idle] }).onCct
        fun t => { t with calls := [] }).onCtb fun b => { b with counters := b.counters.map (Counter.count 17) })
    (by rw [relined']; rfl) (by rw [relined']; rfl) (by rw [relined']; rfl) away (by rw [relined']; exact idle) one supply
    (by rw [relined']; exact portB) (by rw [relined']; exact rings) (by rw [relined']; exact callRoom) rfl
  have now : v.now = d := by rw [relined']
  refine ⟨w, ?_, ?_, ?_, ?_, ?_, ?_, ?_, ?_, ?_, ?_, ?_, ?_⟩
  · show execRingEndTimeout s = _
    rw [execRingEndTimeout, onExpiry_some timer, reach_of_le due away, ended]
    exact congrArg _ settled
  · rw [frame, relined']
    rfl
  · rw [vsw, relined']
    rfl
  · rw [vsw]
    exact stopped
  · rw [vsw]
    exact silent
  · rw [vsw]
  · rw [vsw]
  · rw [vsw, relined']
    rfl
  · rw [vsw, relined']
    rfl
  · rw [frame, relined']
    rfl
  · rw [call, id, relined']
    rfl
  · rw [frame, relined']
    rfl

/-! ### The guard follows the ringing -/

/-- What a part of an event that leaves the line in its state may touch. -/
structure LineStands (s t : State) : Prop where
  frame : t = { s with ybi := t.ybi, vsw := t.vsw, cct := t.cct, flt := t.flt, ctb := t.ctb }
  line : t.vsw.line = s.vsw.line

theorem LineStands.refl (s : State) : LineStands s s := ⟨rfl, rfl⟩

theorem LineStands.trans (h : LineStands s t) (g : LineStands t u) : LineStands s u := by
  refine ⟨?_, g.line.trans h.line⟩
  have later := g.frame
  rw [h.frame] at later
  exact later

theorem LineStands.of_tells (h : Tells s t) : LineStands s t := by
  obtain ⟨q, rfl, -⟩ := h
  exact ⟨rfl, rfl⟩

theorem lineStands_onCct (f : Cct → Cct) (s : State) : LineStands s (s.onCct f) := ⟨rfl, rfl⟩

theorem lineStands_dismiss (id : Nat) (e : Endpoint) (s : State) : LineStands s (s.dismiss id e) := by
  cases e with
  | station n =>
    have cleared : LineStands s (match s.expectation n with
        | some x => if x.callId = id then s.clearExpectation n else s
        | none => s) := by
      split
      · split
        · exact ⟨rfl, rfl⟩
        · exact .refl s
      · exact .refl s
    exact cleared.trans (.of_tells (tells_handCall _ _))
  | port p =>
    have dropped : LineStands s (s.onVsw (Vsw.dropDigits p)) := ⟨rfl, rfl⟩
    refine dropped.trans ?_
    show LineStands _ (ite _ _ _)
    split
    · cases p <;> exact ⟨rfl, rfl⟩
    · exact .refl _

theorem lineStands_removeCall (id : Nat) (s : State) : LineStands s (s.removeCall id) := by
  have dismissed (l : List Party) (s : State) : LineStands s (l.foldl (fun s p => s.dismiss id p.who) s) := by
    induction l generalizing s with
    | nil => exact .refl s
    | cons p l ih => exact (lineStands_dismiss id p.who s).trans (ih _)
  unfold State.removeCall
  split
  · exact .refl s
  · exact (lineStands_onCct _ s).trans (dismissed _ _)

theorem lineStands_ringEnd (s : State) : LineStands s s.ringEnd := by
  unfold State.ringEnd
  split
  · exact .refl s
  · exact (lineStands_removeCall _ s).trans (.of_tells (tells_signal _ _))

theorem lineStands_ringStart (s : State) : LineStands s s.ringStart := by
  unfold State.ringStart
  split
  · exact .of_tells (tells_signal _ _)
  · exact ⟨rfl, rfl⟩

/-- In SHOWTIME the comparator judges a line that has moved, whatever else settles before it. -/
theorem settle_guarded (showtime : t.lle.link = .showtime) (moved : t.vsw.line ≠ before.vsw.line)
    (idle : t.lth.stage = .none) : ∃ y, Offline t y ∧ t.settle before = y.judgeGuard.settleLink before := by
  obtain ⟨y, offline, -, settled⟩ := settle_offline t before
  have lle : y.lle = t.lle := by rw [offline.frame]
  have lth : y.lth = t.lth := by rw [offline.frame]
  have line : y.vsw.line = t.vsw.line := by rw [offline.frame]
  have guarded : y.settleGuard before = y.judgeGuard := if_pos ⟨by rw [lle]; exact showtime, .inl (by rw [line]; exact moved)⟩
  refine ⟨y, offline, ?_⟩
  rw [settled, guarded]
  exact settleWait_idle ((aloof_judgeGuard y).trans (aloof_settleLink _ before)) (by rw [lth]; exact idle)

/-- The part before the comparator judges, after a command by which the line has entered a state. -/
theorem lineStands_judged (due : s.now ≤ d) (showtime : s.lle.link = .showtime) (idle : s.lth.stage = .none)
    (moves : s.vsw.line ≠ x) (stands : LineStands ((s.reach d).setLine x) t) :
    ∃ (y : State) (n : Nat), finish s t = .next (y.judgeGuard.settleLink s) ∧
      y = { s with
        now := d, ybi := y.ybi, sup := y.sup, lle := y.lle, vsw := y.vsw, cct := y.cct, lth := y.lth, flt := y.flt
        ctb := y.ctb } ∧
      y.vsw.line = x ∧ y.lle = { s.lle with sync := { s.lle.sync with symbolCount := n } } := by
  obtain ⟨n, passed⟩ := reach_counts due
  have relines := relines_setLine x (s.reach d)
  rw [passed] at relines
  have frame := stands.frame
  rw [passed, relines.frame] at frame
  have line : t.vsw.line = x := by
    rw [stands.line, passed]
    exact relines.line
  have lth : t.lth.stage = .none := by
    rw [stands.frame, passed, relines.survey]
    exact idle
  obtain ⟨y, offline, settled⟩ := settle_guarded (t := t) (before := s) (by rw [frame]; exact showtime)
    (by rw [line]; exact moves.symm) lth
  refine ⟨y, n, congrArg _ settled, ?_, ?_, ?_⟩
  · rw [offline.frame, frame]
  · rw [offline.frame]
    exact line
  · rw [offline.frame, frame]

theorem disturbed_ringIn (selected : s.cfl.record.guardSelection ≠ .parallel) (line : s.vsw.line = .ringIn) :
    s.disturbed = true := by
  unfold State.disturbed
  cases choice : s.cfl.record.guardSelection with
  | ringIn => simp [line]
  | parallel => exact absurd choice selected
  | both => simp [line]

/-- What the comparator makes of a detector that is set while it is CLEAR. -/
theorem guard_enters (clear : s.lle.sync.guard = .clear) (set : s.disturbed = true) :
    (∃ q, s.judgeGuard.settleLink before = { told q s with
      sup := (s.judgeGuard.settleLink before).sup, lle := (s.judgeGuard.settleLink before).lle }) ∧
    (s.judgeGuard.settleLink before).lle.sync.guard = .active ∧
    (s.judgeGuard.settleLink before).lle.sync.switchRefused = false := by
  obtain ⟨w, gossip⟩ := judgeGuard_enters (K := []) clear set
  obtain ⟨q, judged⟩ := gossip.frame
  obtain ⟨guard, -, refused, -, -, frame⟩ := settleLink_guard s.judgeGuard before
  rw [judged] at guard refused frame ⊢
  exact ⟨⟨q, frame⟩, guard, refused⟩

/-- Settles the second half of O45. -/
theorem ringing_guarded : ∀ (d : Nat) (s : State), s.now ≤ d → s.lle.link = .showtime →
    s.cfl.record.guardSelection ≠ .parallel → s.lth.stage = .none →
    (s.vsw.burstOnTimer = some d → s.vsw.line = .idle → s.lle.sync.guard = .clear →
      ∃ t, exec .ringBurstDetected s = .next t ∧
        t = { s with
          now := d, ybi := t.ybi, sup := t.sup, lle := t.lle, vsw := t.vsw, cct := t.cct, lth := t.lth, flt := t.flt
          ctb := t.ctb } ∧
        t.vsw.line = .ringIn ∧ t.lle.sync.guard = .active ∧ t.lle.sync.switchRefused = false) ∧
    (s.vsw.ringEndTimer = some d → s.vsw.line = .ringIn → s.lle.sync.guard = .active →
      ∃ t, exec .ringEndTimeout s = .next t ∧
        t = { s with
          now := d, ybi := t.ybi, sup := t.sup, lle := t.lle, vsw := t.vsw, cct := t.cct, lth := t.lth, flt := t.flt
          ctb := t.ctb } ∧
        t.vsw.line = .idle ∧ t.lle.sync.guard = .exiting ∧ t.lle.sync.guardTimer = some (d + 5000)) := by
  intro d s due showtime selected idle
  refine ⟨fun timer line clear => ?_, fun timer line active => ?_⟩
  · have bursts : LineStands ((s.reach d).setLine .ringIn) (((s.reach d).setLine .ringIn).burstBegins) := ⟨rfl, rfl⟩
    obtain ⟨y, n, next, frame, entered, lle⟩ := lineStands_judged (x := .ringIn) due showtime idle (by rw [line]; exact nofun)
      (bursts.trans (lineStands_ringStart _))
    have record : y.cfl = s.cfl := by rw [frame]
    obtain ⟨⟨q, judged⟩, guard, refused⟩ := guard_enters (s := y) (before := s) (by rw [lle]; exact clear)
      (disturbed_ringIn (by rw [record]; exact selected) entered)
    refine ⟨_, ?_, ?_, ?_, guard, refused⟩
    · have takes : State.takeBurst (s.reach d) = State.ringStart ((s.reach d).setLine .ringIn).burstBegins := by
        unfold State.takeBurst
        rw [reach_vsw, line]
      show execRingBurstDetected s = _
      rw [execRingBurstDetected, if_pos (.inl line), onExpiry_some timer, takes]
      exact next
    · rw [judged, frame]
      rfl
    · rw [judged]
      exact entered
  · obtain ⟨y, n, next, frame, entered, lle⟩ := lineStands_judged (x := .idle) due showtime idle (by rw [line]; exact nofun)
      (lineStands_ringEnd _)
    have now : y.now = d := by rw [frame]
    obtain ⟨judged, guard, started⟩ := guard_leaves (s := y) (before := s) (by rw [lle]; exact active)
      (disturbed_idle entered)
    refine ⟨_, ?_, ?_, ?_, guard, by rw [started, now]⟩
    · have ends : State.endRinging .idle (s.reach d) = ((s.reach d).setLine .idle).ringEnd := by
        unfold State.endRinging
        rw [reach_vsw, if_pos line]
      show execRingEndTimeout s = _
      rw [execRingEndTimeout, onExpiry_some timer, ends]
      exact next
    · rw [judged, frame]
    · rw [judged]
      exact entered

/-- Settles O45: the ringing outside SHOWTIME, and the guard in it. -/
theorem incomingRingingComesAndGoes : Obligations.IncomingRingingComesAndGoes :=
  ⟨fun _ _ due away idle => ⟨fun timer line none_ supply portB silent =>
        ringBurst_begins due away idle timer line none_ supply portB silent,
      fun timer line => ringBurst_ends due away idle timer line,
      fun _ _ timer line one outside incoming setup empty rings id _ supply portB plain room callRoom =>
        ringing_ends due away idle timer line one outside incoming setup empty rings id supply portB plain room callRoom⟩,
    ringing_guarded⟩

end Sys2Proof.Proofs.Incoming
end

section
/-! A received frame is judged and taken in (O17). -/

set_option Elab.async false

namespace Sys2Proof.Proofs.Frames

open Sys2Proof Sys2Proof.Machine Sys2Proof.Proofs.Steps Sys2Proof.Proofs.Calls

variable {s t u before : State} {low : Nat} {wire : List WireRun} {bytes : List Byte} {bad : Bool} {f : RxFrame}

/-! ### What the receiver reads -/

/-- A part that listens takes in the frames that its receiver reads, one after the other. -/
theorem frameReceived_listens (listens : ∀ c, s.ybi.bus ≠ .sending c) (heard : s.ybi.bus ≠ .aborted) :
    exec (.frameReceived low wire) s = .next ((readWire (afterEdge low wire)).foldl State.hear s) := by
  show execFrameReceived low wire s = _
  unfold execFrameReceived
  split
  · exact absurd ‹_› (listens _)
  · exact absurd ‹_› heard
  · rfl

theorem frameReceived_receiving (bus : s.ybi.bus = .receiving) :
    exec (.frameReceived low wire) s = .next ((readWire (afterEdge low wire)).foldl State.hear s) :=
  frameReceived_listens (by rw [bus]; exact nofun) (by rw [bus]; exact nofun)

/-- Pulses too short for a start bit change nothing. -/
theorem frameReceived_nothing (none_ : readWire (afterEdge low wire) = []) (heard : s.ybi.bus ≠ .aborted) :
    exec (.frameReceived low wire) s = .next s := by
  show execFrameReceived low wire s = _
  unfold execFrameReceived
  split
  · exact finish_undisturbed (.refl s)
  · exact absurd ‹_› heard
  · rw [none_]
    rfl

theorem judgeFrame_nonempty {own : Nat} (valid : judgeFrame own bytes bad = some f) : bytes.isEmpty = false := by
  cases bytes with
  | nil =>
    cases bad <;> simp [judgeFrame] at valid
  | cons b l => rfl

/-- The idle point at which a frame of another station ends. -/
def idled (s : State) : State := s.onYbi fun y => { y with bus := .idle, slot := 0, yielding := false }

/-- In READY a frame of at least one byte is judged at its idle point. -/
theorem frameEnds_judges (bus : s.ybi.bus = .receiving) (ready : s.cfl.state = .ready) (some_ : bytes.isEmpty = false) :
    s.frameEnds bytes bad = (idled s).judge bytes bad false := by
  have idle : s.idlePoint = idled s := by
    unfold State.idlePoint idled State.onYbi
    simp [bus]
  unfold State.frameEnds
  simp only [bus, some_, Bool.false_and, ready, idle]
  rfl

/-! ### The sender's entry -/

theorem placeForEntry_room {l : List PresenceEntry} (room : l.length < 23) : placeForEntry l = some l := if_pos room

theorem refreshSender_known {e : PresenceEntry} {n : Nat} (entry : s.entryOf n = some e) (present : e.present = true) :
    s.refreshSender n none = s.onEntry n fun e => { e with age := 0, present := true } := by
  unfold State.refreshSender
  rw [entry]
  simp [present]

theorem entryOf_address {e : PresenceEntry} {n : Nat} (entry : s.entryOf n = some e) :
    e ∈ s.ybi.presence ∧ e.address = n := by
  refine ⟨List.mem_of_find?_eq_some entry, ?_⟩
  simpa using List.find?_some entry

theorem ringFields_refreshed {l : List PresenceEntry} {n : Nat}
    (present : ∀ x ∈ l, x.address = n → x.present = true) :
    ringFields (l.map fun e => if e.address = n then { e with age := 0, present := true } else e) = ringFields l := by
  unfold ringFields
  rw [List.map_map]
  refine List.map_congr_left fun x mem => ?_
  by_cases own : x.address = n
  · simp [own, present x mem own]
  · simp [own]

theorem find_insertEntry_self {e : PresenceEntry} {l : List PresenceEntry} (absent : ∀ x ∈ l, x.address ≠ e.address) :
    (insertEntry e l).find? (fun x => x.address == e.address) = some e := by
  unfold insertEntry
  have before_ : (l.takeWhile (fun x => decide (x.address < e.address))).find? (fun x => x.address == e.address) = none := by
    rw [List.find?_eq_none]
    intro x mem
    simpa using absent x (List.takeWhile_subset _ mem)
  rw [List.find?_append, before_]
  simp

theorem find_insertEntry_other {e : PresenceEntry} {l : List PresenceEntry} {n : Nat} (other : e.address ≠ n) :
    (insertEntry e l).find? (fun x => x.address == n) = l.find? (fun x => x.address == n) := by
  have whole := congrArg (List.find? fun x : PresenceEntry => x.address == n)
    (List.takeWhile_append_dropWhile (p := fun x : PresenceEntry => decide (x.address < e.address)) (l := l))
  unfold insertEntry
  rw [← whole, List.find?_append, List.find?_append, List.find?_cons_of_neg (by simpa using other)]

theorem mem_insertEntry {e x : PresenceEntry} {l : List PresenceEntry} (mem : x ∈ insertEntry e l) : x = e ∨ x ∈ l := by
  rcases List.mem_append.mp mem with below | above
  · exact .inr (List.takeWhile_subset _ below)
  · rcases List.mem_cons.mp above with own | above
    · exact .inl own
    · exact .inr (List.dropWhile_subset _ above)

theorem length_insertEntry (e : PresenceEntry) (l : List PresenceEntry) : (insertEntry e l).length = l.length + 1 := by
  have whole := congrArg List.length
    (List.takeWhile_append_dropWhile (p := fun x : PresenceEntry => decide (x.address < e.address)) (l := l))
  unfold insertEntry
  rw [List.length_append] at whole ⊢
  rw [List.length_cons]
  omega

/-! ### The clauses of O17 -/

/-- A request to the part, of a station that is known. -/
theorem request_taken {k : Kind} {m : Message} {e : PresenceEntry} (read : readWire (afterEdge low wire) = [(bytes, false)])
    (bus : s.ybi.bus = .receiving) (ready : s.cfl.state = .ready) (valid : judgeFrame s.ybi.ownAddress bytes false = some f)
    (kind : kindOf f.code = some k) (request : k.isRequest = true) (own : s.forPart f.dest = true)
    (message : readMessage k f.body = some m) (room : s.ybi.rxBuffer.length < 4) (entry : s.entryOf f.src = some e)
    (present : ∀ x ∈ s.ybi.presence, x.address = f.src → x.present = true) (noneHeld : s.noneHeld) :
    exec (.frameReceived low wire) s = .next (s.onYbi fun y =>
      { y with
        bus := .idle, slot := 0, yielding := false
        presence := y.presence.map (fun e => if e.address = f.src then { e with age := 0, present := true } else e)
        rxBuffer := y.rxBuffer ++ [{ dest := f.dest, src := f.src, message := m }] }) := by
  obtain ⟨mem, address⟩ := entryOf_address entry
  have plain : k ≠ .presence ∧ k ≠ .lineStatus := by
    constructor <;> rintro rfl <;> exact absurd request (by decide)
  have known := refreshSender_known (s := idled s) (n := f.src) entry (present e mem address)
  have routed (t : State) (own : t.forPart f.dest = true) (room : t.ybi.rxBuffer.length < 4) :
      t.routeFrame f = t.onYbi fun y =>
        { y with rxBuffer := y.rxBuffer ++ [{ dest := f.dest, src := f.src, message := m }] } := by
    have delivered : t.deliver f k = t.onYbi fun y =>
        { y with rxBuffer := y.rxBuffer ++ [{ dest := f.dest, src := f.src, message := m }] } := by
      unfold State.deliver
      rw [message]
      exact if_neg (Nat.not_le.mpr room)
    have taken : t.isDelivered f k = true := by simp [State.isDelivered, own, request]
    unfold State.routeFrame
    rw [kind]
    split
    · contradiction
    · rename_i same
      exact absurd (Option.some.inj same) plain.1
    · rename_i same
      exact absurd (Option.some.inj same) plain.2
    · rename_i k' _ _ same
      rw [← Option.some.inj same, taken]
      exact delivered
  have judged : (idled s).judge bytes false false = ((idled s).onEntry f.src fun e =>
      { e with age := 0, present := true }).onYbi fun y =>
        { y with rxBuffer := y.rxBuffer ++ [{ dest := f.dest, src := f.src, message := m }] } := by
    have same : judgeFrame (idled s).ybi.ownAddress bytes false = some f := valid
    unfold State.judge State.takeValid
    rw [if_neg (by decide), same]
    simp only [kind, Option.some.injEq, if_neg plain.1, if_neg plain.2, known, State.takePresence]
    rw [if_pos (by exact ready)]
    exact routed _ own room
  have elsewhere : Elsewhere s (((idled s).onEntry f.src fun e => { e with age := 0, present := true }).onYbi fun y =>
      { y with rxBuffer := y.rxBuffer ++ [{ dest := f.dest, src := f.src, message := m }] }) :=
    ⟨rfl, rfl, rfl, rfl, by simp [State.linkStill, idled, State.onEntry], noneHeld, .inl (ringFields_refreshed present),
      rfl, rfl, id⟩
  rw [frameReceived_receiving bus, read]
  show Host.Outcome.next ((s.frameEnds bytes false).settle s) = _
  rw [frameEnds_judges bus ready (judgeFrame_nonempty valid), judged]
  exact finish_elsewhere elsewhere

/-- A frame that does not pass the judgement is counted. -/
theorem invalid_counted (read : readWire (afterEdge low wire) = [(bytes, bad)]) (some_ : bytes ≠ [])
    (bus : s.ybi.bus = .receiving) (ready : s.cfl.state = .ready) (invalid : judgeFrame s.ybi.ownAddress bytes bad = none)
    (plain : s.ctb.wrapping 14 = []) :
    exec (.frameReceived low wire) s = .next ((s.onYbi fun y =>
      { y with bus := .idle, slot := 0, yielding := false }).onCtb fun b =>
        { b with counters := b.counters.map (Counter.count 14) }) := by
  have judged : (idled s).judge bytes bad false = (idled s).onCtb fun b =>
      { b with counters := b.counters.map (Counter.count 14) } := by
    have same : judgeFrame (idled s).ybi.ownAddress bytes bad = none := invalid
    unfold State.judge
    rw [if_neg (by decide), same]
    dsimp only
    rw [if_pos (by exact ready)]
    exact signal_plain plain
  rw [frameReceived_receiving bus, read]
  show Host.Outcome.next ((s.frameEnds bytes bad).settle s) = _
  rw [frameEnds_judges bus ready (by simpa using some_), judged]
  exact finish_undisturbed (((Undisturbed.refl s).onYbi rfl).onCtb)

/-- A PRESENCE of a station without an entry gets it one. -/
theorem presence_taken {role : Role} {handset : Bool} {mode : RingMode} {units : Nat}
    (read : readWire (afterEdge low wire) = [(bytes, false)]) (bus : s.ybi.bus = .receiving) (ready : s.cfl.state = .ready)
    (valid : judgeFrame s.ybi.ownAddress bytes false = some f) (kind : kindOf f.code = some .presence)
    (fields : readPresence f.body = some (role, handset, mode, units)) (entry : s.entryOf f.src = none)
    (room : s.ybi.presence.length < 23) (noneHeld : s.noneHeld) (silent : s.vsw.episodes = []) :
    ∃ t, exec (.frameReceived low wire) s = .next t ∧ t = { s with ybi := t.ybi } ∧
      t.ybi = { s.ybi with bus := .idle, slot := 0, yielding := false, presence := t.ybi.presence } ∧
      t.ybi.presence.length = s.ybi.presence.length + 1 ∧
      t.entryOf f.src = some
        { address := f.src, role := role, handset := handset, ringMode := mode, units := units, present := true, age := 0,
          grant := none, lineStatus := none } ∧
      ∀ n, n ≠ f.src → t.entryOf n = s.entryOf n := by
  have absent : ∀ x ∈ s.ybi.presence, x.address ≠ f.src := by
    simpa [State.entryOf, List.find?_eq_none] using entry
  have created : (idled s).refreshSender f.src (some (role, handset, mode, units)) = (idled s).onYbi fun y =>
      { y with presence := insertEntry (PresenceEntry.created f.src (some (role, handset, mode, units))) s.ybi.presence } := by
    have same : (idled s).entryOf f.src = none := entry
    have place : placeForEntry (idled s).ybi.presence = some s.ybi.presence := placeForEntry_room room
    unfold State.refreshSender
    rw [same]
    dsimp only
    rw [place]
  have stands : (insertEntry (PresenceEntry.created f.src (some (role, handset, mode, units))) s.ybi.presence).map (fun e =>
      if e.address = f.src then { e with
        role := role, handset := handset, ringMode := mode, units := units
        lineStatus := if role = .lineUnit then e.lineStatus else none } else e) =
      insertEntry (PresenceEntry.created f.src (some (role, handset, mode, units))) s.ybi.presence := by
    refine (List.map_congr_left fun x mem => ?_).trans (List.map_id _)
    rcases mem_insertEntry mem with rfl | old
    · simp [PresenceEntry.created]
    · rw [if_neg (absent x old)]
      rfl
  have judged : (idled s).judge bytes false false = (idled s).onYbi fun y =>
      { y with presence := insertEntry (PresenceEntry.created f.src (some (role, handset, mode, units))) s.ybi.presence } := by
    have same : judgeFrame (idled s).ybi.ownAddress bytes false = some f := valid
    unfold State.judge State.takeValid
    rw [if_neg (by decide), same]
    have other : ¬ some Kind.presence = some Kind.lineStatus := nofun
    simp only [kind, ↓reduceIte, fields, created, State.takePresence, if_neg other]
    rw [if_pos (by exact ready)]
    unfold State.routeFrame
    rw [kind]
    exact congrArg (fun l => (idled s).onYbi fun y => { y with presence := l }) stands
  have elsewhere : Elsewhere s ((idled s).onYbi fun y =>
      { y with presence := insertEntry (PresenceEntry.created f.src (some (role, handset, mode, units))) s.ybi.presence }) :=
    ⟨rfl, rfl, rfl, rfl, by simp [State.linkStill, idled], noneHeld, .inr silent, rfl, rfl, id⟩
  have next : exec (.frameReceived low wire) s = .next ((idled s).onYbi fun y =>
      { y with presence := insertEntry (PresenceEntry.created f.src (some (role, handset, mode, units))) s.ybi.presence }) := by
    rw [frameReceived_receiving bus, read]
    show Host.Outcome.next ((s.frameEnds bytes false).settle s) = _
    rw [frameEnds_judges bus ready (judgeFrame_nonempty valid), judged]
    exact finish_elsewhere elsewhere
  exact ⟨_, next, rfl, rfl, length_insertEntry _ _, find_insertEntry_self (e := PresenceEntry.created f.src
    (some (role, handset, mode, units))) absent, fun n other => find_insertEntry_other other.symm⟩

/-- Settles O17, by what the receiver reads and the judgement makes of it. -/
theorem framesAreTakenIn : Obligations.FramesAreTakenIn := by
  refine ⟨fun low wire s none_ heard => frameReceived_nothing none_ heard,
    fun low first wire firstWire f g s both one bus => ⟨s.hear f, ?_, ?_⟩,
    fun low wire bytes f k m e s read bus ready valid kind request own message room entry present noneHeld =>
      request_taken read bus ready valid kind request own message room entry present noneHeld,
    fun low wire bytes bad s read some_ bus ready invalid plain =>
      invalid_counted read some_ bus ready invalid plain,
    fun low wire bytes f role handset mode units s read bus ready valid kind fields entry room noneHeld silent =>
      presence_taken read bus ready valid kind fields entry room noneHeld silent⟩
  · rw [frameReceived_receiving bus, one]
    rfl
  · rw [frameReceived_receiving bus, both]
    rfl

end Sys2Proof.Proofs.Frames
end

section
/-! Stations join, retrieve and take (O22): the place a station is let into, and the grant it is told. -/

set_option Elab.async false

namespace Sys2Proof.Proofs.Grants

open Sys2Proof Sys2Proof.Machine Sys2Proof.Proofs.Steps Sys2Proof.Proofs.Requests Sys2Proof.Proofs.Calls

variable {s t before : State}

/-! ### What a grant leaves -/

/-- The entries with a grant of station n to be taken. -/
def awaiting (n : Nat) (x : GrantExpectation) (l : List PresenceEntry) : List PresenceEntry :=
  l.map fun e => if e.address = n then { e with grant := some x } else e

/-- R136: the station is told of its place, and must take it within 2 s. -/
theorem grant_room {n tag id sent : Nat} (room : s.callRoom) :
    s.grant n tag id sent = s.onYbi fun y =>
      { y with
        presence := awaiting n { tag := tag, callId := id, deadline := s.now + 2000 } y.presence
        call := y.call ++ [grantFrame n tag id sent] } := by
  unfold State.grant
  rw [handCall_room (by exact room)]
  rfl

theorem entryOf_present {n : Nat} (present : s.isPresent n = true) : ∃ e, s.entryOf n = some e := by
  obtain ⟨e, mem, there⟩ := List.any_eq_true.1 present
  refine Option.isSome_iff_exists.1 (List.find?_isSome.2 ⟨e, mem, ?_⟩)
  exact (Bool.and_eq_true _ _ ▸ there).1

theorem expectation_awaiting {n : Nat} {x : GrantExpectation} (present : s.isPresent n = true)
    (h : t.ybi.presence = awaiting n x s.ybi.presence) : t.expectation n = some x := by
  obtain ⟨e, found⟩ := entryOf_present present
  have same : t.entryOf n = (s.onEntry n fun e => { e with grant := some x }).entryOf n :=
    congrArg (List.find? fun e : PresenceEntry => e.address == n) h
  rw [State.expectation, same, entryOf_onEntry (g := fun e => { e with grant := some x }) (fun _ => rfl) found]
  rfl

/-! ### Who is not busy (R134) -/

/-- A station that awaits no grant, is in no live call and is not rung, with the pair free: not busy. -/
theorem busy_free {n : Nat} {besides : Option Nat} (apart : s.liveCallOf (.station n) = none)
    (free : s.expectation n = none) (unrung : ∀ c ∈ s.cct.calls, c.rung = some (.station n) → some c.id = besides)
    (open_ : ∀ c, s.cct.pairCall.bind (fun id => s.callOf id) = some c → c.rung = some (.station n) ∨ c.hasParty (.station n)) :
    s.busy besides (.station n) = false := by
  have elsewhere : s.rungElsewhere besides (.station n) = false := by
    rw [State.rungElsewhere, List.any_eq_false]
    intro c mem
    by_cases rung : c.rung = some (.station n)
    · simp [unrung c mem rung]
    · simp [rung]
  have bars : s.pairBars n = false := by
    unfold State.pairBars
    cases pair : s.cct.pairCall.bind (fun id => s.callOf id) with
    | none => cases s.entryOf n <;> rfl
    | some c =>
      cases s.entryOf n with
      | none => rfl
      | some e => rcases open_ c pair with rung | party <;> simp [*]
  simp [State.busy, apart, free, elsewhere, bars]

theorem unclaimed_free {n : Nat} (h : s.unclaimed n = true) : s.expectation n = none := by
  rw [State.unclaimed, Bool.and_eq_true] at h
  simpa using h.1

/-! ### The parties of the one call change -/

/-- Only what the call table says of the one call has changed, beside the bus. -/
theorem callsMoved_one {c x : CallRec} {y : Ybi} (calm : before.calm) (one : before.cct.calls = [c]) (active : x.state = .active)
    (changed : c ≠ x) (h : t = { before with ybi := y, cct := { before.cct with calls := [x] } }) : CallsMoved before t := by
  obtain ⟨-, silent, -, -, idle⟩ := calm
  have quiet : x.episode = none := by simp [CallRec.episode, active]
  rw [h]
  refine ⟨rfl, rfl, rfl, rfl, rfl, silent, ?_, ?_, idle, ?_⟩
  · simp [Cct.episodes, quiet]
  · simp [active]
  · show [x] ≠ before.cct.calls
    rw [one]
    simpa using changed.symm

theorem pairCall_active {x : CallRec} {k : Cct} {n : Nat} (one : k.calls = [x]) (active : x.state = .active)
    (party : x.hasParty (.station n) = true) : k.pairCall = some x.id := by
  have station : x.parties.any (fun p => p.who.isStation) = true := by
    obtain ⟨p, mem, who⟩ := List.any_eq_true.1 party
    exact List.any_eq_true.2 ⟨p, mem, by rw [of_decide_eq_true who]; rfl⟩
  simp [Cct.pairCall, one, CallRec.usesPair, CallRec.isLive, active, station]

/-- The one call stands ACTIVE with a station among its parties: the pair carries it. -/
theorem finish_party {c x : CallRec} {y : Ybi} {n : Nat} (calm : before.calm) (one : before.cct.calls = [c])
    (active : x.state = .active) (changed : c ≠ x) (party : x.hasParty (.station n) = true)
    (h : t = { before with ybi := y, cct := { before.cct with calls := [x] } }) :
    finish before t = .next { before with
      ybi := y, cct := { before.cct with calls := [x] }, vsw := { before.vsw with pairSpeech := some x.id } } := by
  rw [finish_calls calm (callsMoved_one calm one active changed h), h]
  have pair := pairCall_active (k := { before.cct with calls := [x] }) rfl active party
  simp only [State.onVsw, pair]

/-! ### The tests of a station that asks for a place in the one call -/

section single
variable {c : CallRec} {p : Party}

theorem hasParty_single {e : Endpoint} (party : c.parties = [p]) (other : p.who ≠ e) : c.hasParty e = false := by
  simp [CallRec.hasParty, party, other]

/-- The one call has a port as its one party: it does not use the pair. -/
theorem pairCall_port {q : Port} (one : s.cct.calls = [c]) (outside : c.kind = .outside) (party : c.parties = [p])
    (who : p.who = .port q) : s.cct.pairCall = none := by
  simp [Cct.pairCall, one, CallRec.usesPair, party, who, Endpoint.isStation, outside]

theorem joinTest_port {n tag : Nat} {q : Port} (one : s.cct.calls = [c]) (outside : c.kind = .outside)
    (party : c.parties = [p]) (who : p.who = .port q) (active : c.state = .active) (unrung : c.rung = none)
    (allowed : s.cfl.record.joinAllowed = true) (free : s.expectation n = none) (present : s.isPresent n = true) :
    s.joinTest (.station n tag .join) c = none := by
  have apart : s.liveCallOf (.station n) = none := by
    simp [State.liveCallOf, one, hasParty_single party (by simp [who] : p.who ≠ .station n)]
  have idle : s.busy (some c.id) (.station n) = false :=
    busy_free apart free (by simp [one, unrung]) (by simp [pairCall_port one outside party who])
  simp [State.joinTest, allowed, active, State.claimantBusy, idle, Config.partyLimit, party, State.pairBusyFor,
    State.pairElsewhere, pairCall_port one outside party who, State.notReadyFor, present]

theorem join_decided {n tag a : Nat} {q : Port} (one : s.cct.calls = [c]) (outside : c.kind = .outside)
    (party : c.parties = [p]) (who : p.who = .port q) (active : c.state = .active) (unrung : c.rung = none)
    (allowed : s.cfl.record.joinAllowed = true) (free : s.expectation n = none) (present : s.isPresent n = true)
    (named : a = 0 ∨ a = c.id) :
    s.decideJoin (.station n tag .join) a = s.grantJoin (.station n tag .join) c.id := by
  have found : (if a = 0 then
      s.cct.calls.find? (fun r => decide (r.kind = .outside) && decide (r.state = .active)) else s.callOf a) = some c := by
    split
    · simp [one, outside, active]
    · rcases named with zero | own
      · contradiction
      · rw [own, callOf_single one]
  unfold State.decideJoin
  dsimp only
  rw [found]
  simp [State.joinCall, active, joinTest_port one outside party who active unrung allowed free present]

theorem retrieveTest_owner {n : Nat} {k : Hold} (one : s.cct.calls = [c]) (party : c.parties = [p])
    (who : p.who = .station n) (held : c.state = .held) (hold : c.hold = some k) (unrung : c.rung = none)
    (free : s.expectation n = none) (present : s.isPresent n = true) : s.retrieveTest n k.token c = none := by
  have dead : c.isLive = false := by simp [CallRec.isLive, held]
  have unpaired : s.cct.pairCall = none := by simp [Cct.pairCall, one, CallRec.usesPair, dead]
  have idle : s.busy (some c.id) (.station n) = false :=
    busy_free (by simp [State.liveCallOf, one, dead]) free (by simp [one, unrung]) (by simp [unpaired])
  have owner : c.owner = some (.station n) := by simp [CallRec.owner, party, who]
  simp [State.retrieveTest, held, hold, owner, idle, State.pairElsewhere, unpaired, present]

end single

/-! ### The three requests -/

theorem station_joins {tag a : Nat} {d : Delivered} {rest : List Delivered} {c : CallRec} {p : Party} (calm : s.calm)
    (head : s.heads d rest) (room : s.callRoom) (tagged : tag ≠ 0) (one : s.cct.calls = [c]) (outside : c.kind = .outside)
    (party : c.parties = [p]) (present : s.isPresent d.src = true) (m : d.message = .claim tag .join a)
    (named : a = 0 ∨ a = c.id) (active : c.state = .active) (who : p.who = .port .a)
    (allowed : s.cfl.record.joinAllowed = true) (unrung : c.rung = none) :
    exec .claimJoin s = .next { s with
      ybi := { s.ybi with
        rxBuffer := rest
        presence := awaiting d.src { tag := tag, callId := c.id, deadline := s.now + 2000 } s.ybi.presence
        call := s.ybi.call ++ [grantFrame d.src tag c.id 5] }
      cct := { s.cct with calls := [{ c with parties := [p, { who := .station d.src, mark := .awaitingTake }] }] }
      vsw := { s.vsw with pairSpeech := some c.id } } := by
  have one' : (s.taken rest).cct.calls = [c] := one
  have joined : s.serve (isClaim .join) (fun d s =>
      s.withTag d (State.decideJoin (.station d.src d.message.tag .join) d.message.argument)) =
      { s with
        ybi := { s.ybi with
          rxBuffer := rest
          presence := awaiting d.src { tag := tag, callId := c.id, deadline := s.now + 2000 } s.ybi.presence
          call := s.ybi.call ++ [grantFrame d.src tag c.id 5] }
        cct := { s.cct with calls := [{ c with parties := [p, { who := .station d.src, mark := .awaitingTake }] }] } } := by
    rw [serve_heads head (by simp [isClaim, m])]
    simp only [State.withTag, m, Message.tag, tagged, if_false, Message.argument]
    rw [join_decided one' outside party who active unrung allowed (unclaimed_free head.2) present named]
    unfold State.grantJoin State.letIn
    dsimp only
    rw [onCall_single one', grant_room (by exact room), party]
    simp [Claimant.party]
    rfl
  have changed : c ≠ { c with parties := [p, { who := .station d.src, mark := .awaitingTake }] } := by
    intro same
    have := (congrArg CallRec.parties same).symm.trans party
    simp at this
  show execClaimJoin s = _
  rw [execClaimJoin]
  exact finish_party (n := d.src) calm one (by exact active) changed (by simp [CallRec.hasParty]) joined

/-- The HELD call a station has retrieved and must still take, with what it keeps of the hold. -/
abbrev retrievedOf (c : CallRec) (k : Hold) (n now : Nat) : CallRec :=
  { c with
    state := .active, parties := [{ who := .station n, mark := .awaitingTake }], hold := none
    saved := some { hold := { k with age := k.age + (now - k.ageAt) }, holder := .station n } }

theorem station_retrieves {tag : Nat} {d : Delivered} {rest : List Delivered} {c : CallRec} {p : Party} {k : Hold}
    (calm : s.calm) (head : s.heads d rest) (room : s.callRoom) (tagged : tag ≠ 0) (one : s.cct.calls = [c])
    (party : c.parties = [p]) (present : s.isPresent d.src = true) (m : d.message = .retrieve tag c.id k.token)
    (held : c.state = .held) (hold : c.hold = some k) (who : p.who = .station d.src) (unrung : c.rung = none) :
    exec .retrieve s = .next { s with
      ybi := { s.ybi with
        rxBuffer := rest
        presence := awaiting d.src { tag := tag, callId := c.id, deadline := s.now + 2000 } s.ybi.presence
        call := s.ybi.call ++ [grantFrame d.src tag c.id 0] }
      cct := { s.cct with calls := [retrievedOf c k d.src s.now] }
      vsw := { s.vsw with pairSpeech := some c.id } } := by
  have one' : (s.taken rest).cct.calls = [c] := one
  have owner : c.owner = some (.station d.src) := by simp [CallRec.owner, party, who]
  have kept : { retrievedOf c k d.src s.now with rung := none } = retrievedOf c k d.src s.now := by
    rw [← unrung]
  have retrieved : s.serve isRetrieve (fun d s =>
      s.withTag d (State.decideRetrieve d.src d.message.tag d.message.callId d.message.token)) =
      { s with
        ybi := { s.ybi with
          rxBuffer := rest
          presence := awaiting d.src { tag := tag, callId := c.id, deadline := s.now + 2000 } s.ybi.presence
          call := s.ybi.call ++ [grantFrame d.src tag c.id 0] }
        cct := { s.cct with calls := [retrievedOf c k d.src s.now] } } := by
    rw [serve_heads head (by simp [isRetrieve, m])]
    simp only [State.withTag, m, Message.tag, tagged, if_false, Message.callId, Message.token]
    unfold State.decideRetrieve
    rw [callOf_single one']
    simp only [held, retrieveTest_owner one' party who held hold unrung (unclaimed_free head.2) present]
    unfold State.grantRetrieve
    simp only [hold, owner]
    rw [onCall_single one', grant_room (by exact room), ← kept]
    rfl
  have changed : c ≠ retrievedOf c k d.src s.now := by
    intro same
    have := (congrArg CallRec.state same).symm.trans held
    simp at this
  show execRetrieve s = _
  rw [execRetrieve]
  exact finish_party (n := d.src) calm one rfl changed (by simp [CallRec.hasParty]) retrieved

theorem station_takes {d : Delivered} {rest : List Delivered} {c : CallRec} {x : GrantExpectation} (calm : s.calm)
    (head : s.ybi.rxBuffer = d :: rest) (m : d.message = .take x.tag) (own : s.forPart d.dest = true)
    (expected : s.expectation d.src = some x) (undeferred : s.cct.deferred = []) (one : s.cct.calls = [c])
    (id : c.id = x.callId) (outside : c.kind = .outside) (active : c.state = .active)
    (party : c.parties = [{ who := .station d.src, mark := .awaitingTake }]) :
    exec .take s = .next { s with
      ybi := { s.ybi with
        rxBuffer := rest
        presence := s.ybi.presence.map (fun e => if e.address = d.src then { e with grant := none } else e) }
      cct := { s.cct with
        calls :=
          [{ c with parties := [{ who := .station d.src, mark := .connected }], everConnected := true, saved := none }] }
      vsw := { s.vsw with pairSpeech := some c.id } } := by
  have owner : c.owner = some (.station d.src) := by simp [CallRec.owner, party]
  have popped : (s.popRequest).dropDeferred d.src = s.taken rest := by
    rw [dropDeferred_none (by simp [State.popRequest, undeferred])]
    simp [State.popRequest, State.taken, State.onYbi, head]
  have taken : s.takeUp d =
      { s with
        ybi := { s.ybi with
          rxBuffer := rest
          presence := s.ybi.presence.map (fun e => if e.address = d.src then { e with grant := none } else e) }
        cct := { s.cct with
          calls := [{ c with
            parties := [{ who := .station d.src, mark := .connected }], everConnected := true, saved := none }] } } := by
    have expected' : (s.taken rest).expectation d.src = some x := expected
    have one' : ((s.taken rest).clearExpectation d.src).cct.calls = [c] := one
    unfold State.takeUp
    simp only [popped, expected', m, Message.tag, if_true]
    unfold State.connectStation
    simp only [← id, onCall_single one']
    rw [callOf_single (c := { c with
      parties := [{ who := .station d.src, mark := .connected }], everConnected := true, saved := none })
      (by simp [State.onCct, party, owner])]
    simp only [outside, party, owner, List.map_cons, List.map_nil, if_true]
    rfl
  have changed : c ≠ { c with
      parties := [{ who := .station d.src, mark := .connected }], everConnected := true, saved := none } := by
    intro same
    have := (congrArg CallRec.parties same).symm.trans party
    simp at this
  show execTake s = _
  rw [execTake]
  simp only [State.requestFor, head, isTake, m, own]
  exact finish_party (n := d.src) calm one (by exact active) changed (by simp [CallRec.hasParty]) taken

/-- Settles O22: each request leaves the station in the one call, and the pair carries it. -/
theorem stationsJoinRetrieveAndTake : Obligations.StationsJoinRetrieveAndTake := by
  refine ⟨fun tag a d rest c p s calm head room tagged one outside party present => ⟨fun m named active who allowed unrung => ?_,
    fun k m held hold who unrung => ?_⟩, fun d rest c x s calm head m own expected undeferred one id outside active party =>
      ⟨_, station_takes calm head m own expected undeferred one id outside active party, rfl, rfl, rfl, rfl⟩⟩
  · exact ⟨_, station_joins calm head room tagged one outside party present m named active who allowed unrung, rfl, rfl, rfl,
      expectation_awaiting present rfl, rfl, rfl⟩
  · exact ⟨_, station_retrieves calm head room tagged one party present m held hold who unrung, rfl, rfl, rfl,
      expectation_awaiting present rfl, rfl, rfl⟩

end Sys2Proof.Proofs.Grants
end

section
/-! Claims that are answered (O20, O21): what settles when the call table has changed, whatever rings then. -/

set_option Elab.async false

namespace Sys2Proof.Proofs.Answers

open Sys2Proof Sys2Proof.Machine Sys2Proof.Proofs.Steps Sys2Proof.Proofs.Telling Sys2Proof.Proofs.Requests
open Sys2Proof.Proofs.Timers Sys2Proof.Proofs.Calls Sys2Proof.Proofs.Settling Sys2Proof.Proofs.Incoming
open Sys2Proof.Proofs.Grants Sys2Proof.Proofs.Phases

variable {s t u before : State}

/-! ### The CALL queue grows -/

/-- The frames in the CALL queue stay, and others may follow them. -/
def Grows (s t : State) : Prop := s.ybi.call <+: t.ybi.call

theorem Grows.refl (s : State) : Grows s s := List.prefix_rfl

theorem Grows.trans (h : Grows s t) (g : Grows t u) : Grows s u := List.IsPrefix.trans h g

theorem Grows.of_same (h : t.ybi.call = s.ybi.call) : Grows s t := by
  unfold Grows
  rw [h]

theorem Grows.ite {c : Prop} [Decidable c] (h : Grows s t) (g : Grows s u) : Grows s (if c then t else u) := by
  split
  · exact h
  · exact g

theorem Grows.foldl {α : Type} {f : State → α → State} (hf : ∀ s a, Grows s (f s a)) (l : List α) (s : State) :
    Grows s (l.foldl f s) := by
  induction l generalizing s with
  | nil => exact .refl s
  | cons a l ih => exact (hf s a).trans (ih (f s a))

theorem Grows.of_mutters (h : Mutters s t) : Grows s t := by
  refine .of_same ?_
  rw [h.frame]
  rfl

theorem grows_handCall (f : TxFrame) (s : State) : Grows s (s.handCall f) :=
  Grows.ite (.refl s) (Grows.ite (List.prefix_append _ _) (.of_mutters (mutters_frameDropped s)))

theorem grows_makeInactive {c : FaultCode} (low : c.severity ≠ .out) (x : FaultSource) (s : State) :
    Grows s (s.makeInactive c x) := by
  obtain ⟨q, o, told⟩ := makeInactive_routine low x s
  exact .of_same (by rw [told])

theorem grows_raiseUnlessActive {c : FaultCode} (low : c.severity ≠ .out) (x : FaultSource) (s : State) :
    Grows s (s.raiseUnlessActive c x) := by
  obtain ⟨q, o, told⟩ := raise_routine low x s
  exact Grows.ite (.refl s) (.of_same (by rw [told]))

theorem grows_signalTimes (n : Nat) (e : Event) (s : State) : Grows s (s.signalTimes n e) := by
  induction n generalizing s with
  | zero => exact .refl s
  | succ n ih => exact (Grows.of_mutters (mutters_signal e s)).trans (ih _)

theorem grows_followPlan (p : Port) (s : State) : Grows s (s.followPlan p) := by
  have stands (q : Port) (f : PortRec → PortRec) : Grows s (s.onPort q f) := by cases q <;> exact .refl s
  unfold State.followPlan
  split
  · exact stands _ _
  · exact stands _ _
  · exact .refl s

theorem grows_onVsw (f : Vsw → Vsw) (s : State) : Grows s (s.onVsw f) := .refl s

theorem grows_onSup (f : Sup → Sup) (s : State) : Grows s (s.onSup f) := .refl s

theorem grows_judgePlan (old : RingPlan) (s : State) : Grows s (s.judgePlan old) :=
  (grows_signalTimes _ _ s).trans
    (Grows.ite (grows_makeInactive (by decide) _ _) (grows_raiseUnlessActive (by decide) _ _))

theorem grows_planOnce (began : List Episode) (s : State) : Grows s (s.planOnce began) :=
  (((((grows_onVsw _ s).trans (grows_judgePlan s.vsw.plan _)).trans
    (grows_followPlan .a _)).trans (grows_followPlan .b _)).trans
    (Grows.foldl (fun s _ => Grows.ite (grows_handCall _ s) (.refl s)) _ _)).trans (grows_onSup _ _)

theorem grows_replan (began : List Episode) (s : State) : Grows s (s.replan began) := by
  have until_ (n : Nat) (began : List Episode) (s : State) : Grows s (State.planUntil n began s) := by
    induction n generalizing began s with
    | zero => exact grows_planOnce began s
    | succ n ih => exact Grows.ite (grows_planOnce began s) ((grows_planOnce began s).trans (ih [] _))
  exact until_ 2 began s

theorem grows_syncEpisodes (s : State) : Grows s s.syncEpisodes.1 :=
  (grows_onVsw _ s).trans (Grows.foldl (fun _ _ => grows_handCall _ _) _ _)

theorem grows_settleRinging (s before : State) : Grows s (s.settleRinging before) := by
  have synced : Grows s (if s.cct.calls = before.cct.calls then (s, []) else s.syncEpisodes).1 := by
    split
    · exact .refl s
    · exact grows_syncEpisodes s
  exact synced.trans (Grows.ite (grows_replan _ _) (Grows.ite (.refl _) (Grows.ite (.refl _) (grows_onSup _ _))))

/-! ### The calls have changed -/

/-- The episodes as the call table calls for them (section 6.4). -/
def followed (s : State) : List Episode := s.syncEpisodes.1.vsw.episodes

/-- Ringing has followed the calls: frames and notices may have been queued, and the episodes are those of the calls. -/
structure Rings (s t : State) : Prop where
  frame : t = { s with
    ybi := { s.ybi with
      urgent := t.ybi.urgent, call := t.ybi.call, routine := t.ybi.routine, backlogTimer := t.ybi.backlogTimer }
    sup := { s.sup with converter := t.sup.converter }
    vsw := { s.vsw with
      portA := t.vsw.portA, portB := t.vsw.portB, plan := t.vsw.plan, episodes := followed s
      pairSpeech := t.vsw.pairSpeech, pairRinging := t.vsw.pairRinging }
    flt := t.flt, ctb := t.ctb }
  pair : t.vsw.pairSpeech = s.cct.pairCall
  call : s.ybi.call <+: t.ybi.call

theorem syncEpisodes_rings (s : State) : ∃ y : Told, s.syncEpisodes.1 = { s with
    ybi := { s.ybi with urgent := y.urgent, call := y.call, routine := y.routine, backlogTimer := y.backlog }
    vsw := { s.vsw with episodes := followed s }, flt := y.flt, ctb := y.ctb } := by
  have told : ∃ l, Tells (s.onVsw fun v => { v with episodes := l }) s.syncEpisodes.1 :=
    ⟨_, Tells.foldl (fun _ _ => tells_handCall _ _) _ _⟩
  obtain ⟨l, q, same, -⟩ := told
  refine ⟨q, ?_⟩
  have episodes : followed s = l := by rw [followed, same]; rfl
  rw [episodes, same]
  rfl

theorem settleRinging_rings (calls : s.cct.calls ≠ before.cct.calls) : ∃ c, Replans s.syncEpisodes.1 c ∧
    s.settleRinging before = c := by
  unfold State.settleRinging
  simp only [if_neg calls]
  split
  · exact ⟨_, replans_replan _ _, rfl⟩
  · split
    · exact ⟨_, .refl _, rfl⟩
    · split
      · exact ⟨_, .refl _, rfl⟩
      · exact ⟨_, replans_demandRing _, rfl⟩

theorem settlePair_calls (calls : s.cct.calls ≠ before.cct.calls) : ∃ b, s.settlePair before = s.onVsw fun v =>
    { v with pairSpeech := s.cct.pairCall, pairRinging := b } := by
  unfold State.settlePair
  simp only [if_neg calls]
  split
  · exact ⟨s.vsw.pairRinging, rfl⟩
  · exact ⟨_, rfl⟩

/-- What settles of a change of the calls while the link is away and no survey waits. -/
theorem settle_rings (away : t.lle.link ≠ .showtime) (link : t.linkStill before = true) (idle : t.lth.stage = .none)
    (served : t.servePortB = t) (goesOn : t.settleRecall before = t) (calls : t.cct.calls ≠ before.cct.calls) :
    Rings t (t.settle before) := by
  have portB : t.settlePortB before = t := by
    unfold State.settlePortB
    split
    · rfl
    · exact served
  obtain ⟨c, replans, ringing⟩ := settleRinging_rings calls
  have grown := grows_settleRinging t before
  obtain ⟨y, synced⟩ := syncEpisodes_rings t
  have plan := replans.frame
  rw [settle_away away link idle, portB, goesOn, ringing]
  rw [ringing] at grown
  rw [synced] at plan
  have cct : c.cct = t.cct := by rw [plan]
  obtain ⟨b, paired⟩ := settlePair_calls (s := c) (before := before) (by rw [cct]; exact calls)
  rw [paired, cct]
  refine ⟨?_, rfl, grown⟩
  conv_lhs => rw [plan]
  rfl

theorem followed_none (wanted : s.cct.episodes = []) : followed s = [] := by
  have told : ∃ l, l = [] ∧ Tells (s.onVsw fun v => { v with episodes := l }) s.syncEpisodes.1 :=
    ⟨_, by simp [wanted], Tells.foldl (fun _ _ => tells_handCall _ _) _ _⟩
  obtain ⟨l, rfl, q, same, -⟩ := told
  rw [followed, same]
  rfl

theorem followed_first {w : Nat × EpisodeKind} (none_ : s.vsw.episodes = []) (wanted : s.cct.episodes = [w]) :
    followed s = [Episode.start s.cfl.record.cadence s.now w] := by
  rw [followed, syncEpisodes_first none_ wanted]
  rfl

/-! ### A station answers the incoming call (R141) -/

/-- The incoming call, owned by a station that must still take it. -/
abbrev answeredOf (c : CallRec) (n : Nat) : CallRec :=
  { c with state := .active, parties := [{ who := .station n, mark := .awaitingTake }] }

section answer
variable {c : CallRec} {n tag : Nat} {k : ClaimKind}

theorem answerTest_station (one : s.cct.calls = [c]) (outside : c.kind = .outside) (empty : c.parties = [])
    (unrung : c.rung = none) (free : s.expectation n = none) (present : s.isPresent n = true) :
    s.answerTest (.station n tag k) c.id = none := by
  have unpaired : s.cct.pairCall = none := by simp [Cct.pairCall, one, CallRec.usesPair, empty, outside]
  have idle : s.busy (some c.id) (.station n) = false :=
    busy_free (by simp [State.liveCallOf, one, CallRec.hasParty, empty]) free (by simp [one, unrung]) (by simp [unpaired])
  simp [State.answerTest, State.claimantBusy, idle, State.pairBusyFor, State.pairElsewhere, unpaired, State.notReadyFor,
    present]

/-- The state in which the call is answered, and its line SEIZED. -/
def answered (c : CallRec) (n : Nat) (s : State) : State :=
  (s.onCct fun x => { x with calls := [answeredOf c n] }).setLine .seized

theorem relines_answered (c : CallRec) (n : Nat) (s : State) :
    Relines .seized (s.onCct fun x => { x with calls := [answeredOf c n] }) (answered c n s) := relines_setLine _ _

theorem answerIncoming_station (one : s.cct.calls = [c]) (outside : c.kind = .outside) (empty : c.parties = [])
    (unrung : c.rung = none) (free : s.expectation n = none) (present : s.isPresent n = true) (room : s.callRoom) :
    s.answerIncoming (.station n tag k) c.id = (answered c n s).onYbi fun y =>
      { y with
        presence := awaiting n { tag := tag, callId := c.id, deadline := s.now + 2000 } y.presence
        call := y.call ++ [grantFrame n tag c.id k.code] } := by
  have frame := (relines_answered c n s).frame
  have room' : (answered c n s).callRoom := by
    rw [frame]
    exact room
  have now : (answered c n s).now = s.now := by rw [frame]; rfl
  unfold State.answerIncoming
  rw [answerTest_station one outside empty unrung free present]
  show (State.setLine .seized (s.onCall c.id _)).grant n tag c.id k.code = _
  rw [onCall_single one]
  have same : ({ c with
      state := .active, parties := [(Claimant.station n tag k).party]
      everConnected := c.everConnected || decide ((Claimant.station n tag k).party.mark = .connected) } : CallRec) =
      answeredOf c n := by simp [Claimant.party]
  rw [same]
  exact (grant_room room').trans (by rw [now])

/-- What an ANSWER of the incoming call leaves, once all has settled. -/
theorem answer_settles {rest : List Delivered} (away : s.lle.link ≠ .showtime) (supply : s.sup.supply = .mains)
    (portB : s.vsw.portB.state ≠ .outOfService) (idle : s.lth.stage = .none) (room : s.callRoom)
    (one : s.cct.calls = [c]) (outside : c.kind = .outside) (setup : c.state = .setup)
    (empty : c.parties = []) (unrung : c.rung = none) (free : s.expectation n = none) (present : s.isPresent n = true) :
    ∃ t, finish s ((s.taken rest).answerIncoming (.station n tag k) c.id) = .next t ∧
      t = { s with ybi := t.ybi, sup := t.sup, vsw := t.vsw, cct := t.cct, lth := t.lth, flt := t.flt, ctb := t.ctb } ∧
      t.cct = { s.cct with calls := [answeredOf c n] } ∧ t.vsw.line = .seized ∧ t.vsw.episodes = [] ∧
      t.vsw.pairSpeech = some c.id ∧
      t.expectation n = some { tag := tag, callId := c.id, deadline := s.now + 2000 } ∧
      grantFrame n tag c.id k.code ∈ t.ybi.call ∧ t.ybi.rxBuffer = rest := by
  rw [answerIncoming_station (s := s.taken rest) one outside empty unrung free present room,
    show (s.taken rest).now = s.now from rfl]
  have relines := relines_answered c n (s.taken rest)
  generalize answered c n (s.taken rest) = v at relines ⊢
  have frame := relines.frame
  have vportB := relines.portB
  have line := relines.line
  have survey := relines.survey
  obtain ⟨w, same⟩ : ∃ w, w = v.onYbi fun y =>
      { y with
        presence := awaiting n { tag := tag, callId := c.id, deadline := s.now + 2000 } y.presence
        call := y.call ++ [grantFrame n tag c.id k.code] } := ⟨_, rfl⟩
  have wcct : w.cct = { s.cct with calls := [answeredOf c n] } := by rw [same, frame]; rfl
  have wvsw : w.vsw = v.vsw := by rw [same]; rfl
  have wlth : w.lth = v.lth := by rw [same]; rfl
  have rings := settle_rings (t := w) (before := s) (by rw [same, frame]; exact away)
    (by rw [same, frame]; simp [State.linkStill, State.taken]) (by rw [wlth, survey]; exact idle)
    (servePortB_stands (by rw [same, frame]; exact supply) (by rw [wvsw, vportB]; exact portB))
    (settleRecall_noHeld (by simp [wcct]))
    (by rw [wcct]; exact (changed_of_state (x := answeredOf c n) one (by simp [setup])).symm)
  have frame' := rings.frame
  have silent : followed w = [] := followed_none (by simp [wcct, Cct.episodes, CallRec.episode])
  have pair : w.cct.pairCall = some c.id :=
    pairCall_active (k := w.cct) (x := answeredOf c n) (n := n) (by rw [wcct]) rfl (by simp [CallRec.hasParty])
  have sent : grantFrame n tag c.id k.code ∈ w.ybi.call := by
    rw [same]
    exact List.mem_append_right _ (List.mem_singleton_self _)
  have entries : w.ybi.presence =
      awaiting n { tag := tag, callId := c.id, deadline := s.now + 2000 } s.ybi.presence := by
    rw [same, frame]
    rfl
  have buffer : w.ybi.rxBuffer = rest := by
    rw [same, frame]
    rfl
  have told : w = { s with ybi := w.ybi, vsw := w.vsw, cct := w.cct, lth := w.lth, flt := w.flt, ctb := w.ctb } := by
    rw [same, frame]
    rfl
  rw [← same]
  refine ⟨_, rfl, ?_, ?_, ?_, ?_, rings.pair.trans pair, expectation_awaiting present ?_, rings.call.subset sent, ?_⟩
  · rw [frame', told]
  · rw [frame']
    exact wcct
  · rw [frame']
    exact (congrArg Vsw.line wvsw).trans line
  · rw [frame']
    exact silent
  · rw [frame']
    exact entries
  · rw [frame']
    exact buffer

end answer

end Sys2Proof.Proofs.Answers
end

section
/-! The plan of a ringing that rings port A alone (O21, O24): nothing is skipped, and no station is named. -/

set_option Elab.async false

namespace Sys2Proof.Proofs.PortRings

open Sys2Proof Sys2Proof.Machine Sys2Proof.Proofs.Steps Sys2Proof.Proofs.Settling Sys2Proof.Proofs.Incoming
open Sys2Proof.Proofs.Answers Sys2Proof.Proofs.Calls Sys2Proof.Proofs.Grants Sys2Proof.Proofs.Requests

variable {s t u before : State} {e : Episode} {c : CallRec}

/-- The one episode rings port A, and the supply carries it. -/
structure RingsPortA (e : Episode) (s : State) : Prop where
  episodes : s.vsw.episodes = [e]
  intern : e.kind ≠ .outside
  rung : ∀ x, (s.callOf e.callId).any (fun c => decide (c.rung = some x)) = true → x = .port .a
  supply : s.sup.supply = .mains
  units : s.cfl.record.unitsA ≤ 5

/-- The plan skips nobody and names no station. -/
structure Bare (p : RingPlan) : Prop where
  skipped : p.skipped = []
  stations : ∀ id, p.stationsOf id = []

theorem incomingEpisode_none (h : RingsPortA e s) (ok : Nat → Bool) : s.incomingEpisode ok = none := by
  simp [State.incomingEpisode, h.episodes, h.intern]

theorem targetEpisode_none (h : RingsPortA e s) {x : Endpoint} (other : x ≠ .port .a) (ok : Nat → Bool) :
    s.targetEpisode x ok = none := by
  have not : ((s.callOf e.callId).any fun c => decide (c.rung = some x)) = false :=
    Bool.eq_false_iff.2 fun rung => other (h.rung x rung)
  simp [State.targetEpisode, h.episodes, not]

theorem stationCandidate_none (h : RingsPortA e s) (x : PresenceEntry) : s.stationCandidate x = none := by
  simp [State.stationCandidate, incomingEpisode_none h, targetEpisode_none h]

theorem portCandidate_b (h : RingsPortA e s) : s.portCandidate .b = none := by
  simp [State.portCandidate, incomingEpisode_none h, targetEpisode_none h]

theorem candidates_portA (h : RingsPortA e s) : s.candidates = [] ∨
    ∃ id, s.candidates = [{ load := { who := .port .a, units := s.cfl.record.unitsA }, callId := id }] := by
  unfold State.candidates
  cases found : s.portCandidate .a with
  | none => simp [found, portCandidate_b h, stationCandidate_none h]
  | some id => simp [found, portCandidate_b h, stationCandidate_none h]

theorem computePlan_bare (h : RingsPortA e s) : Bare s.computePlan := by
  have named : s.namedStations = [] := by simp [State.namedStations, stationCandidate_none h]
  have fits : s.cfl.record.unitsA ≤ s.sup.supply.ringCapacity := by
    rw [h.supply]
    exact h.units
  rcases candidates_portA h with none_ | ⟨id, one⟩
  · exact ⟨by simp [State.computePlan, none_, fitLoads], by
      simp [RingPlan.stationsOf, State.computePlan, none_, fitLoads, named]⟩
  · exact ⟨by simp [State.computePlan, one, fitLoads, fits], by
      simp [RingPlan.stationsOf, State.computePlan, one, fitLoads, fits, named]⟩

theorem Bare.namesSame {p q : RingPlan} (h : Bare p) (g : Bare q) (id : Nat) : p.namesSame id q = true := by
  simp [RingPlan.namesSame, h.stations, g.stations]

/-- A plan that skips nobody has been made: of the counters and the survey nothing has moved. -/
structure Solo (s t : State) : Prop where
  frame : t = { s with
    ybi := { s.ybi with routine := t.ybi.routine, call := t.ybi.call }, flt := t.flt
    sup := { s.sup with converter := t.sup.converter }
    vsw := { s.vsw with plan := t.vsw.plan, portA := t.vsw.portA, portB := t.vsw.portB } }
  bare : Bare t.vsw.plan

theorem Solo.again (h : Solo s t) (g : Solo t u) : Solo s u := by
  refine ⟨?_, g.bare⟩
  have later := g.frame
  rw [h.frame] at later
  exact later

theorem RingsPortA.solo (h : RingsPortA e s) (g : Solo s t) : RingsPortA e t := by
  have frame := g.frame
  have calls : State.callOf e.callId t = State.callOf e.callId s := by
    rw [frame]
    rfl
  exact ⟨by rw [frame]; exact h.episodes, h.intern, by rw [calls]; exact h.rung, by rw [frame]; exact h.supply,
    by rw [frame]; exact h.units⟩

theorem followPlan_ports (p : Port) (s : State) : ∃ a b, s.followPlan p = s.onVsw fun v =>
    { v with portA := a, portB := b } := by
  have stands (q : Port) (f : PortRec → PortRec) : ∃ a b, s.onPort q f = s.onVsw fun v =>
      { v with portA := a, portB := b } := by
    cases q
    · exact ⟨_, s.vsw.portB, rfl⟩
    · exact ⟨s.vsw.portA, _, rfl⟩
  unfold State.followPlan
  split
  · exact stands p _
  · exact stands p _
  · exact ⟨s.vsw.portA, s.vsw.portB, rfl⟩

/-- One computation of the plan: RING goes out for the episode where it begins, or the old plan named stations. -/
theorem solo_planOnce (h : RingsPortA e s) (began : List Episode)
    (room : s.callRoom ∨ (began = [] ∧ Bare s.vsw.plan)) : Solo s (s.planOnce began) := by
  have bare := computePlan_bare h
  obtain ⟨q, f, quiet, -⟩ := ringOverload_frame (s.onVsw fun v => { v with plan := s.computePlan })
  have judged : State.judgePlan s.vsw.plan (s.onVsw fun v => { v with plan := s.computePlan }) =
      (s.onVsw fun v => { v with plan := s.computePlan }).makeInactive .ringOverload .pair := by
    simp [State.judgePlan, bare.skipped, State.signalTimes]
  obtain ⟨a, b, portA⟩ := followPlan_ports .a ({ s.onVsw (fun v => { v with plan := s.computePlan }) with
    ybi := { s.ybi with routine := q }, flt := f } : State)
  obtain ⟨a', b', portB⟩ := followPlan_ports .b (State.followPlan .a ({ s.onVsw (fun v => { v with plan := s.computePlan }) with
    ybi := { s.ybi with routine := q }, flt := f } : State))
  have followed : ((State.judgePlan s.vsw.plan (s.onVsw fun v => { v with plan := s.computePlan })).followPlan .a).followPlan .b =
      { s with
        ybi := { s.ybi with routine := q }, flt := f
        vsw := { s.vsw with plan := s.computePlan, portA := a', portB := b' } } := by
    rw [judged, quiet]
    exact portB.trans (by rw [portA]; rfl)
  have done : s.planOnce began = State.demandRing
      (if began.any (fun b => b.callId == e.callId) || !s.vsw.plan.namesSame e.callId s.computePlan then
        State.sendRing e ({ s with
          ybi := { s.ybi with routine := q }, flt := f
          vsw := { s.vsw with plan := s.computePlan, portA := a', portB := b' } } : State)
      else ({ s with
        ybi := { s.ybi with routine := q }, flt := f
        vsw := { s.vsw with plan := s.computePlan, portA := a', portB := b' } } : State)) := by
    unfold State.planOnce
    simp only [followed, h.episodes, List.foldl_cons, List.foldl_nil]
  rw [done]
  split
  · rename_i sends
    have room' : s.callRoom := by
      rcases room with room | ⟨rfl, plain⟩
      · exact room
      · simp [plain.namesSame bare] at sends
    unfold State.sendRing
    rw [handCall_room (by exact room')]
    exact ⟨rfl, bare⟩
  · exact ⟨rfl, bare⟩

theorem solo_replan (h : RingsPortA e s) (began : List Episode) (room : s.callRoom) : Solo s (s.replan began) := by
  have until_ (n : Nat) : ∀ (began : List Episode) (s : State), RingsPortA e s →
      s.callRoom ∨ (began = [] ∧ Bare s.vsw.plan) → Solo s (State.planUntil n began s) := by
    induction n with
    | zero => exact fun began s h room => solo_planOnce h began room
    | succ n ih =>
      intro began s h room
      have once := solo_planOnce h began room
      unfold State.planUntil
      dsimp only
      split
      · exact once
      · exact once.again (ih [] _ (h.solo once) (.inr ⟨rfl, once.bare⟩))
  exact until_ 2 began s h (.inl room)

/-! ### A call begins to ring port A -/

/-- What settles when the calls call for one episode, which rings port A, and nothing rang before. -/
theorem settle_solo {w : Nat × EpisodeKind} (away : t.lle.link ≠ .showtime) (link : t.linkStill before = true)
    (idle : t.lth.stage = .none) (served : t.servePortB = t) (goesOn : t.settleRecall before = t)
    (calls : t.cct.calls ≠ before.cct.calls) (silent : t.vsw.episodes = []) (wanted : t.cct.episodes = [w])
    (intern : w.2 ≠ .outside) (rung : ∀ x, (t.callOf w.1).any (fun c => decide (c.rung = some x)) = true → x = .port .a)
    (supply : t.sup.supply = .mains) (units : t.cfl.record.unitsA ≤ 5) (room : t.callRoom) :
    t.settle before = { t with
      ybi := { t.ybi with routine := (t.settle before).ybi.routine, call := (t.settle before).ybi.call }
      flt := (t.settle before).flt
      sup := { t.sup with converter := (t.settle before).sup.converter }
      vsw := { t.vsw with
        plan := (t.settle before).vsw.plan, portA := (t.settle before).vsw.portA, portB := (t.settle before).vsw.portB
        pairSpeech := t.cct.pairCall, pairRinging := (t.settle before).vsw.pairRinging
        episodes := [Episode.start t.cfl.record.cadence t.now w] } } := by
  have portB : t.settlePortB before = t := by
    unfold State.settlePortB
    split
    · rfl
    · exact served
  have synced := syncEpisodes_first silent wanted
  generalize start : Episode.start t.cfl.record.cadence t.now w = e at synced
  have id : e.callId = w.1 := by rw [← start]; rfl
  have kind : e.kind = w.2 := by rw [← start]; rfl
  have ringing : t.settleRinging before = (t.onVsw fun v => { v with episodes := [e] }).replan [e] := by
    have due : (t.onVsw fun v => { v with episodes := [e] }).planDue before t.vsw.episodes = true := by
      simp [State.planDue, silent]
    unfold State.settleRinging
    simp only [if_neg calls, synced, due, ↓reduceIte]
  have solo := solo_replan (s := t.onVsw fun v => { v with episodes := [e] }) (e := e)
    ⟨rfl, by rw [kind]; exact intern, by rw [id]; exact rung, supply, units⟩ [e] room
  rw [settle_away away link idle, portB, goesOn, ringing]
  have plan := solo.frame
  generalize State.replan [e] (t.onVsw fun v => { v with episodes := [e] }) = r at plan ⊢
  have cct : r.cct = t.cct := by rw [plan]; rfl
  obtain ⟨b, paired⟩ := settlePair_calls (s := r) (before := before) (by rw [cct]; exact calls)
  rw [paired, cct]
  conv_lhs => rw [plan]
  rfl

/-! ### An intercom to port A (R143) -/

/-- The intercom a station places to port A. -/
abbrev intercomOf (id n now : Nat) : CallRec :=
  { CallRec.fresh id .intercom .outgoing .setup [{ who := .station n, mark := .awaitingTake }] with
    rung := some (.port .a), ringTimer := some (now + 30000), originator := some (.station n), target := some (.port .a) }

section intercom
variable {n tag : Nat}

theorem intercomTest_portA (none_ : s.cct.calls = []) (onHook : s.vsw.portA.state = .onHook) (free : s.expectation n = none)
    (present : s.isPresent n = true) : s.intercomTest (.station n tag .intercom) (.port .a) = none := by
  have unpaired : s.cct.pairCall = none := by simp [Cct.pairCall, none_]
  have idle : s.busy none (.station n) = false :=
    busy_free (by simp [State.liveCallOf, none_]) free (by simp [none_]) (by simp [unpaired])
  have port : s.busy none (.port .a) = false := by
    simp [State.busy, State.port, onHook, State.liveCallOf, State.rungElsewhere, none_]
  simp [State.intercomTest, Claimant.endpoint, State.claimantBusy, idle, State.absent, port, State.pairElsewhere, unpaired,
    State.tableFull, none_, Config.callCapacity, State.notReadyFor, present]

/-- The state in which the intercom is placed. -/
def placed (n tag : Nat) (s : State) : State :=
  { s with
    ybi := { s.ybi with
      presence := awaiting n { tag := tag, callId := s.cct.nextCallId, deadline := s.now + 2000 } s.ybi.presence
      call := s.ybi.call ++ [grantFrame n tag s.cct.nextCallId 4] }
    cct := { s.cct with
      nextCallId := nextCallId s.cct.nextCallId, calls := [intercomOf s.cct.nextCallId n s.now] } }

theorem decideIntercom_portA (none_ : s.cct.calls = []) (onHook : s.vsw.portA.state = .onHook)
    (free : s.expectation n = none) (present : s.isPresent n = true) (room : s.callRoom) :
    s.decideIntercom (.station n tag .intercom) (.port .a) = placed n tag s := by
  have id : s.cct.newId = s.cct.nextCallId := by simp [Cct.newId, none_, Config.callCapacity, freeCallId]
  have unoffered : s.heldToOffer (.station n tag .intercom) = none := by simp [State.heldToOffer, State.heldBy, none_]
  unfold State.decideIntercom
  simp only [intercomTest_portA none_ onHook free present]
  unfold State.placeIntercom
  simp only [unoffered, id, State.letIn]
  rw [grant_room (by exact room)]
  simp [placed, State.addCall, State.onCct, none_]
  rfl

theorem placed_settles {rest : List Delivered} (calm : s.calm) (room : s.ybi.listenOnly = false) (length : s.ybi.call.length < 7)
    (inRange : s.cfl.record.inRange = true) (none_ : s.cct.calls = []) (present : s.isPresent n = true) :
    ∃ t, finish s (placed n tag (s.taken rest)) = .next t ∧
      t = { s with ybi := t.ybi, sup := t.sup, vsw := t.vsw, cct := t.cct, flt := t.flt } ∧
      t.cct = { s.cct with
        nextCallId := nextCallId s.cct.nextCallId, calls := [intercomOf s.cct.nextCallId n s.now] } ∧
      t.vsw.episodes.map (fun e => (e.callId, e.kind)) = [(s.cct.nextCallId, .intercom)] ∧
      t.vsw.pairSpeech = some s.cct.nextCallId ∧
      t.expectation n = some { tag := tag, callId := s.cct.nextCallId, deadline := s.now + 2000 } ∧
      grantFrame n tag s.cct.nextCallId 4 ∈ t.ybi.call ∧ t.ybi.rxBuffer = rest ∧ t.vsw.line = s.vsw.line := by
  obtain ⟨away, silent, supply, portB, idle⟩ := calm
  obtain ⟨w, same⟩ : ∃ w, w = placed n tag (s.taken rest) := ⟨_, rfl⟩
  have cct : w.cct = { s.cct with
      nextCallId := nextCallId s.cct.nextCallId, calls := [intercomOf s.cct.nextCallId n s.now] } := by rw [same]; rfl
  have link : w.linkStill s = true := by
    rw [same]
    simp [State.linkStill, placed, State.taken]
  have served := servePortB_stands (s := w) (by rw [same]; exact supply) (by rw [same]; exact portB)
  have goesOn : w.settleRecall s = w := settleRecall_noHeld (by simp [cct, CallRec.fresh])
  have changed : w.cct.calls ≠ s.cct.calls := by simp [cct, none_]
  have wanted : w.cct.episodes = [(s.cct.nextCallId, .intercom)] := by rw [cct]; rfl
  have rung : ∀ x, (w.callOf s.cct.nextCallId).any (fun c => decide (c.rung = some x)) = true → x = .port .a := by
    simp [State.callOf, cct, CallRec.fresh]
  have units : s.cfl.record.unitsA ≤ 5 := by
    simp only [ConfigRecord.inRange, Bool.and_eq_true, decide_eq_true_eq] at inRange
    omega
  have room' : w.callRoom := by
    rw [same]
    exact ⟨room, by simp [placed, State.taken, Config.queueCapacity]; omega⟩
  have away' : w.lle.link ≠ .showtime := by rw [same]; exact away
  have idle' : w.lth.stage = .none := by rw [same]; exact idle
  have solo := settle_solo away' link idle' served goesOn changed (by rw [same]; exact silent) wanted nofun rung
    (by rw [same]; exact supply) (by rw [same]; exact units) room'
  have grown := (settle_rings away' link idle' served goesOn changed).call
  have pair : w.cct.pairCall = some s.cct.nextCallId := by rw [cct]; rfl
  rw [pair] at solo
  rw [← same]
  refine ⟨w.settle s, rfl, ?_⟩
  generalize w.settle s = u at solo grown ⊢
  refine ⟨?_, ?_, ?_, ?_, expectation_awaiting present ?_, grown.subset ?_, ?_, ?_⟩
  · rw [solo, same]
    rfl
  · rw [solo]
    exact cct
  · rw [solo]
    rfl
  · rw [solo]
  · rw [solo, same]
    rfl
  · rw [same]
    exact List.mem_append_right _ (List.mem_singleton_self _)
  · rw [solo, same]
    rfl
  · rw [solo, same]
    rfl

end intercom

/-- Settles O21: the ANSWER takes the incoming call over, and the intercom rings port A. -/
theorem answersAndIntercoms : Obligations.AnswersAndIntercoms := by
  refine ⟨fun tag a d rest c s away supply portB idle head room m tagged named one outside incoming setup empty unrung line
    present => ?_, fun tag d rest s calm head listening length inRange m tagged none_ onHook present => ?_⟩
  · have found : (s.taken rest).incomingCall = some c := by
      simp [State.incomingCall, State.taken, one, outside, incoming, setup]
    have served : s.serve (isClaim .answer) (fun d s =>
        s.withTag d (State.decideAnswer (.station d.src d.message.tag .answer) d.message.argument)) =
        (s.taken rest).answerIncoming (.station d.src tag .answer) c.id := by
      rw [serve_heads head (by simp [isClaim, m])]
      simp only [State.withTag, m, Message.tag, tagged, if_false, Message.argument]
      unfold State.decideAnswer
      rcases named with rfl | ⟨rfl, other⟩
      · simp only [if_true, found]
      · rw [if_neg other, callOf_single (s := s.taken rest) one]
        simp only [State.answerCall, outside, setup]
    obtain ⟨t, next, rest⟩ := answer_settles (tag := tag) (k := .answer) (rest := rest) away supply portB idle room one outside
      setup empty unrung (unclaimed_free head.2) present
    refine ⟨t, ?_, rest⟩
    show execClaimAnswer s = _
    rw [execClaimAnswer, served]
    exact next
  · have served : s.serve (isClaim .intercom) (fun d s => s.withTag d (State.claimIntercom d)) =
        placed d.src tag (s.taken rest) := by
      rw [serve_heads head (by simp [isClaim, m])]
      simp only [State.withTag, State.claimIntercom, m, Message.tag, tagged, if_false, Message.argument]
      exact decideIntercom_portA (s := s.taken rest) none_ onHook (unclaimed_free head.2) present
        ⟨listening, Nat.lt_succ_of_lt length⟩
    obtain ⟨t, next, rest⟩ := placed_settles (n := d.src) (tag := tag) (rest := rest) calm listening length inRange none_ present
    refine ⟨t, ?_, rest⟩
    show execClaimIntercom s = _
    rw [execClaimIntercom, served]
    exact next

end Sys2Proof.Proofs.PortRings
end

section
/-! Claims of the outside line (O20), by the state of the line. -/

set_option Elab.async false

namespace Sys2Proof.Proofs.Outside

open Sys2Proof Sys2Proof.Machine Sys2Proof.Proofs.Steps Sys2Proof.Proofs.Requests Sys2Proof.Proofs.Calls
open Sys2Proof.Proofs.Start Sys2Proof.Proofs.Link Sys2Proof.Proofs.Survey Sys2Proof.Proofs.Items Sys2Proof.Proofs.Phases
open Sys2Proof.Proofs.Grants Sys2Proof.Proofs.Answers

variable {s t u before : State} {d : Delivered} {rest : List Delivered} {n tag : Nat} {k : ClaimKind}

/-! ### The grant on an IDLE line (R139) -/

theorem outsideTest_free (none_ : s.cct.calls = []) (free : s.expectation n = none) (present : s.isPresent n = true) :
    s.outsideTest (.station n tag k) = none := by
  have unpaired : s.cct.pairCall = none := by simp [Cct.pairCall, none_]
  have idle : s.busy none (.station n) = false :=
    busy_free (by simp [State.liveCallOf, none_]) free (by simp [none_]) (by simp [unpaired])
  simp [State.outsideTest, State.claimantBusy, idle, State.pairBusyFor, State.pairElsewhere, unpaired, State.tableFull,
    none_, Config.callCapacity, State.notReadyFor, present]

/-- The call a station is granted on the IDLE line. -/
abbrev outsideOf (id n : Nat) : CallRec :=
  CallRec.fresh id .outside .outgoing .active [{ who := .station n, mark := .awaitingTake }]

/-- The call is placed in a table without calls, and the line is SEIZED. -/
def seized (n : Nat) (s : State) : State :=
  (s.onCct fun c =>
    { c with nextCallId := nextCallId c.nextCallId, calls := [outsideOf c.nextCallId n] }).setLine .seized

theorem relines_seized (n : Nat) (s : State) : Relines .seized
    (s.onCct fun c => { c with nextCallId := nextCallId c.nextCallId, calls := [outsideOf c.nextCallId n] }) (seized n s) :=
  relines_setLine _ _

theorem decideOutside_idle (line : s.vsw.line = .idle) (none_ : s.cct.calls = []) (free : s.expectation n = none)
    (present : s.isPresent n = true) (room : s.callRoom) :
    s.decideOutside (.station n tag k) = (seized n s).onYbi fun y =>
      { y with
        presence := awaiting n { tag := tag, callId := s.cct.nextCallId, deadline := s.now + 2000 } y.presence
        call := y.call ++ [grantFrame n tag s.cct.nextCallId k.code] } := by
  have id : s.cct.newId = s.cct.nextCallId := by simp [Cct.newId, none_, Config.callCapacity, freeCallId]
  have frame := (relines_seized n s).frame
  have now : (seized n s).now = s.now := by rw [frame]; rfl
  have room' : (seized n s).callRoom := by
    rw [frame]
    exact room
  have placed : State.setLine .seized (s.addCall (CallRec.fresh s.cct.nextCallId .outside .outgoing .active
      [(Claimant.station n tag k).party])) = seized n s := by
    unfold State.addCall seized State.onCct
    simp only [none_, List.nil_append]
    rfl
  unfold State.decideOutside
  simp only [line, outsideTest_free none_ free present]
  unfold State.grantOutside
  simp only [id, placed, State.letIn]
  rw [grant_room room', now]

/-- What goes with the grant, while the part is calm. -/
theorem seized_moved {y : Ybi → Ybi} (calm : before.calm) (none_ : before.cct.calls = []) (sup : s.sup = before.sup)
    (lle : s.lle = before.lle) (cfl : s.cfl = before.cfl) (vsw : s.vsw = before.vsw) (lth : s.lth = before.lth) :
    CallsMoved before ((seized n s).onYbi y) := by
  have h := relines_seized n s
  have cct : (seized n s).cct.calls = [outsideOf s.cct.nextCallId n] := by rw [h.frame]; rfl
  obtain ⟨-, silent, -, -, idle⟩ := calm
  refine ⟨by rw [State.onYbi_sup, h.frame]; exact sup, by rw [State.onYbi_lle, h.frame]; exact lle,
    by rw [State.onYbi_cfl, h.frame]; exact cfl,
    by rw [State.onYbi_vsw, h.portA]; exact congrArg (·.portA.state) vsw,
    by rw [State.onYbi_vsw, h.portB]; exact congrArg (·.portB.state) vsw,
    h.episodes.trans ((congrArg Vsw.episodes vsw).trans silent), ?_, ?_, ?_, ?_⟩
  · rw [State.onYbi_cct]
    simp [Cct.episodes, cct, CallRec.episode, CallRec.fresh]
  · rw [State.onYbi_cct]
    simp [cct, CallRec.fresh]
  · rw [State.onYbi_lth, h.survey]
    exact (congrArg Lth.stage lth).trans idle
  · rw [State.onYbi_cct, cct, none_]
    simp

theorem holdOffTimer_seized (moves : s.vsw.line ≠ .seized) : (relined .seized s).lth.holdOffTimer = none := by
  unfold relined
  rw [if_neg moves]
  simp [State.timeHoldOff, State.senseRinging, State.senseVoltage]

theorem grant_settles (calm : s.calm) (head : s.heads d rest) (room : s.callRoom) (routine : s.routineRoom)
    (none_ : s.cct.calls = []) (line : s.vsw.line = .idle) (present : s.isPresent d.src = true) :
    ∃ t, finish s ((s.taken rest).decideOutside (.station d.src tag k)) = .next t ∧
      t = { s with ybi := t.ybi, vsw := t.vsw, cct := t.cct, lth := t.lth } ∧
      t.cct = { s.cct with nextCallId := nextCallId s.cct.nextCallId, calls := [outsideOf s.cct.nextCallId d.src] } ∧
      t.vsw.line = .seized ∧ t.vsw.pairSpeech = some s.cct.nextCallId ∧ t.vsw.portA = s.vsw.portA ∧
      t.vsw.portB = s.vsw.portB ∧ t.vsw.episodes = [] ∧ t.vsw.plan = s.vsw.plan ∧
      t.lth = { s.lth with holdOffTimer := none } ∧
      t.ybi = { s.ybi with
        rxBuffer := rest
        call := s.ybi.call ++ [grantFrame d.src tag s.cct.nextCallId k.code]
        routine := s.ybi.routine ++ [lineStatusFrame false .seized]
        presence := awaiting d.src { tag := tag, callId := s.cct.nextCallId, deadline := s.now + 2000 } s.ybi.presence } := by
  have ⟨away, silent, _⟩ := calm
  rw [decideOutside_idle (s := s.taken rest) line none_ (unclaimed_free head.2) present room]
  have next := finish_calls calm (seized_moved (n := d.src) (s := s.taken rest)
    (y := fun y => { y with
      presence := awaiting d.src { tag := tag, callId := s.cct.nextCallId, deadline := s.now + 2000 } y.presence
      call := y.call ++ [grantFrame d.src tag s.cct.nextCallId k.code] }) calm none_ rfl rfl rfl rfl rfl)
  have relines := relines_seized d.src (s.taken rest)
  have moves : ((s.taken rest).onCct fun c =>
      { c with nextCallId := nextCallId c.nextCallId, calls := [outsideOf c.nextCallId d.src] }).vsw.line ≠ .seized := by
    rw [State.onCct_vsw]
    show s.vsw.line ≠ _
    simp [line]
  have told : seized d.src (s.taken rest) = _ := setLine_room moves routine
  have frame := relined_frame .seized ((s.taken rest).onCct fun c =>
    { c with nextCallId := nextCallId c.nextCallId, calls := [outsideOf c.nextCallId d.src] })
  have timer := holdOffTimer_seized moves
  generalize relined .seized ((s.taken rest).onCct fun c =>
    { c with nextCallId := nextCallId c.nextCallId, calls := [outsideOf c.nextCallId d.src] }) = v at told frame timer
  have down : decide (((s.taken rest).onCct fun c =>
    { c with nextCallId := nextCallId c.nextCallId, calls := [outsideOf c.nextCallId d.src] }).lle.link = .showtime) = false :=
      decide_eq_false away
  rw [down] at told
  rw [timer] at frame
  generalize seized d.src (s.taken rest) = w at told next relines
  have pair : w.cct.pairCall = some s.cct.nextCallId := by
    rw [told, frame]
    rfl
  refine ⟨_, next, ?_, ?_, relines.line, pair, relines.portA, relines.portB, relines.episodes.trans silent, relines.plan,
    ?_, ?_⟩ <;> rw [told, frame] <;> rfl

/-! ### An item is aborted (R140, R169) -/

/-- From one state to a later one the link has moved, but not into SHOWTIME, and notices of it may have been queued. -/
structure LinkApart (s t : State) : Prop where
  frame : t = { s with
    ybi := { s.ybi with
      urgent := t.ybi.urgent, call := t.ybi.call, routine := t.ybi.routine, backlogTimer := t.ybi.backlogTimer }
    lle := t.lle, flt := t.flt, ctb := t.ctb }
  stays : t.lle.link = .showtime → s.lle.link = .showtime

theorem LinkApart.refl (s : State) : LinkApart s s := ⟨rfl, id⟩

theorem LinkApart.trans (h : LinkApart s t) (g : LinkApart t u) : LinkApart s u := by
  refine ⟨?_, fun x => h.stays (g.stays x)⟩
  have later := g.frame
  rw [h.frame] at later
  exact later

theorem LinkApart.ite {c : Prop} [Decidable c] (h : c → LinkApart s t) (g : LinkApart s u) :
    LinkApart s (if c then t else u) := by
  split
  · exact h ‹_›
  · exact g

theorem linkApart_enterDown (away : s.lle.link ≠ .showtime) (reason : DropReason) : LinkApart s (s.enterDown reason) := by
  obtain ⟨⟨q, told⟩, -⟩ := enterDown_told reason s
  have frame : left reason .down s = { s with lle := (left reason .down s).lle } := by
    unfold left
    split
    · exact absurd ‹_› away
    · rfl
    · rfl
  have link : (left reason .down s).lle.link ≠ .showtime := by
    unfold left
    split
    · exact absurd ‹_› away
    · exact nofun
    · exact nofun
  rw [told]
  refine ⟨?_, fun showtime => absurd showtime link⟩
  rw [frame]
  rfl

theorem linkApart_heldAttempt (s : State) : LinkApart s s.heldAttempt :=
  LinkApart.ite (fun held => linkApart_enterDown (by
    have lockout := of_decide_eq_true ((Bool.and_eq_true _ _).mp held).2
    rw [lockout]
    nofun) _) (.refl s)

theorem linkApart_removeHolder (x : Holder) (s : State) : LinkApart s (s.removeHolder x) := by
  have put : LinkApart s (s.onLle fun l => { l with holders := l.holders.put x false }) := ⟨rfl, id⟩
  exact LinkApart.ite (fun _ => put.trans (LinkApart.ite (fun empty => linkApart_enterDown (by
    have quiet := of_decide_eq_true ((Bool.and_eq_true _ _).mp empty).2
    rw [quiet]
    nofun) _) (.refl _))) (.refl s)

/-- The survey rests, and its hold-off begins. -/
def rested (s : State) : State := (s.endPhase).onLth fun l => { l with holdOff := true }

theorem LinkApart.onLth (h : LinkApart s t) (f : Lth → Lth) : LinkApart (s.onLth f) (t.onLth f) := by
  refine ⟨?_, h.stays⟩
  have lth : t.lth = s.lth := by rw [h.frame]
  unfold State.onLth
  rw [lth]
  conv_lhs => rw [h.frame]

theorem rested_apart (s : State) : ∃ b, LinkApart
    (s.onLth fun l => { restoring s.now l with holderAdded := b, holdOff := true }) (rested s) := by
  have held := linkApart_heldAttempt (s.onLth (restoring s.now))
  have plain (t : State) (h : LinkApart (s.onLth (restoring s.now)) t) :
      LinkApart (s.onLth fun l => { restoring s.now l with holderAdded := s.lth.holderAdded, holdOff := true })
        (t.onLth fun l => { l with holdOff := true }) :=
    h.onLth fun l => { l with holdOff := true }
  unfold rested State.endPhase
  dsimp only
  split
  · split
    · exact ⟨false, ((held.trans (linkApart_removeHolder .survey _)).onLth fun l =>
        { l with holderAdded := false }).onLth fun l => { l with holdOff := true }⟩
    · exact ⟨s.lth.holderAdded, plain _ held⟩
  · exact ⟨s.lth.holderAdded, plain _ (.refl _)⟩

/-- The item is noted as aborted, and the rest of the survey with it. -/
def noted (i : Item) (s : State) : State :=
  (s.writeEntry i .aborted none).onRunning fun r =>
    (r.endItem i .aborted).endAll (r.endItem i .aborted).remaining

theorem abortSurvey_item {i : Item} (stage : s.lth.stage = .item i) : s.abortSurvey = rested (noted i s) := by
  unfold State.abortSurvey
  rw [stage]
  rfl

theorem aborted_entry (i : Item) (s : State) : (rested (noted i s)).lth.entry i =
    { status := .aborted, results := none, stamp := s.uptime } := by
  have charted : Charted (noted i s) (rested (noted i s)) :=
    (charted_endPhase _).trans (charted_onLth (fun l i => by cases i <;> rfl) _)
  rw [charted.entry]
  cases i <;> rfl

/-- Where the link alone has moved, and a survey that does not wait, what follows a change of the link is all that
settles. -/
theorem settle_apart (frame : t = { before with
      ybi := t.ybi, lle := t.lle, cct := t.cct, lth := t.lth, flt := t.flt, ctb := t.ctb })
    (presence : t.ybi.presence = before.ybi.presence) (calls : t.cct.calls = before.cct.calls)
    (stays : t.lle.link = .showtime → before.lle.link = .showtime) (stage : t.lth.stage = .restoring) :
    t.settle before = t.settleLink before := by
  have sup : t.sup = before.sup := by rw [frame]
  have vsw : t.vsw = before.vsw := by rw [frame]
  have cfl : t.cfl = before.cfl := by rw [frame]
  have follows := (linkFollows_settleLink t before).frame
  unfold State.settle
  simp only [settlePortB_same (congrArg Sup.supply sup) calls (congrArg Cfl.state cfl),
    settleRecall_same calls presence (congrArg (·.portA.state) vsw) (congrArg (·.portB.state) vsw),
    settleRinging_same calls (congrArg Sup.supply sup) (congrArg (·.portA.state) vsw) (congrArg (·.portB.state) vsw)
      (congrArg ringFields presence) (congrArg Vsw.inBurst vsw) (congrArg Vsw.episodes vsw),
    settlePair_same calls (congrArg (·.converter.burst) sup), settleGuard_same (congrArg Vsw.line vsw) stays]
  have stage' : (t.settleLink before).lth.stage = .restoring := by
    rw [follows]
    exact stage
  exact settleWait_notWaiting (by rw [stage']; nofun) (by rw [stage']; nofun)

/-- A claim of the line in TEST aborts the item that runs, and is deferred. -/
theorem claim_aborts {i : Item} (stage : s.lth.stage = .item i) (line : s.vsw.line = .test)
    (room : s.cct.deferred.length < 4) :
    ∃ t, finish s ((s.taken rest).decideOutside (.station n tag .outside)) = .next t ∧
      t = { s with ybi := t.ybi, sup := t.sup, lle := t.lle, cct := t.cct, lth := t.lth, flt := t.flt, ctb := t.ctb } ∧
      t.cct = { s.cct with deferred := s.cct.deferred ++ [.station n tag .outside] } ∧
      t.lth.entry i = { status := .aborted, results := none, stamp := s.uptime } ∧ t.lth.stage = .restoring ∧
      t.lth.relay = .rest ∧ t.lth.itemTimer = none ∧ t.lth.restoreTimer = some (s.now + 200) ∧
      t.lth.holdOff = true ∧ t.ybi.rxBuffer = rest := by
  obtain ⟨b, apart⟩ := rested_apart (noted i (s.taken rest))
  have entry := aborted_entry i (s.taken rest)
  have aborted := abortSurvey_item (s := s.taken rest) stage
  have frame := apart.frame
  have stays := apart.stays
  have done : (s.taken rest).decideOutside (.station n tag .outside) =
      (rested (noted i (s.taken rest))).onCct fun t => { t with deferred := t.deferred ++ [.station n tag .outside] } := by
    unfold State.decideOutside
    rw [show (s.taken rest).vsw.line = .test from line]
    unfold State.defer140
    rw [aborted]
    exact if_pos (by rw [frame]; exact room)
  generalize rested (noted i (s.taken rest)) = w at frame stays entry done
  have lth : w.lth = { restoring s.now (noted i (s.taken rest)).lth with holderAdded := b, holdOff := true } := by
    rw [frame]
    rfl
  have told : w = { s with ybi := w.ybi, lle := w.lle, lth := w.lth, flt := w.flt, ctb := w.ctb } := by
    rw [frame]
    rfl
  have buffer : w.ybi.rxBuffer = rest := by rw [frame]; rfl
  have presence : w.ybi.presence = s.ybi.presence := by rw [frame]; rfl
  obtain ⟨v, same⟩ : ∃ v, v = w.onCct fun t => { t with deferred := t.deferred ++ [.station n tag .outside] } := ⟨_, rfl⟩
  have cct : v.cct = { s.cct with deferred := s.cct.deferred ++ [.station n tag .outside] } := by rw [same, told]; rfl
  have vlth : v.lth = w.lth := by rw [same]; rfl
  have settled := settle_apart (t := v) (before := s) (by rw [same, told]; rfl) (by rw [same]; exact presence) (by rw [cct])
    (by rw [same]; exact stays) (by rw [vlth, lth]; rfl)
  have follows := (linkFollows_settleLink v s).frame
  have next : finish s ((s.taken rest).decideOutside (.station n tag .outside)) = .next (v.settleLink s) := by
    rw [done, ← same]
    exact congrArg _ settled
  generalize v.settleLink s = y at next follows
  have ylth : y.lth = w.lth := by rw [follows]; exact vlth
  refine ⟨y, next, ?_, ?_, ?_, ?_, ?_, ?_, ?_, ?_, ?_⟩
  · rw [follows, same, told]
    rfl
  · rw [follows]
    exact cct
  · rw [ylth]
    exact entry
  · rw [ylth, lth]
    rfl
  · rw [ylth, lth]
    rfl
  · rw [ylth, lth]
    rfl
  · rw [ylth, lth]
    rfl
  · rw [ylth, lth]
  · rw [follows, same]
    exact buffer

/-! ### The claims -/

theorem claimOutside_served {a : Nat} (head : s.heads d rest) (tagged : tag ≠ 0) (m : d.message = .claim tag .outside a) :
    exec .claimOutside s = finish s ((s.taken rest).decideOutside (.station d.src tag .outside)) := by
  show execClaimOutside s = _
  rw [execClaimOutside, serve_heads head (by simp [isClaim, m])]
  simp only [State.withTag, m, Message.tag, tagged, if_false]

theorem claim_refused {reason : RefuseReason} (room : s.callRoom)
    (refused : (s.taken rest).decideOutside (.station n tag .outside) =
      (s.taken rest).refuseClaim (.station n tag .outside) reason) :
    finish s ((s.taken rest).decideOutside (.station n tag .outside)) =
      .next (s.called rest (refuseFrame n .claim reason tag)) := by
  rw [refused]
  show finish s ((s.taken rest).refuse n .claim reason tag) = _
  rw [refuse_room room, finish_undisturbed undisturbed_called]

/-- A claim that comes within the restore time is deferred, and that is all. -/
theorem claim_deferred (line : s.vsw.line = .test) (stage : s.lth.stage = .restoring) (room : s.cct.deferred.length < 4) :
    finish s ((s.taken rest).decideOutside (.station n tag .outside)) =
      .next ((s.taken rest).onCct fun t => { t with deferred := t.deferred ++ [.station n tag .outside] }) := by
  have done : (s.taken rest).decideOutside (.station n tag .outside) =
      (s.taken rest).onCct fun t => { t with deferred := t.deferred ++ [.station n tag .outside] } := by
    unfold State.decideOutside
    rw [show (s.taken rest).vsw.line = .test from line]
    unfold State.defer140 State.abortSurvey
    rw [show (s.taken rest).lth.stage = .restoring from stage]
    exact if_pos room
  have unready : s.phaseReady = false := by
    unfold State.phaseReady
    rw [stage]
  rw [done]
  obtain ⟨supply, calls, ready, presence, portA, portB, burst, episodes, driven, line, link, stage, running, -⟩ :=
    undisturbed_taken (s := s) (rest := rest)
  exact finish_undisturbed ⟨supply, calls, ready, presence, portA, portB, burst, episodes, driven, line, link, stage, running,
    fun due => by rw [unready] at due; cases due⟩

/-- Settles O20: the grant, and the claim by the state of the line. -/
theorem outsideClaims : Obligations.OutsideClaims := by
  refine ⟨fun i kind tag a d rest s calm head room routine none_ line present m tagged request => ?_,
    fun tag a d rest s head room tagged => ⟨fun m => ⟨fun out => ?_, fun busy => ?_, fun line stage space => ?_,
      fun line unknown => ?_, fun c line away supply portB idle one outside incoming setup empty unrung present => ?_,
      fun item r line stage running space => ?_⟩, fun m rank served => ?_⟩⟩
  · have granted : exec i s = finish s ((s.taken rest).decideOutside (.station d.src tag kind)) := by
      rcases request with ⟨rfl, rfl⟩ | ⟨rfl, rfl, rank⟩
      · exact claimOutside_served head tagged m
      · have able : (s.taken rest).canServe (.station d.src tag .outsideAny) = true := by
          have free := outsideTest_free (s := s.taken rest) (tag := tag) (k := .outsideAny) none_ (unclaimed_free head.2) present
          unfold State.canServe
          rw [show (s.taken rest).vsw.line = .idle from line]
          dsimp only
          rw [free]
          rfl
        show execClaimOutsideAny s = _
        rw [execClaimOutsideAny, serve_heads head (by simp [isClaim, m])]
        unfold State.claimAny
        simp only [m, Message.tag]
        rw [if_pos ⟨tagged, able⟩, if_pos (by exact rank)]
    rw [granted]
    exact grant_settles calm head room routine none_ line present
  · rw [claimOutside_served head tagged m]
    refine claim_refused room ?_
    unfold State.decideOutside
    rw [show (s.taken rest).vsw.line = .out from out]
  · rw [claimOutside_served head tagged m]
    refine claim_refused room ?_
    unfold State.decideOutside
    rcases busy with line | line | line <;> rw [show (s.taken rest).vsw.line = _ from line]
  · rw [claimOutside_served head tagged m]
    exact claim_deferred line stage space
  · rw [claimOutside_served head tagged m]
    refine claim_refused room ?_
    unfold State.decideOutside
    rw [show (s.taken rest).vsw.line = .ringIn from line]
    dsimp only
    rw [show (s.taken rest).incomingCall = none from unknown]
  · have found : (s.taken rest).incomingCall = some c := by
      simp [State.incomingCall, State.taken, one, outside, incoming, setup]
    have answers : (s.taken rest).decideOutside (.station d.src tag .outside) =
        (s.taken rest).answerIncoming (.station d.src tag .outside) c.id := by
      unfold State.decideOutside
      rw [show (s.taken rest).vsw.line = .ringIn from line]
      dsimp only
      rw [found]
    rw [claimOutside_served head tagged m, answers]
    exact answer_settles (tag := tag) (k := .outside) (rest := rest) away supply portB idle room one outside
      setup empty unrung (unclaimed_free head.2) present
  · rw [claimOutside_served head tagged m]
    exact claim_aborts stage line space
  · show execClaimOutsideAny s = _
    rw [execClaimOutsideAny]
    refine finish_serve head (by simp [isClaim, m]) ?_ (undisturbed_taken.onCct rfl rfl)
    have served' : (s.taken rest).canServe (.station d.src tag .outsideAny) = true := served
    have other : ¬ (s.taken rest).cfl.rank = 1 := by
      rw [show (s.taken rest).cfl.rank = 2 from rank]
      decide
    unfold State.claimAny
    simp only [m, Message.tag]
    rw [if_pos ⟨tagged, served'⟩, if_neg other]
    rfl

end Sys2Proof.Proofs.Outside
end

section
/-! Pending and granted claims end (O23). -/

set_option Elab.async false

namespace Sys2Proof.Proofs.Grants

open Sys2Proof Sys2Proof.Machine Sys2Proof.Proofs.Steps Sys2Proof.Proofs.Requests Sys2Proof.Proofs.Timers
open Sys2Proof.Proofs.Calls Sys2Proof.Proofs.Cadences Sys2Proof.Proofs.Outside

variable {s t u before : State} {d : Delivered} {rest : List Delivered} {n tag : Nat}

/-! ### What is overheard -/

theorem popRequest_taken (head : s.ybi.rxBuffer = d :: rest) : s.popRequest = s.taken rest := by
  simp [State.popRequest, State.taken, State.onYbi, head]

/-- The conditions of a phase are those of its kind. -/
theorem phaseReady_mono (survey : u.lth = t.lth) (voltage : t.voltageReady = true → u.voltageReady = true)
    (metallic : ∀ r, t.metallicReady r = true → u.metallicReady r = true) (ready : t.phaseReady = true) :
    u.phaseReady = true := by
  revert ready
  unfold State.phaseReady
  rw [survey]
  split
  · exact voltage
  · exact metallic _
  · exact id

/-- Claims that leave the lists disturb nothing: a phase that was ready is so still. -/
theorem undisturbed_dropped {f : Cct → Cct} (calm : Undisturbed t s) (calls : (f t.cct).calls = t.cct.calls)
    (fewer : t.cct.deferred = [] → (f t.cct).deferred = []) : Undisturbed (t.onCct f) s := by
  obtain ⟨supply, same, ready, presence, portA, portB, burst, episodes, driven, line, link, stage, running, phase⟩ := calm
  refine ⟨supply, calls.trans same, ready, presence, portA, portB, burst, episodes, driven, line, link, stage, running,
    fun due => ?_⟩
  have ready' := phase due
  have voltage (v : t.voltageReady = true) : (t.onCct f).voltageReady = true := by
    simp only [State.voltageReady, Bool.and_eq_true, List.isEmpty_iff] at v ⊢
    exact ⟨⟨v.1.1, fewer v.1.2⟩, v.2⟩
  have metallic (r : Machine.Survey) (v : t.metallicReady r = true) : (t.onCct f).metallicReady r = true := by
    simp only [State.metallicReady, Bool.and_eq_true, State.onCct_cct, calls] at v ⊢
    exact ⟨⟨⟨voltage v.1.1.1, v.1.1.2⟩, v.1.2⟩, v.2⟩
  exact phaseReady_mono (t := t) rfl voltage metallic ready'

theorem grant_overheard {id : Nat} {e : PresenceEntry} (head : s.ybi.rxBuffer = d :: rest) (other : s.forPart d.dest = false)
    (m : d.message = .grant tag id) (found : s.entryOf d.src = some e) (role : e.role = .lineUnit) :
    exec .overheardGrant s = .next ((s.taken rest).onCct fun t =>
      { t with
        deferred := t.deferred.filter (fun x => !decide (x.endpoint = .station d.src))
        pendingAny := t.pendingAny.filter (fun p => !(p.station == d.dest && p.tag == tag)) }) := by
  have known : (((s.taken rest).dropDeferred d.src).entryOf d.src).any (fun e => decide (e.role = .lineUnit)) = true := by
    rw [show ((s.taken rest).dropDeferred d.src).entryOf d.src = some e from found]
    simp [role]
  have heard : s.hearGrant d tag = (s.taken rest).onCct fun t =>
      { t with
        deferred := t.deferred.filter (fun x => !decide (x.endpoint = .station d.src))
        pendingAny := t.pendingAny.filter (fun p => !(p.station == d.dest && p.tag == tag)) } := by
    unfold State.hearGrant
    simp only [popRequest_taken head]
    rw [show (s.taken rest).forPart d.dest = false from other]
    exact if_pos known
  show execOverheardGrant s = _
  rw [execOverheardGrant]
  simp only [State.requestFor, head, isGrant, m, if_true, heard]
  exact finish_undisturbed (undisturbed_dropped undisturbed_taken rfl fun none_ => by rw [none_]; rfl)

theorem take_overheard (head : s.ybi.rxBuffer = d :: rest) (other : s.forPart d.dest = false) (m : d.message = .take tag)
    (free : s.expectation d.src = none) :
    exec .overheardTake s = .next ((s.taken rest).onCct fun t =>
      { t with
        deferred := t.deferred.filter (fun x => !decide (x.endpoint = .station d.src))
        pendingAny := t.pendingAny.filter (fun p => !(p.station == d.src && p.tag == tag)) }) := by
  have heard : s.hearTake d tag = (s.taken rest).onCct fun t =>
      { t with
        deferred := t.deferred.filter (fun x => !decide (x.endpoint = .station d.src))
        pendingAny := t.pendingAny.filter (fun p => !(p.station == d.src && p.tag == tag)) } := by
    unfold State.hearTake
    simp only [popRequest_taken head]
    rw [show (State.dropPending d.src tag ((s.taken rest).dropDeferred d.src)).expectation d.src = none from free]
    rfl
  show execOverheardTake s = _
  rw [execOverheardTake]
  simp only [State.requestFor, head, isTake, m, other, Bool.not_false, Bool.and_self, if_true, Message.tag, heard]
  exact finish_undisturbed (undisturbed_dropped undisturbed_taken rfl fun none_ => by rw [none_]; rfl)

/-! ### A grant that is not taken (R137, R138) -/

theorem grant_withdrawn {x : GrantExpectation} {c : CallRec} (calm : s.calm) (expected : s.expectation n = some x)
    (due : s.now ≤ x.deadline) (room : s.callRoom) (one : s.cct.calls = [c]) (id : c.id = x.callId) (outside : c.kind = .outside)
    (active : c.state = .active) (unsaved : c.saved = none) (plain : c.originator = none)
    (party : c.parties = [{ who := .station n, mark := .awaitingTake }]) :
    ∃ t, exec (.grantDeadlineExpiry n) s = .next t ∧
      t = { s with now := t.now, ybi := t.ybi, vsw := t.vsw, cct := t.cct, lth := t.lth, flt := t.flt, ctb := t.ctb } ∧
      t.expectation n = none ∧
      t.cct = { s.cct with calls := [clearingOf c x.deadline] } ∧ t.vsw.line = .releasing ∧ t.now = x.deadline ∧
      releaseFrame n c.id ∈ t.ybi.call := by
  obtain ⟨u, same⟩ : ∃ u, u = (State.clearExpectation n { s with now := x.deadline }).onYbi fun y =>
      { y with call := y.call ++ [releaseFrame n c.id] } := ⟨_, rfl⟩
  have one' : u.cct.calls = [c] := by rw [same]; exact one
  have left := leave_single one' outside active party rfl plain
  have undone : State.withdraw n true false { s with now := x.deadline } = u.leave c.id (.station n) := by
    unfold State.withdraw
    rw [show ({ s with now := x.deadline } : State).expectation n = some x from expected]
    simp only [if_true, Bool.false_eq_true, if_false, ← id]
    rw [handCall_room (by exact room), ← same]
    simp [State.undoGrant, callOf_single one', CallRec.owner, party, unsaved, outside]
  have now : u.now = x.deadline := by rw [same]; rfl
  rw [now] at left
  have moved := CallsMoved.of_cleared calm left (by rw [same]; rfl) (by rw [same]; rfl) (by rw [same]; rfl) (by rw [same]; rfl)
    (by rw [same]; rfl) (changed_of_state one (by simp [active]))
  have next : exec (.grantDeadlineExpiry n) s = .next ((u.leave c.id (.station n)).onVsw fun v =>
      { v with pairSpeech := (u.leave c.id (.station n)).cct.pairCall }) := by
    show execGrantDeadlineExpiry n s = _
    rw [execGrantDeadlineExpiry, expected]
    dsimp only [Option.map]
    rw [onExpiry_some rfl, reach_of_le due calm.1, undone]
    exact finish_calls calm moved
  have frame := left.frame
  have line := left.line
  obtain ⟨e, found, -⟩ := Option.bind_eq_some_iff.1 expected
  have cleared : u.expectation n = none := by
    have entry := entryOf_onEntry (g := fun e : PresenceEntry => { e with grant := none }) (fun _ => rfl) found
    rw [same]
    show ((State.onEntry n (fun e => { e with grant := none }) s).entryOf n).bind (·.grant) = none
    rw [entry]
    rfl
  generalize u.leave c.id (.station n) = w at next frame line
  refine ⟨_, next, ?_, ?_, ?_, line, ?_, ?_⟩
  · rw [frame, same]
    rfl
  · rw [frame]
    exact cleared
  · rw [frame, same]
    rfl
  · rw [frame]
    exact now
  · rw [frame, same]
    exact List.mem_append_right _ (List.mem_singleton_self _)

/-! ### A pending claim of any line (R145) -/

section pending
variable {p : PendingAny}

/-- The entry of the station has left the pending list. -/
def unpended (p : PendingAny) (s : State) : State :=
  s.onCct fun c => { c with pendingAny := c.pendingAny.filter (fun q => q.station != p.station) }

theorem pending_dropped (found : s.cct.pendingAny.find? (fun p => p.station == n) = some p) (idle : s.vsw.line ≠ .idle)
    (silent : s.vsw.line ≠ .ringIn) : exec (.pendingAnyExpiry n) s = .next (unpended p (s.reach p.deadline)) := by
  have unable : (unpended p (s.reach p.deadline)).canServe (.station p.station p.tag .outsideAny) = false := by
    have line : (unpended p (s.reach p.deadline)).vsw.line = s.vsw.line := congrArg Vsw.line (reach_vsw _ s)
    unfold State.canServe
    rw [line]
    split
    · exact absurd ‹_› idle
    · exact absurd ‹_› silent
    · rfl
  have done : State.anyExpires p (s.reach p.deadline) = unpended p (s.reach p.deadline) := by
    unfold State.anyExpires
    exact if_neg (by
      show ¬ (unpended p (s.reach p.deadline)).canServe _ = true
      rw [unable]
      decide)
  show execPendingAnyExpiry n s = _
  rw [execPendingAnyExpiry, found]
  dsimp only
  rw [done]
  exact finish_undisturbed ((reach_undisturbed _ s).onCct rfl rfl)

theorem pending_granted (found : s.cct.pendingAny.find? (fun p => p.station == n) = some p) (due : s.now ≤ p.deadline)
    (calm : s.calm) (room : s.callRoom) (none_ : s.cct.calls = []) (line : s.vsw.line = .idle)
    (present : s.isPresent p.station = true) (free : s.expectation p.station = none) :
    ∃ t, exec (.pendingAnyExpiry n) s = .next t ∧
      t = { s with now := t.now, ybi := t.ybi, vsw := t.vsw, cct := t.cct, lth := t.lth, flt := t.flt, ctb := t.ctb } ∧
      t.now = p.deadline ∧ t.vsw.line = .seized ∧
      t.cct = { s.cct with
        nextCallId := nextCallId s.cct.nextCallId
        pendingAny := s.cct.pendingAny.filter (fun q => q.station != p.station)
        calls := [outsideOf s.cct.nextCallId p.station] } ∧
      t.expectation p.station = some { tag := p.tag, callId := s.cct.nextCallId, deadline := p.deadline + 2000 } ∧
      grantFrame p.station p.tag s.cct.nextCallId 2 ∈ t.ybi.call := by
  have test := outsideTest_free (s := unpended p { s with now := p.deadline }) (tag := p.tag) (k := .outsideAny) none_ free present
  have able : (unpended p { s with now := p.deadline }).canServe (.station p.station p.tag .outsideAny) = true := by
    unfold State.canServe
    rw [show (unpended p { s with now := p.deadline }).vsw.line = .idle from line]
    dsimp only
    rw [test]
    rfl
  have done : State.anyExpires p { s with now := p.deadline } =
      (unpended p { s with now := p.deadline }).decideOutside (.station p.station p.tag .outsideAny) := if_pos able
  rw [decideOutside_idle (s := unpended p { s with now := p.deadline }) line none_ free present room] at done
  have relines := relines_seized p.station (unpended p { s with now := p.deadline })
  have next : exec (.pendingAnyExpiry n) s = finish s (State.anyExpires p { s with now := p.deadline }) := by
    show execPendingAnyExpiry n s = _
    rw [execPendingAnyExpiry, found]
    dsimp only
    rw [reach_of_le due calm.1]
  rw [done, finish_calls calm (seized_moved (s := unpended p { s with now := p.deadline }) calm none_ rfl rfl rfl rfl rfl)] at next
  have frame := relines.frame
  have line' := relines.line
  generalize seized p.station (unpended p { s with now := p.deadline }) = w at next frame line'
  refine ⟨_, next, ?_, ?_, line', ?_, expectation_awaiting present ?_, ?_⟩
  · rw [frame]
    rfl
  · rw [frame]
    rfl
  · rw [frame]
    rfl
  · rw [frame]
    rfl
  · exact List.mem_append_right _ (List.mem_singleton_self _)

end pending

/-- Settles O23, by what ends the claim. -/
theorem pendingAndGrantedClaimsEnd : Obligations.PendingAndGrantedClaimsEnd :=
  ⟨fun _ _ _ _ _ head other => ⟨fun _ m found role => grant_overheard head other m found role,
      fun m free => take_overheard head other m free⟩,
    fun _ _ _ _ calm expected due room one id outside active unsaved plain party =>
      grant_withdrawn calm expected due room one id outside active unsaved plain party,
    fun _ _ _ found due => ⟨fun idle silent => pending_dropped found idle silent,
      fun calm room none_ line present free => pending_granted found due calm room none_ line present free⟩⟩

end Sys2Proof.Proofs.Grants
end

section
/-! The timers of calls run out (O24). -/

set_option Elab.async false

namespace Sys2Proof.Proofs.CallTimers

open Sys2Proof Sys2Proof.Machine Sys2Proof.Proofs.Steps Sys2Proof.Proofs.Timers Sys2Proof.Proofs.Calls
open Sys2Proof.Proofs.Incoming Sys2Proof.Proofs.Answers Sys2Proof.Proofs.PortRings

variable {s t u before : State} {c : CallRec} {dl n : Nat}

/-! ### A call is removed -/

theorem removeCall_single (one : s.cct.calls = [c]) : s.removeCall c.id =
    c.parties.foldl (fun s p => s.dismiss c.id p.who) (s.onCct fun t => { t with calls := [] }) := by
  unfold State.removeCall
  rw [callOf_single one]
  simp [State.onCct, one]

/-- A station that is put out of a call is told; of its entry the grant alone may go. -/
theorem dismiss_station (room : s.callRoom) (id : Nat) : ∃ l, s.dismiss id (.station n) = s.onYbi fun y =>
    { y with presence := l, call := y.call ++ [releaseFrame n id] } := by
  unfold State.dismiss
  dsimp only
  split
  · split
    · rw [handCall_room (by exact room)]
      exact ⟨_, rfl⟩
    · rw [handCall_room room]
      exact ⟨s.ybi.presence, rfl⟩
  · rw [handCall_room room]
    exact ⟨s.ybi.presence, rfl⟩

/-- The ringing of an intercom that nobody answers ends (R144). -/
theorem intercom_unanswered {e : Episode} (away : s.lle.link ≠ .showtime) (supply : s.sup.supply = .mains)
    (portB : s.vsw.portB.state ≠ .outOfService) (idle : s.lth.stage = .none) (one : s.cct.calls = [c]) (due : s.now ≤ dl)
    (timer : c.ringTimer = some dl) (party : c.parties = [{ who := .station n, mark := .connected }])
    (rings : s.vsw.episodes = [e]) (id : e.callId = c.id) (mute : s.ybi.listenOnly = false) (length : s.ybi.call.length < 7) :
    ∃ t, exec (.intercomRingExpiry c.id) s = .next t ∧
      t = { s with now := dl, ybi := t.ybi, sup := t.sup, vsw := t.vsw, cct := t.cct, flt := t.flt } ∧
      t.cct = { s.cct with calls := [] } ∧
      t.ybi.call = s.ybi.call ++ [releaseFrame n c.id, ringEndFrame c.id false] ∧
      t.vsw = { s.vsw with
        episodes := [], plan := RingPlan.empty, pairSpeech := none, pairRinging := t.vsw.pairRinging
        portA := if s.vsw.portA.state = .ringing then PortRec.onHookAt dl else s.vsw.portA
        portB := if s.vsw.portB.state = .ringing then PortRec.onHookAt dl else s.vsw.portB } := by
  obtain ⟨l, told⟩ := dismiss_station (s := (({ s with now := dl } : State).onCct fun t => { t with calls := [] })) (n := n)
    ⟨mute, by simp only [State.onCct_ybi, Config.queueCapacity]; omega⟩ c.id
  have removed : State.removeCall c.id { s with now := dl } =
      (({ s with now := dl } : State).onCct fun t => { t with calls := [] }).onYbi fun y =>
        { y with presence := l, call := y.call ++ [releaseFrame n c.id] } := by
    rw [removeCall_single (s := { s with now := dl }) one, party]
    exact told
  obtain ⟨v, same⟩ : ∃ v, v = (({ s with now := dl } : State).onCct fun t => { t with calls := [] }).onYbi fun y =>
    { y with presence := l, call := y.call ++ [releaseFrame n c.id] } := ⟨_, rfl⟩
  rw [← same] at removed
  have none_ : v.cct.calls = [] := by rw [same]; rfl
  have room : v.callRoom := ⟨by rw [same]; exact mute, by
    rw [same]
    simp [State.onYbi, Config.queueCapacity]
    omega⟩
  obtain ⟨w, settled, frame, vsw, call⟩ := settle_ringEnd (s := s) (v := v) (e := e) (c := c) (by rw [same]; rfl)
    (by rw [same]; rfl) (by rw [same]; rfl) away (by rw [same]; exact idle) one supply (by rw [same]; exact portB)
    (by rw [same]; exact rings) room none_
  have pair := (settle_rings (t := v) (before := s) (by rw [same]; exact away) (by rw [same]; simp [State.linkStill])
    (by rw [same]; exact idle) (servePortB_stands (by rw [same]; exact supply) (by rw [same]; exact portB))
    (settleRecall_noHeld (by simp [none_])) (by simp [none_, one])).pair
  rw [settled, show v.cct.pairCall = none by simp [Cct.pairCall, none_]] at pair
  rw [pair] at vsw
  refine ⟨w, ?_, ?_, ?_, ?_, ?_⟩
  · show execIntercomRingExpiry c.id s = _
    rw [execIntercomRingExpiry, callOf_single one]
    dsimp only [Option.bind]
    rw [timer, onExpiry_some rfl, reach_of_le due away, removed]
    exact congrArg _ settled
  · rw [frame, same]
    rfl
  · rw [frame, same]
    rfl
  · rw [call, same, id]
    simp [State.onYbi]
  · rw [vsw, same]
    rfl

/-! ### The hold ends, and the record leaves -/

theorem holdTimerOf_single {k : Hold} (one : s.cct.calls = [c]) (hold : c.hold = some k) (f : Hold → Timer) :
    s.holdTimerOf c.id f = f k := by
  simp [State.holdTimerOf, callOf_single one, hold]

theorem hold_released {k : Hold} (calm : s.calm) (one : s.cct.calls = [c]) (due : s.now ≤ dl)
    (held : c.state = .held) (hold : c.hold = some k) (timer : k.releaseTimer = some dl) :
    ∃ t, exec (.holdAgeRelease c.id) s = .next t ∧
      t = { s with now := t.now, ybi := t.ybi, vsw := t.vsw, cct := t.cct, lth := t.lth, flt := t.flt, ctb := t.ctb } ∧
      t.cct = { s.cct with calls := [clearingOf c dl] } ∧ t.now = dl ∧
      t.vsw.line = .releasing ∧ t.vsw.pairSpeech = none := by
  have cleared := toClearing_single (s := { s with now := dl }) one
  have moved := CallsMoved.of_cleared calm cleared rfl rfl rfl rfl rfl (changed_of_state one (by simp [held]))
  have next : exec (.holdAgeRelease c.id) s = finish s (State.toClearing c.id { s with now := dl }) := by
    show execHoldAgeRelease c.id s = _
    rw [execHoldAgeRelease, holdTimerOf_single one hold, timer, onExpiry_some rfl, reach_of_le due calm.1]
  rw [finish_calls calm moved] at next
  have frame := cleared.frame
  have line := cleared.line
  generalize State.toClearing c.id { s with now := dl } = w at next frame line
  have cct : w.cct = { s.cct with calls := [clearingOf c dl] } := by rw [frame]; rfl
  refine ⟨_, next, ?_, cct, ?_, line, pairCall_cleared (by rw [cct])⟩
  · rw [frame]
    rfl
  · rw [frame]
    rfl

theorem record_leaves (calm : s.calm) (one : s.cct.calls = [c]) (due : s.now ≤ dl) (timer : c.guardTimer = some dl)
    (empty : c.parties = []) : exec (.clearingGuardExpiry c.id) s = .next
      (((s.reach dl).onCct fun t => { t with calls := [] }).onVsw fun v => { v with pairSpeech := none }) := by
  have ⟨away, silent, _, _, idle⟩ := calm
  have removed : State.removeCall c.id { s with now := dl } =
      ({ s with now := dl } : State).onCct fun t => { t with calls := [] } := by
    rw [removeCall_single (s := { s with now := dl }) one, empty]
    rfl
  have moved : CallsMoved s (({ s with now := dl } : State).onCct fun t => { t with calls := [] }) :=
    ⟨rfl, rfl, rfl, rfl, rfl, silent, rfl, by simp, idle, by simp [one]⟩
  have next : exec (.clearingGuardExpiry c.id) s = finish s (State.removeCall c.id { s with now := dl }) := by
    show execClearingGuardExpiry c.id s = _
    rw [execClearingGuardExpiry, callOf_single one]
    dsimp only [Option.bind]
    rw [timer, onExpiry_some rfl, reach_of_le due away]
  rw [next, removed, finish_calls calm moved, reach_of_le due away]
  rfl

/-! ### The recall (R151) -/

section recalls
variable {k : Hold} {p : Party}

/-- The call with its recall in a state, and no recall due. -/
abbrev recalledOf (c : CallRec) (k : Hold) (x : RecallState) (retry : Timer) (rung : Option Endpoint) : CallRec :=
  { c with rung := rung, hold := some { k with recallState := x, recallTimer := none, retryTimer := retry } }

theorem attemptRecall_portA (one : s.cct.calls = [c]) (held : c.state = .held) (hold : c.hold = some k)
    (plain : k.retriever = none) (party : c.parties = [p]) (who : p.who = .port .a) (onHook : s.vsw.portA.state = .onHook) :
    s.attemptRecall c = s.onCct fun x => { x with
      calls := [{ c with rung := some (.port .a), hold := some { k with recallState := .ringing, retryTimer := none } }] } := by
  have target : c.recallTarget = some (.port .a) := by simp [CallRec.recallTarget, hold, plain, CallRec.owner, party, who]
  have free : s.busy (some c.id) (.port .a) = false := by
    simp [State.busy, State.port, onHook, State.liveCallOf, State.rungElsewhere, one, CallRec.isLive, held]
  unfold State.attemptRecall
  rw [target]
  simp only [free, State.absent, Bool.or_self, Bool.false_eq_true, if_false]
  rw [onCall_single one]
  simp [CallRec.onHold, hold]

theorem attemptRecall_absent (one : s.cct.calls = [c]) (hold : c.hold = some k)
    (plain : k.retriever = none) (party : c.parties = [p]) (who : p.who = .station n) (absent : s.isPresent n = false) :
    s.attemptRecall c = s.onCct fun x => { x with
      calls := [{ c with
        rung := none, hold := some { k with recallState := .waiting, retryTimer := some (s.now + 30000) } }] } := by
  have target : c.recallTarget = some (.station n) := by simp [CallRec.recallTarget, hold, plain, CallRec.owner, party, who]
  unfold State.attemptRecall
  rw [target]
  simp only [State.absent, absent, Bool.not_false, Bool.or_true, if_true, State.recallWaits]
  rw [onCall_single one]
  simp [CallRec.onHold, hold, Config.recallRetryMs]

/-- The recall is attempted at the hold age or at the end of a wait, with the timer that ran out cleared. -/
theorem recall_attempted {i : Instr} (calm : s.calm) (one : s.cct.calls = [c]) (due : s.now ≤ dl) (hold : c.hold = some k)
    (quiet : k.recallState ≠ .ringing)
    (timer : (i = .holdAgeRecall c.id ∧ k.recallTimer = some dl) ∨
      (i = .recallRetryExpiry c.id ∧ k.retryTimer = some dl ∧ k.recallTimer = none)) :
    ∃ q : Hold, q.retriever = k.retriever ∧
      (∀ x y, ({ q with recallState := x, retryTimer := y } : Hold) = { k with recallState := x, recallTimer := none, retryTimer := y }) ∧
      exec i s = finish s (State.attemptRecall { c with hold := some q }
        (({ s with now := dl } : State).onCct fun t => { t with calls := [{ c with hold := some q }] })) := by
  rcases timer with ⟨rfl, timer⟩ | ⟨rfl, timer, none_⟩
  · refine ⟨{ k with recallTimer := none }, rfl, fun _ _ => rfl, ?_⟩
    show execHoldAgeRecall c.id s = _
    rw [execHoldAgeRecall, holdTimerOf_single one hold, timer, onExpiry_some rfl, reach_of_le due calm.1]
    unfold State.recallDue
    rw [onCall_single (s := { s with now := dl }) one]
    simp only [CallRec.onHold, hold, Option.map_some]
    rw [callOf_single (c := { c with hold := some { k with recallTimer := none } })
      (s := ({ s with now := dl } : State).onCct fun t => { t with calls := [{ c with hold := some { k with recallTimer := none } }] }) rfl]
    simp only [Option.map_some, Option.some.injEq, quiet, if_false]
  · refine ⟨{ k with retryTimer := none }, rfl, fun _ _ => by rw [← none_], ?_⟩
    show execRecallRetryExpiry c.id s = _
    rw [execRecallRetryExpiry, holdTimerOf_single one hold, timer, onExpiry_some rfl, reach_of_le due calm.1]
    unfold State.recallAgain
    rw [onCall_single (s := { s with now := dl }) one]
    simp only [CallRec.onHold, hold, Option.map_some]
    rw [callOf_single (c := { c with hold := some { k with retryTimer := none } })
      (s := ({ s with now := dl } : State).onCct fun t => { t with calls := [{ c with hold := some { k with retryTimer := none } }] }) rfl]

theorem recall_changes (one : s.cct.calls = [c]) (hold : c.hold = some k) (quiet : k.recallState ≠ .ringing)
    {i : Instr} {x : RecallState} {y : Timer} {e : Option Endpoint}
    (timer : (i = .holdAgeRecall c.id ∧ k.recallTimer = some dl) ∨
      (i = .recallRetryExpiry c.id ∧ k.retryTimer = some dl ∧ k.recallTimer = none))
    (new : x = .ringing ∨ y ≠ some dl) : [recalledOf c k x y e] ≠ s.cct.calls := by
  rw [one]
  intro same
  have holds : ({ k with recallState := x, recallTimer := none, retryTimer := y } : Hold) = k := by
    have := congrArg CallRec.hold (List.head_eq_of_cons_eq same)
    rw [hold] at this
    exact Option.some.inj this
  rcases timer with ⟨-, timer⟩ | ⟨-, timer, -⟩
  · have := congrArg Hold.recallTimer holds
    rw [timer] at this
    cases this
  · rcases new with rfl | other
    · exact quiet (congrArg Hold.recallState holds).symm
    · exact other ((congrArg Hold.retryTimer holds).trans timer)

/-- A recall of a port that is free rings it. -/
theorem recall_rings {i : Instr} (calm : s.calm) (room : s.callRoom) (inRange : s.cfl.record.inRange = true)
    (one : s.cct.calls = [c]) (due : s.now ≤ dl) (outside : c.kind = .outside) (held : c.state = .held) (hold : c.hold = some k)
    (plain : k.retriever = none) (quiet : k.recallState ≠ .ringing) (party : c.parties = [p])
    (timer : (i = .holdAgeRecall c.id ∧ k.recallTimer = some dl) ∨
      (i = .recallRetryExpiry c.id ∧ k.retryTimer = some dl ∧ k.recallTimer = none))
    (who : p.who = .port .a) (onHook : s.vsw.portA.state = .onHook) :
    ∃ t, exec i s = .next t ∧
      t = { s with now := t.now, ybi := t.ybi, sup := t.sup, vsw := t.vsw, cct := t.cct, flt := t.flt } ∧
      t.now = dl ∧ t.cct = { s.cct with calls := [recalledOf c k .ringing none (some (.port .a))] } ∧
      t.vsw.episodes.map (fun e => (e.callId, e.kind)) = [(c.id, .recall)] := by
  obtain ⟨q, retriever, keeps, next⟩ := recall_attempted calm one due hold quiet timer
  have changed := recall_changes (x := .ringing) (y := none) (e := some (.port .a)) one hold quiet timer (.inl rfl)
  obtain ⟨away, silent, supply, portB, idle⟩ := calm
  have rung := attemptRecall_portA (c := { c with hold := some q })
    (s := ({ s with now := dl } : State).onCct fun t => { t with calls := [{ c with hold := some q }] }) rfl held rfl
    (retriever.trans plain) party who onHook
  dsimp only at rung
  rw [keeps] at rung
  rw [rung] at next
  obtain ⟨w, same⟩ : ∃ w, w = ({ s with
    now := dl, cct := { s.cct with calls := [recalledOf c k .ringing none (some (.port .a))] } } : State) := ⟨_, rfl⟩
  have next' : exec i s = finish s w := by
    rw [next, same]
    rfl
  have cct : w.cct = { s.cct with calls := [recalledOf c k .ringing none (some (.port .a))] } := by rw [same]
  have goesOn : w.settleRecall s = w := by
    have free : w.busy (some c.id) (.port .a) = false := by
      simp [State.busy, State.port, State.liveCallOf, State.rungElsewhere, CallRec.isLive, held, same, onHook]
    unfold State.settleRecall
    split
    · rfl
    · rw [cct]
      simp [held, free, State.absent]
  have wanted : w.cct.episodes = [(c.id, .recall)] := by
    rw [cct]
    simp [Cct.episodes, CallRec.episode, outside, held]
  have target : ∀ x, (w.callOf c.id).any (fun c => decide (c.rung = some x)) = true → x = .port .a := by
    simp [State.callOf, cct]
  have units : s.cfl.record.unitsA ≤ 5 := by
    simp only [ConfigRecord.inRange, Bool.and_eq_true, decide_eq_true_eq] at inRange
    omega
  have solo := settle_solo (t := w) (before := s) (by rw [same]; exact away) (by rw [same]; simp [State.linkStill])
    (by rw [same]; exact idle) (servePortB_stands (by rw [same]; exact supply) (by rw [same]; exact portB)) goesOn
    (by rw [cct]; exact changed) (by rw [same]; exact silent) wanted nofun target (by rw [same]; exact supply)
    (by rw [same]; exact units) (by rw [same]; exact room)
  rw [next']
  refine ⟨w.settle s, rfl, ?_⟩
  generalize w.settle s = u at solo ⊢
  refine ⟨?_, ?_, ?_, ?_⟩
  · rw [solo, same]
  · rw [solo, same]
  · rw [solo]
    exact cct
  · rw [solo]
    rfl

/-- A recall of a station that is absent waits 30 s. -/
theorem recall_waits {i : Instr} (calm : s.calm) (one : s.cct.calls = [c]) (due : s.now ≤ dl) (held : c.state = .held)
    (hold : c.hold = some k) (outside : c.kind = .outside)
    (plain : k.retriever = none) (quiet : k.recallState ≠ .ringing) (party : c.parties = [p])
    (timer : (i = .holdAgeRecall c.id ∧ k.recallTimer = some dl) ∨
      (i = .recallRetryExpiry c.id ∧ k.retryTimer = some dl ∧ k.recallTimer = none))
    (who : p.who = .station n) (absent : s.isPresent n = false) :
    exec i s = .next { s with
      now := dl, cct := { s.cct with calls := [recalledOf c k .waiting (some (dl + 30000)) none] }
      vsw := { s.vsw with pairSpeech := none } } := by
  obtain ⟨q, retriever, keeps, next⟩ := recall_attempted calm one due hold quiet timer
  have changed := recall_changes (x := .waiting) (y := some (dl + 30000)) (e := none) one hold quiet timer (.inr (by simp))
  have waits := attemptRecall_absent (c := { c with hold := some q })
    (s := ({ s with now := dl } : State).onCct fun t => { t with calls := [{ c with hold := some q }] }) rfl rfl
    (retriever.trans plain) party who absent
  dsimp only at waits
  rw [keeps] at waits
  rw [waits] at next
  have moved : CallsMoved s ({ s with
      now := dl, cct := { s.cct with calls := [recalledOf c k .waiting (some (dl + 30000)) none] } } : State) :=
    ⟨rfl, rfl, rfl, rfl, rfl, calm.2.1, by simp [Cct.episodes, CallRec.episode, outside, held], by simp, calm.2.2.2.2, changed⟩
  have unpaired : ({ s.cct with calls := [recalledOf c k .waiting (some (dl + 30000)) none] } : Cct).pairCall = none := by
    simp [Cct.pairCall, CallRec.usesPair, CallRec.isLive, held]
  rw [next]
  refine (finish_calls calm moved).trans ?_
  simp only [State.onVsw, unpaired]

end recalls

/-- Settles O24, timer by timer. -/
theorem callTimersRunOut : Obligations.CallTimersRunOut :=
  ⟨fun _ _ _ _ _ away supply portB idle one due _ _ timer party rings id _ mute length =>
      intercom_unanswered away supply portB idle one due timer party rings id mute length,
    fun _ _ _ calm one due => ⟨fun _ _ held hold timer => hold_released calm one due held hold timer,
      fun _ timer empty => record_leaves calm one due timer empty⟩,
    fun _ _ _ _ _ _ calm room inRange one due outside held hold plain quiet party timer =>
      ⟨fun who onHook => recall_rings calm room inRange one due outside held hold plain quiet party timer who onHook,
        fun _ who absent => ⟨_, recall_waits calm one due held hold outside plain quiet party timer who absent,
          rfl, rfl, rfl, rfl⟩⟩⟩

end Sys2Proof.Proofs.CallTimers
end

section
/-! The house ports: what settles when a port has gone to another state while nothing rings (O41, O42). -/

set_option Elab.async false

namespace Sys2Proof.Proofs.Hooks

open Sys2Proof Sys2Proof.Machine Sys2Proof.Proofs.Steps Sys2Proof.Proofs.Timers Sys2Proof.Proofs.Checks
open Sys2Proof.Proofs.Settling Sys2Proof.Proofs.Incoming Sys2Proof.Proofs.Answers

variable {s t u before : State} {p : Port} {d : Nat}

/-! ### One port moves -/

/-- Of what settling looks at, the state of the one port alone may have moved. -/
structure PortOnly (p : Port) (s t : State) : Prop where
  frame : t = { s with
    now := t.now, ybi := { s.ybi with routine := t.ybi.routine }, vsw := t.vsw
    cct := { s.cct with deferred := t.cct.deferred }, flt := t.flt }
  other : (t.port (otherPort p)).state = (s.port (otherPort p)).state
  line : t.vsw.line = s.vsw.line
  burst : t.vsw.inBurst = s.vsw.inBurst
  episodes : t.vsw.episodes = s.vsw.episodes

theorem portOnly_onPort (p : Port) (f : PortRec → PortRec) (s : State) (d : Nat) :
    PortOnly p s (({ s with now := d } : State).onPort p f) := by
  cases p <;> exact ⟨rfl, rfl, rfl, rfl, rfl⟩

theorem ports_of (q : Port) (h : (t.port (otherPort q)).state = (s.port (otherPort q)).state)
    (same : (t.port q).state = (s.port q).state) :
    t.vsw.portA.state = s.vsw.portA.state ∧ t.vsw.portB.state = s.vsw.portB.state := by
  cases q
  · exact ⟨same, h⟩
  · exact ⟨h, same⟩

theorem silent_of (q : Port) (silent : s.portsSilent) (h : (t.port (otherPort q)).state = (s.port (otherPort q)).state)
    (own : (t.port q).state ≠ .ringing) : t.portsSilent := by
  cases q
  · exact ⟨own, fun rings => silent.2 (h.symm.trans rings)⟩
  · exact ⟨fun rings => silent.1 (h.symm.trans rings), own⟩

theorem moved_of (q : Port) (h : (t.port q).state ≠ (s.port q).state) :
    t.vsw.portA.state ≠ s.vsw.portA.state ∨ t.vsw.portB.state ≠ s.vsw.portB.state := by
  cases q
  · exact .inl h
  · exact .inr h

/-- A port that has gone to another state computes the ring plan, and nothing else follows (R126). -/
theorem settle_portOnly (calm : s.calm) (noneHeld : s.noneHeld) (h : PortOnly p s t)
    (silent : (s.port p).state ≠ (t.port p).state → s.portsSilent ∧ (t.port p).state ≠ .ringing) :
    t.settle s = t.portMoved (s.port p).state (t.port p).state := by
  obtain ⟨-, quiet, -, -, idle⟩ := calm
  have sup : t.sup = s.sup := by rw [h.frame]
  have calls : t.cct.calls = s.cct.calls := by rw [h.frame]
  have cfl : t.cfl = s.cfl := by rw [h.frame]
  have lth : t.lth = s.lth := by rw [h.frame]
  have presence : t.ybi.presence = s.ybi.presence := by rw [h.frame]
  have link : t.linkStill s = true := by
    rw [h.frame]
    simp [State.linkStill]
  unfold State.portMoved
  split
  · rename_i same
    obtain ⟨portA, portB⟩ := ports_of p h.other same.symm
    exact settle_undisturbed ⟨congrArg _ sup, calls, congrArg _ cfl, presence, portA, portB, h.burst, h.episodes,
      congrArg (·.converter.burst) sup, h.line, link, congrArg _ lth, congrArg _ lth,
      fun ready => by simp [State.phaseReady, idle] at ready⟩
  · rename_i differs
    obtain ⟨silent, own⟩ := silent differs
    have idle' : t.lth.stage = .none := by rw [lth]; exact idle
    exact settle_portMoved (congrArg _ sup) calls (congrArg _ cfl) (by rw [calls]; exact noneHeld)
      (h.episodes.trans quiet) (silent_of p silent h.other own) (congrArg (·.converter.burst) sup) h.line link
      (by rw [idle']; nofun) (by rw [idle']; nofun) (moved_of p fun x => differs x.symm)

/-- What a change of one port record leaves once all has settled. -/
theorem finish_port (calm : s.calm) (noneHeld : s.noneHeld) {f : PortRec → PortRec}
    (silent : (s.port p).state ≠ (f (s.port p)).state → s.portsSilent ∧ (f (s.port p)).state ≠ .ringing) :
    finish s (({ s with now := d } : State).onPort p f) =
      .next ((({ s with now := d } : State).onPort p f).portMoved (s.port p).state (f (s.port p)).state) := by
  have own := port_onPort p f { s with now := d }
  have settled := settle_portOnly calm noneHeld (portOnly_onPort p f s d) (by rw [own]; exact silent)
  rw [own] at settled
  exact congrArg Host.Outcome.next settled

theorem finish_portMoved (calm : s.calm) (noneHeld : s.noneHeld) {f : PortRec → PortRec} (silent : s.portsSilent)
    (differs : (s.port p).state ≠ (f (s.port p)).state) (own : (f (s.port p)).state ≠ .ringing) :
    finish s (({ s with now := d } : State).onPort p f) =
      .next (({ s with now := d } : State).onPort p f).plannedSilent := by
  rw [finish_port calm noneHeld fun _ => ⟨silent, own⟩, State.portMoved, if_neg differs]

theorem finish_portStays {f : PortRec → PortRec} (same : (f (s.port p)).state = (s.port p).state) :
    finish s (s.onPort p f) = .next (s.onPort p f) :=
  finish_undisturbed ((Undisturbed.refl s).onPort same)

theorem onPort_onPort (p : Port) (f g : PortRec → PortRec) (s : State) :
    (s.onPort p f).onPort p g = s.onPort p (g ∘ f) := by
  cases p <;> rfl

/-! ### The plan without an episode, seen from a state that differs in the ports and the calls -/

theorem noticeRoutine_apart (e : FaultEntry) (v : Vsw) (k : Cct) (s : State) :
    ({ s with vsw := v, cct := k } : State).noticeRoutine e = { s.noticeRoutine e with vsw := v, cct := k } := by
  have sending : ({ s with vsw := v, cct := k } : State).isSending .routine = s.isSending .routine := rfl
  unfold State.noticeRoutine
  rw [sending]
  dsimp only
  split
  · rfl
  · split
    · rfl
    · split
      · rfl
      · split <;> rfl

theorem applyFault_apart {j : FaultKey} (low : j.code.severity ≠ .out) (r : Flt × Bool) (v : Vsw) (k : Cct) (s : State) :
    ({ s with vsw := v, cct := k } : State).applyFault j r = { s.applyFault j r with vsw := v, cct := k } := by
  obtain ⟨f, told⟩ := r
  cases told with
  | false => rfl
  | true =>
    unfold State.applyFault State.notice
    simp only [State.onFlt_flt, if_true, if_neg low]
    cases f.find j with
    | none => rfl
    | some e => exact noticeRoutine_apart e v k (s.onFlt fun _ => f)

/-- A notice of a fault looks at the bus and the table alone. -/
theorem makeInactive_apart {c : FaultCode} (low : c.severity ≠ .out) (x : FaultSource) (v : Vsw) (k : Cct) (s : State) :
    ({ s with vsw := v, cct := k } : State).makeInactive c x = { s.makeInactive c x with vsw := v, cct := k } :=
  applyFault_apart (j := ⟨c, x⟩) low _ v k s

/-- The plan asks the converter and tells of RING_OVERLOAD; both look at neither a port nor a call. -/
theorem askedSilent_apart (v : Vsw) (k : Cct) (s : State) :
    ({ s with vsw := v, cct := k } : State).askedSilent =
      { s.askedSilent with vsw := { v with plan := RingPlan.empty }, cct := k } := by
  have told := makeInactive_apart (c := .ringOverload) (by decide) .pair { v with plan := RingPlan.empty } k
    (s.onVsw fun v => { v with plan := RingPlan.empty })
  unfold State.askedSilent
  have same : ({ s with vsw := v, cct := k } : State).onVsw (fun v => { v with plan := RingPlan.empty }) =
      { s.onVsw (fun v => { v with plan := RingPlan.empty }) with vsw := { v with plan := RingPlan.empty }, cct := k } := rfl
  rw [same, told]
  rfl

theorem plannedSilent_apart (v : Vsw) (k : Cct) (s : State) :
    ({ s with vsw := v, cct := k } : State).plannedSilent = { s.plannedSilent with
      vsw := ({ s with vsw := v, cct := k } : State).plannedSilent.vsw, cct := k } := by
  rw [plannedSilent_eq, plannedSilent_eq, askedSilent_apart]
  dsimp only
  split <;> rfl

theorem portMoved_apart (x y : PortState) (v : Vsw) (k : Cct) (s : State) :
    ({ s with vsw := v, cct := k } : State).portMoved x y = { s.portMoved x y with
      vsw := (({ s with vsw := v, cct := k } : State).portMoved x y).vsw, cct := k } := by
  unfold State.portMoved
  split
  · rfl
  · exact plannedSilent_apart v k s

/-- Of the VSW a plan without an episode leaves all but the plan and the ringing on the pair. -/
theorem portMoved_vsw (x y : PortState) (s : State) : ∃ q r, (s.portMoved x y).vsw = { s.vsw with plan := q, pairRinging := r } := by
  unfold State.portMoved
  split
  · exact ⟨_, _, rfl⟩
  · rw [plannedSilent_eq]
    split
    · exact ⟨_, s.vsw.pairRinging, askedSilent_vsw s⟩
    · refine ⟨RingPlan.empty, false, ?_⟩
      rw [State.onVsw_vsw, askedSilent_vsw]

theorem settlePair_called (changed : t.cct.calls ≠ before.cct.calls) : t.settlePair before =
    if t.sup.converter.burst = before.sup.converter.burst then t.onVsw fun v => { v with pairSpeech := t.cct.pairCall }
    else t.onVsw fun v => { v with pairSpeech := t.cct.pairCall, pairRinging := t.sup.converter.ringsPair } := by
  unfold State.settlePair
  simp only [if_neg changed]
  rfl

/-- A port has gone to another state with a change of the calls, of which no call rings. -/
theorem settle_portCalled (calm : s.calm) (silent : s.portsSilent)
    (frame : t = { s with now := t.now, vsw := t.vsw, cct := { s.cct with calls := t.cct.calls } })
    (other : (t.port (otherPort p)).state = (s.port (otherPort p)).state)
    (burst : t.vsw.inBurst = s.vsw.inBurst) (episodes : t.vsw.episodes = []) (own : (t.port p).state ≠ .ringing)
    (fed : (t.port p).state ≠ .outOfService) (noneHeld : t.noneHeld) (wanted : t.cct.episodes = [])
    (changed : t.cct.calls ≠ s.cct.calls) :
    t.settle s = (t.portMoved (s.port p).state (t.port p).state).onVsw fun v =>
      { v with pairSpeech := t.cct.pairCall } := by
  obtain ⟨away, quiet, mains, portB, idle⟩ := calm
  have sup : t.sup = s.sup := by rw [frame]
  have lle : t.lle = s.lle := by rw [frame]
  have lth : t.lth = s.lth := by rw [frame]
  have portB' : t.vsw.portB.state ≠ .outOfService := by
    cases p
    · exact fun out => portB (other.symm.trans out)
    · exact fed
  have served : t.settlePortB s = t := by
    unfold State.settlePortB
    split
    · rfl
    · exact servePortB_stands (by rw [sup]; exact mains) portB'
  have kept : (t.onVsw fun v => { v with episodes := [] }) = t := by
    unfold State.onVsw
    rw [← episodes]
  have synced : t.syncEpisodes = (t, []) := by simp [State.syncEpisodes, wanted, episodes, kept]
  have ringing : t.settleRinging s =
      if (s.port p).state = (t.port p).state then t else t.askedSilent := by
    unfold State.settleRinging
    simp only [if_neg changed, synced]
    by_cases same : (s.port p).state = (t.port p).state
    · obtain ⟨a, b⟩ := ports_of p other same.symm
      have still : t.planDue s t.vsw.episodes = false := by simp [State.planDue, sup, a, b, episodes]
      have stands : t.vsw.inBurst = s.vsw.inBurst ∧ t.vsw.episodes = s.vsw.episodes := ⟨burst, episodes.trans quiet.symm⟩
      rw [if_pos same, if_neg (by rw [still]; decide), if_pos stands]
    · have moved := moved_of p fun x => same x.symm
      have due : t.planDue s t.vsw.episodes = true := by
        simp only [State.planDue, Bool.or_eq_true, decide_eq_true_eq]
        tauto
      rw [if_pos due, if_neg same, replan_silent [] episodes (silent_of p silent other own)]
  have paired : (t.settleRinging s).settlePair s = (t.portMoved (s.port p).state (t.port p).state).onVsw fun v =>
      { v with pairSpeech := t.cct.pairCall } := by
    rw [ringing]
    obtain ⟨q, f, asked⟩ := askedSilent_frame t
    unfold State.portMoved
    split
    · rw [settlePair_called changed, if_pos (by rw [sup])]
    · have calls : t.askedSilent.cct = t.cct := by rw [asked]
      have burst : t.askedSilent.sup.converter.burst = (t.sup.converter.askedNothing t.now).burst := by rw [asked]
      rw [settlePair_called (by rw [calls]; exact changed), calls, plannedSilent_eq, ← sup]
      by_cases stands : t.askedSilent.sup.converter.burst = t.sup.converter.burst
      · rw [if_pos stands, if_pos stands]
      · have ended : t.askedSilent.sup.converter.ringsPair = false := by
          unfold Converter.ringsPair
          rw [burst, (askedNothing_burst t.now t.sup.converter).resolve_left (by rw [← burst]; exact stands)]
          rfl
        rw [if_neg stands, if_neg stands, ended]
        rfl
  rw [settle_away (by rw [lle]; exact away) (by rw [frame]; simp [State.linkStill]) (by rw [lth]; exact idle), served,
    settleRecall_noHeld noneHeld, paired]

end Sys2Proof.Proofs.Hooks
end

section
/-! The hook of a port and its first digit (O41), and the timers of a port (O42). -/

set_option Elab.async false

namespace Sys2Proof.Proofs.Hooks

open Sys2Proof Sys2Proof.Machine Sys2Proof.Proofs.Steps Sys2Proof.Proofs.Telling Sys2Proof.Proofs.Timers
open Sys2Proof.Proofs.Checks Sys2Proof.Proofs.Calls Sys2Proof.Proofs.Settling Sys2Proof.Proofs.Incoming
open Sys2Proof.Proofs.Answers

variable {s t u before : State} {p : Port} {d : Nat} {c : CallRec}

/-! ### The timers of a port (O42) -/

theorem withdrawPortClaim_none (none_ : s.cct.deferred = []) : s.withdrawPortClaim p = s.onPort p fun r => { r with awaiting := false } := by
  have kept : (s.onCct fun c =>
      { c with deferred := c.deferred.filter (fun x => !decide (x.endpoint = .port p)) }) = s := by
    unfold State.onCct
    beta_reduce
    rw [none_, List.filter_nil, ← none_]
  unfold State.withdrawPortClaim
  rw [kept]

theorem firstWindow_ends (timer : (s.port p).firstDigitTimer = some d)
    (pulses : (s.port p).pulses = 0) (closed : (s.port p).breakStart = none) :
    exec (.firstDigitWindowExpiry p) s =
      .next ((s.reach d).onPort p fun r => { r with firstDigitTimer := none, window := .closed }) := by
  have done : State.firstWindowEnds p (s.reach d) =
      (s.reach d).onPort p fun r => { r with firstDigitTimer := none, window := .closed } := by
    unfold State.firstWindowEnds
    rw [reach_port]
    simp [pulses, closed]
  show execFirstDigitWindowExpiry p s = _
  rw [execFirstDigitWindowExpiry, onExpiry_some timer, done]
  exact finish_undisturbed ((reach_undisturbed d s).onPort rfl)

theorem interDigit_expires (due : s.now ≤ d) (calm : s.calm) (noneHeld : s.noneHeld) (silent : s.portsSilent)
    (timer : (s.port p).interDigitTimer = some d) :
    exec (.interDigitExpiry p) s =
      .next (((s.reach d).onPort p (PortRec.toDialtone .error)).portMoved (s.port p).state .dialtone) := by
  show execInterDigitExpiry p s = _
  rw [execInterDigitExpiry, onExpiry_some timer, reach_of_le due calm.1]
  exact finish_port calm noneHeld fun _ => ⟨silent, nofun⟩

theorem offHook_expires (due : s.now ≤ d) (calm : s.calm) (noneHeld : s.noneHeld) (silent : s.portsSilent)
    (timer : (s.port p).offHookTimer = some d) (none_ : s.cct.deferred = []) :
    exec (.offHookTimerExpiry p) s =
      .next (((s.reach d).onPort p fun r =>
        { r.closed with
          state := .howler, tone := .howl, awaiting := false, offHookTimer := none,
          howlerTimer := some (d + 30000) }).portMoved (s.port p).state .howler) := by
  have done : State.enterHowler p { s with now := d } = ({ s with now := d } : State).onPort p fun r =>
      { r.closed with
        state := .howler, tone := .howl, awaiting := false, offHookTimer := none, howlerTimer := some (d + 30000) } := by
    unfold State.enterHowler
    rw [withdrawPortClaim_none (s := { s with now := d }) none_, onPort_onPort]
    cases p <;> rfl
  show execOffHookTimerExpiry p s = _
  rw [execOffHookTimerExpiry, onExpiry_some timer, reach_of_le due calm.1, done]
  exact finish_port calm noneHeld fun _ => ⟨silent, nofun⟩

/-- A plan without an episode leaves the faults of the ports. -/
theorem portMoved_fault (x y : PortState) (s : State) {j : FaultKey} (other : j ≠ ⟨.ringOverload, .pair⟩) :
    (s.portMoved x y).flt.isActive j = s.flt.isActive j := by
  have asked : s.askedSilent.flt.isActive j = s.flt.isActive j := by
    obtain ⟨q, f, told, keeps⟩ := ringOverload_frame (s.onVsw fun v => { v with plan := RingPlan.empty })
    unfold State.askedSilent
    rw [told]
    exact keeps j other
  unfold State.portMoved
  split
  · rfl
  · rw [plannedSilent_eq]
    split <;> exact asked

/-- What a port's change leaves of the rest of the part. -/
theorem portMoved_frame (x y : PortState) (s : State) : s.portMoved x y = { s with
    ybi := (s.portMoved x y).ybi, vsw := (s.portMoved x y).vsw, flt := (s.portMoved x y).flt
    sup := if x = y then s.sup else { s.sup with converter := s.sup.converter.askedNothing s.now } } := by
  unfold State.portMoved
  split
  · rfl
  · obtain ⟨q, f, asked⟩ := askedSilent_frame s
    rw [plannedSilent_eq, asked]
    split <;> rfl

theorem portMoved_port (x y : PortState) (p : Port) (s : State) : (s.portMoved x y).port p = s.port p := by
  obtain ⟨q, r, vsw⟩ := portMoved_vsw x y s
  unfold State.port
  rw [vsw]

theorem howler_expires (due : s.now ≤ d) (calm : s.calm) (noneHeld : s.noneHeld) (silent : s.portsSilent)
    (timer : (s.port p).howlerTimer = some d) (room : s.flt.entries.length < 16) :
    ∃ t, exec (.howlerTimerExpiry p) s = .next t ∧
      t = { s with now := d, ybi := t.ybi, sup := t.sup, vsw := t.vsw, flt := t.flt } ∧
      t.sup = (if (s.port p).state = .lockedOff then s.sup
        else { s.sup with converter := s.sup.converter.askedNothing d }) ∧
      t.port p = { s.port p with state := .lockedOff, tone := .none, howlerTimer := none } ∧
      t.faultActive .portOffhookLock (.port p) = true := by
  obtain ⟨w, same⟩ : ∃ w, w = ({ s with now := d } : State).onPort p fun r =>
    { r with state := .lockedOff, tone := .none, howlerTimer := none } := ⟨_, rfl⟩
  have own : w.port p = { s.port p with state := .lockedOff, tone := .none, howlerTimer := none } := by
    rw [same, port_onPort]
    rfl
  have only := portOnly_onPort p (fun r => { r with state := .lockedOff, tone := .none, howlerTimer := none }) s d
  rw [← same] at only
  have wframe : w = { s with now := d, vsw := w.vsw } := by rw [same, onPort_frame]
  obtain ⟨q, f, told, firm, -⟩ := raise_room (s := w) (c := .portOffhookLock) (x := .port p) (by decide)
    (by rw [wframe]; exact room)
  have only' : PortOnly p s (w.raise .portOffhookLock (.port p)) := by
    rw [told]
    exact ⟨by rw [wframe], only.other, only.line, only.burst, only.episodes⟩
  have own' : (w.raise .portOffhookLock (.port p)).port p =
      { s.port p with state := .lockedOff, tone := .none, howlerTimer := none } := by
    rw [told]
    exact own
  have settled := settle_portOnly calm noneHeld only' (by rw [own']; exact fun _ => ⟨silent, nofun⟩)
  rw [own'] at settled
  dsimp only at settled
  have next : exec (.howlerTimerExpiry p) s =
      .next ((w.raise .portOffhookLock (.port p)).portMoved (s.port p).state .lockedOff) := by
    show execHowlerTimerExpiry p s = _
    rw [execHowlerTimerExpiry, onExpiry_some timer, reach_of_le due calm.1, ← same]
    exact congrArg _ settled
  have frame := portMoved_frame (s.port p).state .lockedOff (w.raise .portOffhookLock (.port p))
  have fault := portMoved_fault (s.port p).state .lockedOff (w.raise .portOffhookLock (.port p))
    (j := ⟨.portOffhookLock, .port p⟩) (by simp)
  have port := portMoved_port (s.port p).state .lockedOff p (w.raise .portOffhookLock (.port p))
  rw [own'] at port
  generalize (w.raise .portOffhookLock (.port p)).portMoved (s.port p).state .lockedOff = v at next frame fault port
  refine ⟨v, next, ?_, ?_, port, ?_⟩
  · rw [frame, told, wframe]
  · rw [frame, told, wframe]
  · show v.flt.isActive _ = true
    rw [fault, told]
    exact firm.1

/-! ### The post-flash window (R114, R150) -/

/-- The call a port gets back, with the port as its one party. -/
abbrev givenOf (c : CallRec) (p : Port) : CallRec :=
  { c with
    state := .active, parties := [{ who := .port p, mark := .connected }], rung := none, hold := none, saved := none
    everConnected := true }

/-- The port record once the port has its call back. -/
def backInCall (r : PortRec) : PortRec :=
  { r.closed with state := .connected, tone := .none, awaiting := false, offHookTimer := none, postFlash := false }

theorem postFlash_retrieves (one : s.cct.calls = [c]) (held : c.state = .held)
    (party : c.parties = [{ who := .port p, mark := .holder }]) (window : (s.port p).window = .postFlash)
    (pulses : (s.port p).pulses = 0) (closed : (s.port p).breakStart = none) :
    s.postFlashEnds p = (s.onCct fun x => { x with calls := [givenOf c p] }).onPort p backInCall := by
  have owner : c.owner = some (.port p) := by simp [CallRec.owner, party]
  have found (t : State) (same : t.cct = s.cct) : t.heldBy (.port p) = some c ∧ t.liveCallOf (.port p) = none := by
    simp [State.heldBy, State.liveCallOf, same, one, held, owner, CallRec.isLive]
  have lapse : State.lapseWindow p (s.onPort p fun q => { q with postFlashTimer := none }) =
      ((s.onPort p fun q => { q with postFlashTimer := none }).onPort p fun r => { r with window := .closed }).retrieveForPort p := by
    unfold State.lapseWindow
    rw [port_onPort]
    dsimp only
    rw [window]
    rfl
  have cct : ((s.onPort p fun q => { q with postFlashTimer := none }).onPort p fun r => { r with window := .closed }).cct =
      s.cct := by cases p <;> rfl
  unfold State.postFlashEnds
  simp only [pulses, closed, Option.isNone_none, and_self, if_true, lapse]
  unfold State.retrieveForPort
  rw [(found _ cct).1]
  simp only [(found _ cct).2]
  unfold State.giveHeld
  rw [onCall_single (by rw [cct]; exact one)]
  cases p <;> rfl

theorem postFlash_expires (due : s.now ≤ d) (calm : s.calm) (silent : s.portsSilent)
    (timer : (s.port p).postFlashTimer = some d) (window : (s.port p).window = .postFlash) (pulses : (s.port p).pulses = 0)
    (closed : (s.port p).breakStart = none) (one : s.cct.calls = [c]) (outside : c.kind = .outside) (held : c.state = .held)
    (party : c.parties = [{ who := .port p, mark := .holder }]) :
    ∃ t, exec (.postFlashWindowExpiry p) s = .next t ∧
      t = { State.portMoved (s.port p).state .connected { s with now := d } with vsw := t.vsw, cct := t.cct } ∧
      t.cct = { s.cct with calls := [givenOf c p] } ∧
      (t.port p).state = .connected ∧ (t.port p).tone = .none ∧ (t.port p).postFlash = false ∧
      (t.port p).offHookTimer = none ∧ (t.port p).window = .closed ∧ t.vsw.line = s.vsw.line := by
  have done := postFlash_retrieves (s := { s with now := d }) (p := p) one held party window pulses closed
  obtain ⟨w, same⟩ : ∃ w, w = (({ s with now := d } : State).onCct fun x => { x with calls := [givenOf c p] }).onPort p
    backInCall := ⟨_, rfl⟩
  rw [← same] at done
  have cct : w.cct = { s.cct with calls := [givenOf c p] } := by rw [same, onPort_frame]; rfl
  have frame : w = { ({ s with now := d } : State) with vsw := w.vsw, cct := { s.cct with calls := [givenOf c p] } } := by
    rw [same, onPort_frame]
    rfl
  have now : w.now = d := by rw [frame]
  have own : w.port p = backInCall (s.port p) := by
    rw [same, port_onPort]
    rfl
  have other : w.port (otherPort p) = s.port (otherPort p) := by
    rw [same]
    cases p <;> rfl
  have stands : w.vsw.inBurst = s.vsw.inBurst ∧ w.vsw.episodes = s.vsw.episodes ∧ w.vsw.line = s.vsw.line := by
    rw [same]
    cases p <;> exact ⟨rfl, rfl, rfl⟩
  have settled := settle_portCalled (t := w) (p := p) calm silent (by rw [cct, now]; exact frame) (by rw [other]) stands.1
    (stands.2.1.trans calm.2.1) (by rw [own]; exact nofun) (by rw [own]; exact nofun)
    (by rw [State.noneHeld, cct]; simp)
    (by rw [cct]; simp [Cct.episodes, CallRec.episode, outside])
    (by rw [cct]; exact (changed_of_state (x := givenOf c p) one (by simp [held])).symm)
  have state : (w.port p).state = .connected := by rw [own]; rfl
  rw [state] at settled
  have next : exec (.postFlashWindowExpiry p) s = .next ((w.portMoved (s.port p).state .connected).onVsw fun v =>
      { v with pairSpeech := w.cct.pairCall }) := by
    show execPostFlashWindowExpiry p s = _
    rw [execPostFlashWindowExpiry, onExpiry_some timer, reach_of_le due calm.1, done]
    exact congrArg _ settled
  have apart := portMoved_apart (s.port p).state .connected w.vsw { s.cct with calls := [givenOf c p] } { s with now := d }
  rw [← frame] at apart
  have port := portMoved_port (s.port p).state .connected p w
  obtain ⟨q, r, vsw⟩ := portMoved_vsw (s.port p).state .connected w
  have line : (w.portMoved (s.port p).state .connected).vsw.line = s.vsw.line := by rw [vsw]; exact stands.2.2
  generalize w.portMoved (s.port p).state .connected = y at next apart port line
  have port' : (y.onVsw fun v => { v with pairSpeech := w.cct.pairCall }).port p = backInCall (s.port p) := by
    rw [← own, ← port]
    cases p <;> rfl
  have ycct : y.cct = { s.cct with calls := [givenOf c p] } := by rw [apart]
  refine ⟨_, next, ?_, ycct, ?_, ?_, ?_, ?_, ?_, line⟩
  · rw [State.onVsw_cct, ycct]
    conv_lhs => rw [apart]
    rfl
  all_goals rw [port']; rfl

/-- Settles O42, timer by timer. -/
theorem portTimersRunOut : Obligations.PortTimersRunOut :=
  ⟨fun _ _ _ calm noneHeld due => ⟨fun timer pulses closed => firstWindow_ends timer pulses closed,
      fun silent timer => interDigit_expires due calm noneHeld silent timer,
      fun silent timer none_ => offHook_expires due calm noneHeld silent timer none_,
      fun silent timer room => howler_expires due calm noneHeld silent timer room⟩,
    fun _ _ _ _ calm silent due timer window pulses closed one outside held party =>
      postFlash_expires due calm silent timer window pulses closed one outside held party⟩

end Sys2Proof.Proofs.Hooks
end

section
/-! The hook of a port and its first digit (O41). -/

set_option Elab.async false

namespace Sys2Proof.Proofs.Hooks

open Sys2Proof Sys2Proof.Machine Sys2Proof.Proofs.Steps Sys2Proof.Proofs.Telling Sys2Proof.Proofs.Timers
open Sys2Proof.Proofs.Checks Sys2Proof.Proofs.Calls Sys2Proof.Proofs.Survey Sys2Proof.Proofs.Incoming
open Sys2Proof.Proofs.Answers

variable {s t u before : State} {p : Port} {d : Nat} {c : CallRec}

/-! ### Off-hook (R110) -/

/-- The record of a port that has just gone off-hook. -/
def lifted (r : PortRec) : PortRec := { r with offHook := true, noLoadTimer := none, noLoadCheck := none }

theorem fed_onHook (ready : s.cfl.state = .ready) (onHook : (s.port p).state = .onHook) : s.fed p = true := by
  simp [State.fed, ready, onHook]

/-- The loop of a port on the hook closes: an off-hook. -/
theorem loopClosed_onHook (ready : s.cfl.state = .ready) (onHook : (s.port p).state = .onHook) (idle : s.lth.stage = .none) :
    exec (.portLoopClosed p) s =
      finish s (((s.onPort p lifted).offHookCases p false).watchCurrent p) := by
  have early : s.lateOnHook p = s := by
    unfold State.lateOnHook State.breakLapsed
    simp [onHook]
  have aborted : s.abortSurvey = s := by
    unfold State.abortSurvey
    rw [idle]
  have closed : s.loopClosed p = ((s.onPort p lifted).offHookCases p false).watchCurrent p := by
    unfold State.loopClosed State.takeOffHook
    simp only [onHook, aborted]
    rfl
  show execPortLoopClosed p s = _
  unfold execPortLoopClosed
  simp only [early, fed_onHook ready onHook, if_true, closed]

/-- A current of 18 mA or more stops the low-current watch (R118). -/
theorem watchCurrent_stops (high : 18 ≤ s.pins.current p) :
    s.watchCurrent p = s.onPort p fun r => { r with lowCurrentTimer := none } := by
  unfold State.watchCurrent
  refine onPort_congr ?_
  cases p with
  | a =>
    have enough : ¬ s.pins.currentA < 18 := Nat.not_lt.2 high
    simp [enough, holdTimer]
  | b =>
    have enough : ¬ s.pins.currentB < 18 := Nat.not_lt.2 high
    simp [enough, holdTimer]

theorem portClaim_mains (mains : s.sup.supply = .mains) (f : State → State) : s.portClaim p f = f s := by
  simp [State.portClaim, mains]

theorem offHook_dials (calm : s.calm) (noneHeld : s.noneHeld) (ready : s.cfl.state = .ready) (silent : s.portsSilent)
    (onHook : (s.port p).state = .onHook) (unrung : s.targetCall p = none) (line : s.vsw.line ≠ .ringIn)
    (alone : s.coAnswered p = none) (directA : p = .a → s.cfl.record.directA = false)
    (directB : p = .b → s.cfl.record.directB = false) (high : 18 ≤ s.pins.current p) :
    exec (.portLoopClosed p) s = .next
      (s.onPort p fun r =>
        { r.toDialtone .dial with
          offHook := true, noLoadTimer := none, noLoadCheck := none, window := .first, lowCurrentTimer := none,
          firstDigitTimer := some (s.now + 4000), offHookTimer := some (s.now + 20000) }).plannedSilent := by
  have opens : (s.onPort p lifted).offHookCases p false = (s.onPort p lifted).openWindow p := by
    have unrung' : (s.onPort p lifted).targetCall p = none := by
      cases p <;> exact unrung
    have line' : (s.onPort p lifted).vsw.line ≠ .ringIn := by
      cases p <;> exact line
    have alone' : (s.onPort p lifted).coAnswered p = none := by
      cases p <;> exact alone
    unfold State.offHookCases
    rw [unrung']
    simp only [line', decide_false, Bool.or_self, Bool.false_eq_true, if_false, alone', Option.isSome_none]
    cases p
    · exact if_neg (by rw [show (State.onPort .a lifted s).cfl.record.directA = false from directA rfl]; exact Bool.false_ne_true)
    · exact if_neg (by rw [show (State.onPort .b lifted s).cfl.record.directB = false from directB rfl]; exact Bool.false_ne_true)
  have watched : ((s.onPort p lifted).openWindow p).watchCurrent p = s.onPort p fun r =>
      { r.toDialtone .dial with
        offHook := true, noLoadTimer := none, noLoadCheck := none, window := .first, lowCurrentTimer := none,
        firstDigitTimer := some (s.now + 4000), offHookTimer := some (s.now + 20000) } := by
    rw [watchCurrent_stops (by cases p <;> exact high)]
    cases p <;> rfl
  rw [loopClosed_onHook ready onHook calm.2.2.2.2, opens, watched]
  exact finish_portMoved (d := s.now) calm noneHeld silent (by rw [onHook]; nofun) nofun

/-- The one call, with the port as its second party. -/
abbrev joinedOf (c : CallRec) (p : Port) : CallRec :=
  { c with parties := c.parties ++ [{ who := .port p, mark := .connected }], everConnected := true }

theorem answer_joins {q : Party} (one : s.cct.calls = [c]) (named : c.id ≠ 0) (outside : c.kind = .outside)
    (active : c.state = .active) (party : c.parties = [q]) (allowed : s.cfl.record.joinAllowed = true) :
    s.decideAnswer (.port p) c.id =
      (s.onCct fun x => { x with calls := [joinedOf c p] }).portConnected p .none := by
  have passes : s.joinTest (.port p) c = none := by
    simp [State.joinTest, allowed, active, State.claimantBusy, Config.partyLimit, party, State.pairBusyFor,
      State.notReadyFor]
  have joins : s.joinCall (.port p) c = s.grantJoin (.port p) c.id := by
    simp [State.joinCall, active, passes]
  unfold State.decideAnswer
  rw [if_neg named, callOf_single one]
  simp only [State.answerCall, outside, active, joins]
  unfold State.grantJoin State.letIn
  dsimp only
  rw [onCall_single one]
  simp [Claimant.party]

/-- The record of a port that has joined the call as it went off-hook. -/
def inCall (r : PortRec) (now : Nat) : PortRec :=
  { (({ (lifted r).toDialtone .none with awaiting := true, offHookTimer := some (now + 20000) } : PortRec).closed) with
    state := .connected, tone := .none, awaiting := false, offHookTimer := none, lowCurrentTimer := none }

/-- A port that answers at the instant of the other port's answer joins the call (R141). -/
theorem offHook_joins (calm : s.calm) (ready : s.cfl.state = .ready) (silent : s.portsSilent)
    (onHook : (s.port p).state = .onHook) (unrung : s.targetCall p = none) (line : s.vsw.line = .seized)
    (second : s.coAnswered p = some c.id) (one : s.cct.calls = [c]) (named : c.id ≠ 0) (outside : c.kind = .outside)
    (active : c.state = .active) {q : Party} (party : c.parties = [q])
    (allowed : s.cfl.record.joinAllowed = true) (high : 18 ≤ s.pins.current p) :
    ∃ t, exec (.portLoopClosed p) s = .next t ∧ t = { s.plannedSilent with vsw := t.vsw, cct := t.cct } ∧
      t.cct = { s.cct with calls := [joinedOf c p] } ∧
      (t.port p).state = .connected ∧ t.vsw.line = .seized ∧ t.port (otherPort p) = s.port (otherPort p) := by
  obtain ⟨y, ysame⟩ : ∃ y, y = (s.onPort p lifted).awaitDecision p := ⟨_, rfl⟩
  have yframe : y = { s with vsw := y.vsw } := by
    rw [ysame]
    cases p <;> rfl
  have decided := answer_joins (s := y) (p := p) (by rw [yframe]; exact one) named outside active party
    (by rw [yframe]; exact allowed)
  obtain ⟨w, same⟩ : ∃ w, w = (((s.onPort p lifted).offHookCases p false).watchCurrent p) := ⟨_, rfl⟩
  have cases_ : (s.onPort p lifted).offHookCases p false =
      (y.onCct fun x => { x with calls := [joinedOf c p] }).portConnected p .none := by
    have unrung' : (s.onPort p lifted).targetCall p = none := by
      cases p <;> exact unrung
    have line' : (s.onPort p lifted).vsw.line ≠ .ringIn := by
      have seized : (s.onPort p lifted).vsw.line = s.vsw.line := by cases p <;> rfl
      rw [seized, line]
      nofun
    have second' : (s.onPort p lifted).coAnswered p = some c.id := by
      cases p <;> exact second
    have mains : y.sup.supply = .mains := by
      rw [yframe]
      exact calm.2.2.1
    unfold State.offHookCases
    rw [unrung']
    simp only [line', decide_false, Bool.or_self, Bool.false_eq_true, if_false, second', Option.isSome_some, if_true,
      Option.getD_some, ← ysame]
    rw [portClaim_mains mains, decided]
  have watched : w = ((s.onCct fun x => { x with calls := [joinedOf c p] }).onPort p fun r => inCall r s.now) := by
    rw [same, cases_, watchCurrent_stops (by rw [ysame]; cases p <;> exact high), ysame]
    cases p <;> rfl
  have cct : w.cct = { s.cct with calls := [joinedOf c p] } := by rw [watched, onPort_frame]; rfl
  have frame : w = { s with vsw := w.vsw, cct := { s.cct with calls := [joinedOf c p] } } := by
    rw [watched, onPort_frame]
    rfl
  have now : w.now = s.now := by rw [frame]
  have own : w.port p = inCall (s.port p) s.now := by
    rw [watched, port_onPort]
    rfl
  have others : w.port (otherPort p) = s.port (otherPort p) ∧ w.vsw.inBurst = s.vsw.inBurst ∧
      w.vsw.episodes = s.vsw.episodes ∧ w.vsw.line = s.vsw.line := by
    rw [watched]
    cases p <;> exact ⟨rfl, rfl, rfl, rfl⟩
  obtain ⟨other, burst, episodes, wline⟩ := others
  have changed : [joinedOf c p] ≠ s.cct.calls := by
    rw [one]
    intro x
    have parties := congrArg (fun r => r.parties.length) (List.head_eq_of_cons_eq x)
    simp at parties
  have settled := settle_portCalled (t := w) (p := p) calm silent (by rw [cct, now]; exact frame) (by rw [other]) burst
    (episodes.trans calm.2.1) (by rw [own]; exact nofun) (by rw [own]; exact nofun)
    (by rw [State.noneHeld, cct]; simp [active]) (by rw [cct]; simp [Cct.episodes, CallRec.episode, outside, active])
    (by rw [cct]; exact changed)
  have state : (w.port p).state = .connected := by rw [own]; rfl
  rw [state, onHook, State.portMoved, if_neg (by nofun)] at settled
  have next : exec (.portLoopClosed p) s = .next ((w.plannedSilent).onVsw fun v => { v with pairSpeech := w.cct.pairCall }) := by
    rw [loopClosed_onHook ready onHook calm.2.2.2.2, ← same]
    exact congrArg _ settled
  have apart := plannedSilent_apart w.vsw { s.cct with calls := [joinedOf c p] } s
  rw [← frame] at apart
  have moved : w.plannedSilent = w.portMoved .onHook .connected := rfl
  obtain ⟨q, r, vsw⟩ := portMoved_vsw .onHook .connected w
  have port := fun o => portMoved_port .onHook .connected o w
  rw [← moved] at vsw port
  have portLine : w.plannedSilent.vsw.line = .seized := by rw [vsw]; exact wline.trans line
  generalize w.plannedSilent = z at next apart port portLine
  have zport (o : Port) : (z.onVsw fun v => { v with pairSpeech := w.cct.pairCall }).port o = w.port o := by
    rw [← port o]
    cases o <;> rfl
  have zcct : z.cct = { s.cct with calls := [joinedOf c p] } := by rw [apart]
  refine ⟨_, next, ?_, zcct, ?_, portLine, ?_⟩
  · rw [State.onVsw_cct, zcct]
    conv_lhs => rw [apart]
    rfl
  · rw [zport]
    exact state
  · rw [zport]
    exact other

/-! ### A break begins and a port goes on the hook (R107, R115) -/

theorem loop_opens (ready : s.cfl.state = .ready) (inService : (s.port p).state ≠ .outOfService)
    (offHook : (s.port p).offHook = true) (closed : (s.port p).breakStart = none) :
    exec (.portLoopOpened p) s = .next (s.onPort p fun r => { r with breakStart := some s.now, pauseTimer := none }) := by
  have fed : s.fed p = true := by simp [State.fed, ready, inService]
  show execPortLoopOpened p s = _
  unfold execPortLoopOpened
  rw [if_pos ⟨fed, offHook, by rw [closed]; rfl⟩]
  exact finish_portStays rfl

/-- The claim of a port is withdrawn, and the port is on the hook. -/
def hungUp (p : Port) (s : State) : State :=
  (s.onCct fun c => { c with deferred := c.deferred.filter (fun x => !decide (x.endpoint = .port p)) }).onPort p fun _ =>
    PortRec.onHookAt s.now

theorem takeOnHook_free (free : s.liveCallOf (.port p) = none) :
    s.takeOnHook p = ((hungUp p s).makeInactive .portOffhookLock (.port p)).makeInactive .portLowCurrent (.port p) := by
  have same : ((s.withdrawPortClaim p).onPort p fun _ => PortRec.onHookAt s.now) = hungUp p s := by
    cases p <;> rfl
  have now : (s.withdrawPortClaim p).now = s.now := by cases p <;> rfl
  have free' : (hungUp p s).liveCallOf (.port p) = none := by cases p <;> exact free
  unfold State.takeOnHook
  simp only [now, same, free']

theorem hangs_up {b : Nat} (calm : s.calm) (noneHeld : s.noneHeld) (ready : s.cfl.state = .ready) (silent : s.portsSilent)
    (inService : (s.port p).state ≠ .outOfService) (broken : (s.port p).breakStart = some b) (due : s.now ≤ b + 800)
    (free : s.liveCallOf (.port p) = none) :
    ∃ t, exec (.portOnHook p) s = .next t ∧
      t = { s with now := t.now, ybi := t.ybi, sup := t.sup, vsw := t.vsw, cct := t.cct, flt := t.flt } ∧
      t.now = b + 800 ∧
      t.sup = (if (s.port p).state = .onHook then s.sup
        else { s.sup with converter := s.sup.converter.askedNothing (b + 800) }) ∧
      t.port p = { PortRec.reset with state := .onHook, noLoadTimer := some (b + 800 + 600000) } ∧
      t.faultActive .portOffhookLock (.port p) = false ∧ t.faultActive .portLowCurrent (.port p) = false ∧
      t.cct.calls = s.cct.calls ∧ t.vsw.line = s.vsw.line := by
  obtain ⟨w, same⟩ : ∃ w, w = hungUp p { s with now := b + 800 } := ⟨_, rfl⟩
  have own : w.port p = PortRec.onHookAt (b + 800) := by
    rw [same]
    cases p <;> rfl
  have wframe : w = { s with now := b + 800, vsw := w.vsw, cct := { s.cct with deferred := w.cct.deferred } } := by
    rw [same]
    cases p <;> rfl
  have others : (w.port (otherPort p)).state = (s.port (otherPort p)).state ∧ w.vsw.line = s.vsw.line ∧
      w.vsw.inBurst = s.vsw.inBurst ∧ w.vsw.episodes = s.vsw.episodes := by
    rw [same]
    cases p <;> exact ⟨rfl, rfl, rfl, rfl⟩
  obtain ⟨other, line, burst, episodes⟩ := others
  obtain ⟨q1, f1, told1, lock, -, -, -⟩ := makeInactive_told (c := .portOffhookLock) (x := .port p) (by decide) w
  obtain ⟨q2, f2, told2, low, -, keeps, -⟩ := makeInactive_told (c := .portLowCurrent) (x := .port p) (by decide)
    (w.makeInactive .portOffhookLock (.port p))
  have unlocked : f2.isActive ⟨.portOffhookLock, .port p⟩ = false := by
    rw [keeps _ (by simp), told1]
    exact lock
  obtain ⟨v, vsame⟩ : ∃ v, v = (w.makeInactive .portOffhookLock (.port p)).makeInactive .portLowCurrent (.port p) := ⟨_, rfl⟩
  have vframe : v = { w with ybi := { w.ybi with routine := q2 }, flt := f2 } := by
    rw [vsame, told2, told1]
  have only : PortOnly p s v := by
    rw [vframe]
    exact ⟨by rw [wframe], other, line, burst, episodes⟩
  have vown : v.port p = PortRec.onHookAt (b + 800) := by
    rw [vframe]
    exact own
  have settled := settle_portOnly calm noneHeld only (by rw [vown]; exact fun _ => ⟨silent, nofun⟩)
  rw [vown] at settled
  have fed : s.fed p = true := by simp [State.fed, ready, inService]
  have next : exec (.portOnHook p) s = .next (v.portMoved (s.port p).state .onHook) := by
    show execPortOnHook p s = _
    unfold execPortOnHook
    rw [if_pos fed, broken]
    dsimp only [Option.map]
    rw [show Config.onHookBreakMs = 800 from rfl, onExpiry_some (d := b + 800) rfl, reach_of_le due calm.1, takeOnHook_free (s := { s with now := b + 800 }) free, ← same,
      ← vsame]
    exact congrArg _ settled
  have frame := portMoved_frame (s.port p).state .onHook v
  have fault (c : FaultCode) (x : FaultSource) (h : (⟨c, x⟩ : FaultKey) ≠ ⟨.ringOverload, .pair⟩) :=
    portMoved_fault (s.port p).state .onHook v h
  have port := portMoved_port (s.port p).state .onHook p v
  obtain ⟨q, r, vsw⟩ := portMoved_vsw (s.port p).state .onHook v
  rw [vown] at port
  generalize v.portMoved (s.port p).state .onHook = y at next frame fault port vsw
  refine ⟨y, next, ?_, ?_, ?_, port, ?_, ?_, ?_, ?_⟩
  · rw [frame, vframe, wframe]
  · rw [frame, vframe, wframe]
  · rw [frame, vframe, wframe]
  · show y.flt.isActive _ = false
    rw [fault _ _ (by simp), vframe]
    exact unlocked
  · show y.flt.isActive _ = false
    rw [fault _ _ (by simp), vframe]
    exact low
  · rw [frame, vframe, wframe]
  · rw [vsw, vframe]
    exact line

/-! ### The first digit (R111) -/

theorem firstDigit_eight (window : (s.port p).window = .first) : s.firstDigit p (some 8) = s.onPort p fun r =>
    { r.closed with state := .collecting, tone := .none, interDigitTimer := some (s.now + 4000) } := by
  unfold State.firstDigit
  rw [window]
  dsimp only
  rw [if_pos rfl]
  cases p <;> rfl

theorem firstDigit_none (window : (s.port p).window = .first) : s.firstDigit p none = s.onPort p fun r =>
    { r.closed with tone := .error } := by
  unfold State.firstDigit
  rw [window]
  cases p <;> rfl

theorem dialtone_digit (state : (s.port p).state = .dialtone) (x : Option Nat) : s.takeDigit p x = s.firstDigit p x := by
  unfold State.takeDigit
  rw [state]

theorem key_refused (state : (s.port p).state = .dialtone) (window : (s.port p).window = .first) {k : DtmfKey}
    (other : keyDigit k = none) :
    exec (.dtmfDigit p k) s = .next (s.onPort p fun r => { r.closed with tone := .error }) := by
  show execDtmfDigit p k s = _
  rw [execDtmfDigit, other, dialtone_digit state, firstDigit_none window]
  exact finish_portStays rfl

theorem key_eight (calm : s.calm) (noneHeld : s.noneHeld) (state : (s.port p).state = .dialtone)
    (window : (s.port p).window = .first) (silent : s.portsSilent) :
    exec (.dtmfDigit p (.digit 8)) s = .next
      (s.onPort p fun r =>
        { r.closed with state := .collecting, tone := .none, interDigitTimer := some (s.now + 4000) }).plannedSilent := by
  show finish s (s.takeDigit p (some 8)) = _
  rw [dialtone_digit state, firstDigit_eight window]
  exact finish_portMoved (d := s.now) calm noneHeld silent (by rw [state]; nofun) nofun

theorem pulses_eight (calm : s.calm) (noneHeld : s.noneHeld) (state : (s.port p).state = .dialtone)
    (window : (s.port p).window = .first) (silent : s.portsSilent) (timer : (s.port p).pauseTimer = some d) (due : s.now ≤ d)
    (pulses : (s.port p).pulses = 8) :
    exec (.digitPauseExpiry p) s = .next
      ((s.reach d).onPort p fun r =>
        { r.closed with state := .collecting, tone := .none, interDigitTimer := some (d + 4000) }).plannedSilent := by
  have ends : State.endPulses p { s with now := d } = ({ s with now := d } : State).onPort p fun r =>
      { r.closed with state := .collecting, tone := .none, interDigitTimer := some (d + 4000) } := by
    have state' : (({ s with now := d } : State).onPort p fun r => { r with pulses := 0, pauseTimer := none }).port p =
        { s.port p with pulses := 0, pauseTimer := none } := port_onPort p _ _
    have digit : (({ s with now := d } : State).onPort p fun r => { r with pulses := 0, pauseTimer := none }).takeDigit p
        (some 8) = ({ s with now := d } : State).onPort p fun r =>
      { r.closed with state := .collecting, tone := .none, interDigitTimer := some (d + 4000) } := by
      rw [dialtone_digit (by rw [state']; exact state), firstDigit_eight (by rw [state']; exact window)]
      cases p <;> rfl
    have count : ({ s with now := d } : State).port p = s.port p := by cases p <;> rfl
    unfold State.endPulses
    simp only [count, pulses, state', state, digit]
    rfl
  show execDigitPauseExpiry p s = _
  rw [execDigitPauseExpiry, onExpiry_some timer, reach_of_le due calm.1, ends]
  exact finish_portMoved calm noneHeld silent (by rw [state]; nofun) nofun

/-- Settles O41: what each event of the hook and of the first digit leaves. -/
theorem hookAndFirstDigit : Obligations.HookAndFirstDigit :=
  ⟨fun _ _ calm noneHeld ready =>
      ⟨fun silent onHook unrung line alone directA directB high =>
          offHook_dials calm noneHeld ready silent onHook unrung line alone directA directB high,
        fun _ silent onHook unrung line second one named outside active party allowed _ high =>
          offHook_joins calm ready silent onHook unrung line second one named outside active party allowed high,
        fun inService offHook closed => loop_opens ready inService offHook closed,
        fun _ silent inService broken due free => hangs_up calm noneHeld ready silent inService broken due free⟩,
    fun _ _ calm noneHeld state window =>
      ⟨fun _ silent timer due pulses => pulses_eight calm noneHeld state window silent timer due pulses,
        fun silent => key_eight calm noneHeld state window silent, key_refused state window rfl,
        key_refused state window rfl⟩⟩

end Sys2Proof.Proofs.Hooks
end

section
/-! The supply inputs and the supply state (O12). -/

set_option Elab.async false

namespace Sys2Proof.Proofs.Supplies

open Sys2Proof Sys2Proof.Machine Sys2Proof.Proofs.Steps Sys2Proof.Proofs.Telling Sys2Proof.Proofs.Timers
open Sys2Proof.Proofs.Start Sys2Proof.Proofs.Link Sys2Proof.Proofs.Phases Sys2Proof.Proofs.Settling Sys2Proof.Proofs.Incoming
open Sys2Proof.Proofs.Answers

variable {s t u before : State} {d : Nat} {j : FaultKey}

/-! ### The debounce of the inputs (R31) -/

theorem finish_input {f : Pins → Pins} {g : Sup → Sup} (supply : (g s.sup).supply = s.sup.supply)
    (level : (g s.sup).railLevel = s.sup.railLevel) (target : (g s.sup).railTarget = s.sup.railTarget)
    (step : (g s.sup).railStep = s.sup.railStep) (driven : (g s.sup).converter = s.sup.converter) :
    finish s ((s.onPins f).onSup g) = .next ((s.onPins f).onSup g) :=
  finish_undisturbed (undisturbed_onSup ((Undisturbed.refl s).onPins (f := f)) supply level target step
    (congrArg Converter.burst driven))

theorem mains_changes (level : Bool) : exec (.mainsOkChange level) s = .next
    ((s.onPins fun p => { p with mainsOk := level }).onSup fun p =>
      { p with mainsTimer := debounce level p.mainsOk s.now Config.mainsDebounceMs p.mainsTimer }) :=
  finish_input rfl rfl rfl rfl rfl

theorem batt_changes (level : Bool) : exec (.battLowChange level) s = .next
    ((s.onPins fun p => { p with battLow := level }).onSup fun p =>
      { p with battTimer := debounce level p.battLow s.now Config.battDebounceMs p.battTimer }) :=
  finish_input rfl rfl rfl rfl rfl

theorem debounce_settled (level : Bool) (now ms : Nat) (t : Timer) : debounce level level now ms t = none := if_pos rfl

theorem debounce_starts (level : Bool) (now ms : Nat) : debounce (!level) level now ms none = some (now + ms) := by
  cases level <;> rfl

/-! ### A fault that stands as the event settles -/

/-- From one state to a later one a fault whose every entry is ACTIVE stays so. -/
def Holds (j : FaultKey) (s t : State) : Prop := Firm j s.flt → Firm j t.flt

theorem Holds.refl (j : FaultKey) (s : State) : Holds j s s := id

theorem Holds.trans (h : Holds j s t) (g : Holds j t u) : Holds j s u := fun x => g (h x)

theorem Holds.of_same (h : t.flt = s.flt) : Holds j s t := fun x => by rwa [h]

theorem Holds.ite {c : Prop} [Decidable c] (h : Holds j s t) (g : Holds j s u) : Holds j s (if c then t else u) := by
  split
  · exact h
  · exact g

theorem Holds.foldl {α : Type} {f : State → α → State} (hf : ∀ s a, Holds j s (f s a)) (l : List α) (s : State) :
    Holds j s (l.foldl f s) := by
  induction l generalizing s with
  | nil => exact .refl j s
  | cons a l ih => exact (hf s a).trans (ih (f s a))

theorem Holds.of_mutters (other : j ≠ backlogKey) (h : Mutters s t) : Holds j s t := h.spares.firm j other

theorem holds_handCall (other : j ≠ backlogKey) (f : TxFrame) (s : State) : Holds j s (s.handCall f) :=
  Holds.ite (.refl j s) (Holds.ite (.of_same rfl) (.of_mutters other (mutters_frameDropped s)))

theorem holds_makeInactive {c : FaultCode} {x : FaultSource} (low : c.severity ≠ .out) (other : j ≠ ⟨c, x⟩) (s : State) :
    Holds j s (s.makeInactive c x) := by
  obtain ⟨q, f, told, -, spares, -⟩ := makeInactive_told low (x := x) s
  rw [told]
  exact spares.firm j other

theorem holds_raiseNotice {c : FaultCode} {x : FaultSource} (notice : c.severity = .notice) (other : j ≠ ⟨c, x⟩) (s : State) :
    Holds j s (s.raise c x) := by
  obtain ⟨q, o, told⟩ := raise_routine (c := c) (by rw [notice]; nofun) x s
  rw [told]
  exact ((spares_raised_notice (k := ⟨c, x⟩) notice).trans (.of_entries _ rfl)).firm j other

/-- A fault of the supply: no other event of the settling speaks of it. -/
theorem supply_apart {c : FaultCode} (own : j = ⟨c, .supply⟩) : j ≠ backlogKey ∧ j ≠ ⟨.ringOverload, .pair⟩ ∧
    ∀ c p, j ≠ ⟨c, .port p⟩ := by
  subst own
  simp [backlogKey]

theorem holds_onPort (p : Port) (f : PortRec → PortRec) (s : State) : Holds j s (s.onPort p f) := by
  cases p <;> exact .of_same rfl

section settling
variable (c : FaultCode)

theorem holds_followPlan (p : Port) (s : State) : Holds j s (s.followPlan p) := by
  unfold State.followPlan
  split
  · exact holds_onPort p _ s
  · exact holds_onPort p _ s
  · exact .refl j s

theorem holds_planOnce (own : j = ⟨c, .supply⟩) (began : List Episode) (s : State) : Holds j s (s.planOnce began) := by
  obtain ⟨backlog, overload, -⟩ := supply_apart own
  have counted (n : Nat) (e : Event) (s : State) : Holds j s (s.signalTimes n e) := by
    induction n generalizing s with
    | zero => exact .refl j s
    | succ n ih => exact (Holds.of_mutters backlog (mutters_signal e s)).trans (ih _)
  have judged (old : RingPlan) (s : State) : Holds j s (s.judgePlan old) :=
    (counted _ _ s).trans (Holds.ite (holds_makeInactive (by decide) overload _)
      (Holds.ite (.refl j _) (holds_raiseNotice rfl overload _)))
  have planned (s : State) : Holds j s (s.onVsw fun v => { v with plan := s.computePlan }) := .of_same rfl
  have asked (s : State) : Holds j s s.demandRing := .of_same rfl
  exact (((((planned s).trans (judged s.vsw.plan _)).trans (holds_followPlan .a _)).trans (holds_followPlan .b _)).trans
    (Holds.foldl (fun s _ => Holds.ite (holds_handCall backlog _ s) (.refl j s)) _ _)).trans (asked _)

theorem holds_replan (own : j = ⟨c, .supply⟩) (began : List Episode) (s : State) : Holds j s (s.replan began) := by
  have until_ (n : Nat) (began : List Episode) (s : State) : Holds j s (State.planUntil n began s) := by
    induction n generalizing began s with
    | zero => exact holds_planOnce c own began s
    | succ n ih => exact Holds.ite (holds_planOnce c own began s) ((holds_planOnce c own began s).trans (ih [] _))
  exact until_ 2 began s

theorem holds_settleRinging (own : j = ⟨c, .supply⟩) (s before : State) : Holds j s (s.settleRinging before) := by
  have backlog := (supply_apart own).1
  have followed (l : List Episode) (s : State) : Holds j s (s.onVsw fun v => { v with episodes := l }) := .of_same rfl
  have synced (s : State) : Holds j s s.syncEpisodes.1 :=
    (followed _ s).trans (Holds.foldl (fun s _ => holds_handCall backlog _ s) _ _)
  have first : Holds j s (if s.cct.calls = before.cct.calls then (s, []) else s.syncEpisodes).1 := by
    split
    · exact .refl j s
    · exact synced s
  have asked (s : State) : Holds j s s.demandRing := .of_same rfl
  exact first.trans (Holds.ite (holds_replan c own _ _) (Holds.ite (.refl j _) (Holds.ite (.refl j _) (asked _))))

theorem holds_settlePortB (own : j = ⟨c, .supply⟩) (s before : State) : Holds j s (s.settlePortB before) := by
  have ports := (supply_apart own).2.2
  have withdrawn (p : Port) (s : State) : Holds j s (s.withdrawPortClaim p) :=
    (show Holds j s (s.onCct _) from .of_same rfl).trans (holds_onPort p _ _)
  have out (s : State) : Holds j s s.portOut :=
    (((withdrawn .b s).trans (holds_onPort .b _ _)).trans (holds_makeInactive (by decide) (ports _ _) _)).trans
      (holds_makeInactive (by decide) (ports _ _) _)
  have served (s : State) : Holds j s s.servePortB :=
    Holds.ite (Holds.ite (Holds.ite (.refl j s) (out s)) (Holds.ite (holds_onPort .b _ s) (.refl j s))) (.refl j s)
  exact Holds.ite (.refl j s) (served s)

theorem holds_settleRecall (s before : State) : Holds j s (s.settleRecall before) := by
  have waits (id : Nat) (s : State) : Holds j s (s.recallWaits id) := .of_same rfl
  refine Holds.ite (.refl j s) (Holds.foldl (fun s c => ?_) _ s)
  split
  · exact Holds.ite (waits _ s) (.refl j s)
  · exact .refl j s

theorem holds_settlePair (s before : State) : Holds j s (s.settlePair before) := by
  obtain ⟨a, b, same⟩ := settlePair_follows s before
  rw [same]
  exact .of_same rfl

/-- A fault of the supply stands over all that follows while the link is away from SHOWTIME. -/
theorem holds_settle (own : j = ⟨c, .supply⟩) (away : s.lle.link ≠ .showtime) (idle : s.lth.stage = .none)
    (before : State) : Holds j s (s.settle before) := by
  obtain ⟨x, offline, same, settled⟩ := settle_offline s before
  have chain : Holds j s x := by
    rw [same]
    exact (((holds_settlePortB c own s before).trans (holds_settleRecall _ before)).trans
      (holds_settleRinging c own _ before)).trans (holds_settlePair _ before)
  have link : x.lle = s.lle := by rw [offline.frame]
  have lth : x.lth = s.lth := by rw [offline.frame]
  have follows := (linkFollows_settleLink x before).frame
  have stage : (x.settleLink before).lth.stage = .none := by
    rw [follows]
    exact (congrArg Lth.stage lth).trans idle
  rw [settled, settleGuard_away (by rw [link]; exact away),
    settleWait_notWaiting (by rw [stage]; nofun) (by rw [stage]; nofun)]
  exact chain.trans (.of_same (by rw [follows]))

end settling

/-! ### A change of the supply while nothing rings -/

theorem askedNothing_again (now : Nat) (c : Converter) : (c.askedNothing now).askedNothing now = c.askedNothing now := by
  unfold Converter.askedNothing
  cases h : c.state <;> simp only [h]

/-- A plan without an episode has been made: the converter is asked for nothing, and RING_OVERLOAD alone may have moved
in the fault table. -/
structure Quiets (s t : State) : Prop where
  unplanned : Unplanned s t
  converter : t.sup.converter = s.sup.converter.askedNothing s.now
  faults : ∀ j, j ≠ ⟨.ringOverload, .pair⟩ → t.flt.isActive j = s.flt.isActive j

theorem quiets_planOnce (began : List Episode) (none_ : s.vsw.episodes = []) : Quiets s (s.planOnce began) := by
  obtain ⟨q, f, told, keeps⟩ := ringOverload_frame (s.onVsw fun v => { v with plan := RingPlan.empty })
  have judged : State.judgePlan s.vsw.plan (s.onVsw fun v => { v with plan := RingPlan.empty }) =
      (s.onVsw fun v => { v with plan := RingPlan.empty }).makeInactive .ringOverload .pair := rfl
  have done : s.planOnce began = State.demandRing ((State.onPort .b (hooked s.now) (State.onPort .a (hooked s.now)
      ({ s.onVsw (fun v => { v with plan := RingPlan.empty }) with ybi := { s.ybi with routine := q }, flt := f } :
        State)))) := by
    unfold State.planOnce
    simp only [computePlan_silent none_, judged, told]
    rw [followPlan_empty .a rfl, followPlan_empty .b rfl]
    exact congrArg State.demandRing (noEpisodes _ _ none_)
  refine ⟨unplanned_planOnce began none_, ?_, fun j other => ?_⟩
  · rw [done, demandRing_silent (by exact none_)]
    rfl
  · rw [done]
    exact keeps j other

theorem Quiets.again (h : Quiets s t) (g : Quiets t u) : Quiets s u := by
  have now : t.now = s.now := by rw [h.unplanned.frame]
  refine ⟨h.unplanned.again g.unplanned, ?_, fun j other => (g.faults j other).trans (h.faults j other)⟩
  rw [g.converter, h.converter, now, askedNothing_again]

theorem quiets_replan (began : List Episode) (none_ : s.vsw.episodes = []) : Quiets s (s.replan began) := by
  have until_ (n : Nat) : ∀ (began : List Episode) (s : State), s.vsw.episodes = [] →
      Quiets s (State.planUntil n began s) := by
    induction n with
    | zero => exact fun began s none_ => quiets_planOnce began none_
    | succ n ih =>
      intro began s none_
      have once := quiets_planOnce began none_
      have episodes : (s.planOnce began).vsw.episodes = [] := by
        rw [once.unplanned.frame]
        exact none_
      unfold State.planUntil
      dsimp only
      split
      · exact once
      · exact once.again (ih [] _ episodes)
  exact until_ 2 began s none_

/-- What settles of a change of the supply while nothing rings and BATTERY_LOW is not entered. -/
structure Supplied (s t : State) : Prop where
  frame : t = { s with
    ybi := { s.ybi with routine := t.ybi.routine }
    sup := { s.sup with
      converter := s.sup.converter.askedNothing s.now, railTarget := t.sup.railTarget, railStep := t.sup.railStep }
    vsw := t.vsw, cct := t.cct, flt := t.flt }
  plan : t.vsw.plan = RingPlan.empty
  faults : ∀ j, j ≠ ⟨.ringOverload, .pair⟩ → t.flt.isActive j = s.flt.isActive j

/-- Port B and the recalls have followed: of the part the ports and the calls alone have moved, and no call rings. -/
structure Follows (s t : State) : Prop where
  frame : t = { s with vsw := { s.vsw with portA := t.vsw.portA, portB := t.vsw.portB }, cct := t.cct }
  calls : s.cct.episodes = [] → t.cct.episodes = []

theorem Follows.refl (s : State) : Follows s s := ⟨rfl, id⟩

theorem Follows.trans (h : Follows s t) (g : Follows t u) : Follows s u := by
  refine ⟨?_, fun x => g.calls (h.calls x)⟩
  have later := g.frame
  rw [h.frame] at later
  exact later

theorem follows_settlePortB (power : s.sup.supply ≠ .batteryLow) (before : State) : Follows s (s.settlePortB before) := by
  unfold State.settlePortB State.servePortB
  simp only [if_neg power]
  repeat' split
  all_goals first | exact .refl s | exact ⟨rfl, id⟩

theorem episodes_recallWaits (id : Nat) (none_ : s.cct.episodes = []) : (s.recallWaits id).cct.episodes = [] := by
  have quiet : ∀ c ∈ s.cct.calls, c.episode = none := List.filterMap_eq_nil_iff.1 none_
  refine List.filterMap_eq_nil_iff.2 fun c mem => ?_
  obtain ⟨x, old, rfl⟩ := List.mem_map.1 mem
  have before := quiet x old
  split
  · unfold CallRec.episode at before ⊢
    cases kind : x.kind <;> cases state : x.state <;> simp_all [CallRec.onHold]
  · exact before

theorem follows_settleRecall (s before : State) : Follows s (s.settleRecall before) := by
  have waits (id : Nat) (s : State) : Follows s (s.recallWaits id) := ⟨rfl, episodes_recallWaits id⟩
  have loop (l : List CallRec) (s : State) : Follows s (l.foldl
      (fun s c => match c.rung with
        | some t => if s.busy (some c.id) t || s.absent t then s.recallWaits c.id else s
        | none => s) s) := by
    induction l generalizing s with
    | nil => exact .refl s
    | cons c l ih =>
      refine Follows.trans ?_ (ih _)
      beta_reduce
      split
      · split
        · exact waits _ s
        · exact .refl s
      · exact .refl s
  unfold State.settleRecall
  split
  · exact .refl s
  · exact loop _ s

theorem settle_supplied (away : t.lle.link ≠ .showtime) (caught : t.lle.sync.catchUpTimer = none)
    (idle : t.lth.stage = .none) (changed : t.sup.supply ≠ before.sup.supply) (power : t.sup.supply ≠ .batteryLow)
    (silent : t.vsw.episodes = []) (uncalled : t.cct.episodes = []) : Supplied t (t.settle before) := by
  have followed := (follows_settlePortB power before).trans (follows_settleRecall (t.settlePortB before) before)
  obtain ⟨x, offline, same, settled⟩ := settle_offline t before
  obtain ⟨v, vsame⟩ : ∃ v, v = (t.settlePortB before).settleRecall before := ⟨_, rfl⟩
  rw [← vsame] at followed same
  have vframe := followed.frame
  have episodes : v.vsw.episodes = [] := by rw [vframe]; exact silent
  have wanted : v.cct.episodes = [] := followed.calls uncalled
  have kept : (v.onVsw fun v => { v with episodes := [] }) = v := by
    unfold State.onVsw
    rw [← episodes]
  have synced : (if v.cct.calls = before.cct.calls then (v, []) else v.syncEpisodes) = (v, []) := by
    split
    · rfl
    · simp [State.syncEpisodes, wanted, episodes, kept]
  have due : v.planDue before v.vsw.episodes = true := by
    have supply : v.sup.supply ≠ before.sup.supply := by rw [vframe]; exact changed
    simp [State.planDue, supply]
  have ringing : v.settleRinging before = v.replan [] := by
    unfold State.settleRinging
    simp only [synced, due, if_true]
  have quiets := quiets_replan (s := v) [] episodes
  obtain ⟨a, b, paired⟩ := settlePair_follows (v.replan []) before
  rw [ringing, paired] at same
  have plan := quiets.unplanned.frame
  have converter := quiets.converter
  have faults := quiets.faults
  generalize v.replan [] = r at same plan converter faults
  have xlle : x.lle = t.lle := by rw [offline.frame]
  have xlth : x.lth = t.lth := by rw [offline.frame]
  obtain ⟨p, rail⟩ := settleLink_away (s := x) (before := before) (by rw [xlle]; exact away) (by rw [xlle]; exact caught)
  rw [settled, settleGuard_away (by rw [xlle]; exact away), rail,
    settleWait_notWaiting (by rw [xlth, idle]; nofun) (by rw [xlth, idle]; nofun), same]
  refine ⟨?_, ?_, fun j other => ?_⟩
  · rw [converter] at plan
    rw [plan, vframe]
    rfl
  · show r.vsw.plan = _
    rw [plan]
  · show r.flt.isActive j = _
    rw [faults j other, vframe]

/-! ### The supply state is derived (R32 to R34) -/

/-- The part in another supply state, before the faults and the holder follow. -/
def taken (x : SupplyState) (s : State) : State :=
  s.onSup fun p => { p with supply := x, converter := p.converter.shed x }

theorem deriveSupply_changes {x : SupplyState} (levels : supplyOf s.sup.mainsOk s.sup.battLow = x) (changed : x ≠ s.sup.supply) :
    s.deriveSupply =
      (((taken x s).supplyFaults s.sup.supply x).supplyHolder x).abandonForCeiling s.sup.supply x := by
  unfold State.deriveSupply
  rw [levels]
  exact if_neg changed

/-- A departure to DOWN from a link that is neither in SHOWTIME nor in LOCKOUT touches the link alone. -/
theorem enterDown_quiet (showtime : s.lle.link ≠ .showtime) (lockout : s.lle.link ≠ .lockout) (reason : DropReason) :
    ∃ l : Lle, s.enterDown reason = { s with lle := l } ∧ l.link = .down ∧ l.holders = s.lle.holders ∧
      l.sync = s.lle.sync := by
  unfold State.enterDown
  rw [leaveLink_plain showtime lockout]
  exact ⟨_, rfl, rfl, rfl, rfl⟩

theorem abandon_quiet (showtime : s.lle.link ≠ .showtime) (x y : SupplyState) : ∃ l : Lle,
    s.abandonForCeiling x y = { s with lle := l } ∧ l.link ≠ .showtime ∧ l.sync = s.lle.sync := by
  unfold State.abandonForCeiling
  split
  · rename_i training
    obtain ⟨l, down, link, -, sync⟩ := enterDown_quiet (s := s) showtime
      (fun lockout => by simp [lockout, LinkState.isTraining] at training) .none
    exact ⟨l, down, by rw [link]; nofun, sync⟩
  · exact ⟨s.lle, rfl, showtime, rfl⟩

theorem removeHolder_quiet (showtime : s.lle.link ≠ .showtime) (x : Holder) : ∃ l : Lle,
    s.removeHolder x = { s with lle := l } ∧ l.link ≠ .showtime ∧ l.sync = s.lle.sync := by
  unfold State.removeHolder
  split
  · dsimp only
    split
    · rename_i last
      have quiet : s.lle.link = .quiet := of_decide_eq_true ((Bool.and_eq_true _ _).mp last).2
      obtain ⟨l, down, link, -, sync⟩ := enterDown_quiet (s := s.onLle fun l => { l with holders := l.holders.put x false })
        showtime (by rw [State.onLle_lle, quiet]; nofun) .none
      exact ⟨l, down, by rw [link]; nofun, sync⟩
    · exact ⟨_, rfl, showtime, rfl⟩
  · exact ⟨s.lle, rfl, showtime, rfl⟩

/-- The last holder of a link in QUIET leaves. -/
theorem removeHolder_last (quiet : s.lle.link = .quiet)
    (alone : s.lle.holders = { management := false, supply := true, voltage := false, survey := false }) : ∃ l : Lle,
    s.removeHolder .supply = { s with lle := l } ∧ l.link = .down ∧ l.holders.isEmpty = true ∧ l.sync = s.lle.sync := by
  obtain ⟨l, down, link, holders, sync⟩ := enterDown_quiet (s := s.onLle fun l => { l with holders := l.holders.put .supply false })
    (by rw [State.onLle_lle, quiet]; nofun) (by rw [State.onLle_lle, quiet]; nofun) .none
  have has : s.lle.holders.has .supply = true := by rw [alone]; rfl
  have empty : (s.lle.holders.put .supply false).isEmpty = true := by rw [alone]; rfl
  have last : ((s.onLle fun l => { l with holders := l.holders.put .supply false }).lle.holders.isEmpty &&
      decide ((s.onLle fun l => { l with holders := l.holders.put .supply false }).lle.link = .quiet)) = true := by
    simp only [State.onLle_lle, empty, quiet, decide_true, Bool.and_self]
  refine ⟨l, ?_, link, by rw [holders]; exact empty, sync⟩
  unfold State.removeHolder
  rw [if_pos has]
  dsimp only
  rw [if_pos last, down]
  rfl

/-- Holder SUPPLY joins, and the link is QUIET. -/
theorem addHolder_quiet (showtime : s.lle.link ≠ .showtime) (lockout : s.lle.link ≠ .lockout)
    (free : s.lle.holders.supply = false) : ∃ l : Lle,
    s.addHolder .supply = { s with lle := l } ∧ l.link = .quiet ∧ l.holders.supply = true ∧ l.sync = s.lle.sync := by
  have absent : ¬ s.lle.holders.has .supply = true := by
    show ¬ s.lle.holders.supply = true
    simp [free]
  unfold State.addHolder
  rw [if_neg absent]
  dsimp only
  split
  · rename_i quiet
    exact ⟨_, rfl, quiet, rfl, rfl⟩
  · unfold State.enterQuiet
    rw [leaveLink_plain (by exact showtime) (by exact lockout)]
    exact ⟨_, rfl, rfl, rfl, rfl⟩

end Sys2Proof.Proofs.Supplies
end

section
/-! The supply state is derived from the debounced inputs (O12). -/

set_option Elab.async false

namespace Sys2Proof.Proofs.Supplies

open Sys2Proof Sys2Proof.Machine Sys2Proof.Proofs.Steps Sys2Proof.Proofs.Telling Sys2Proof.Proofs.Timers
open Sys2Proof.Proofs.Start Sys2Proof.Proofs.Phases Sys2Proof.Proofs.Settling Sys2Proof.Proofs.Answers

variable {s t u before : State} {d n : Nat} {j : FaultKey}

theorem reach_away (away : s.lle.link ≠ .showtime) (d : Nat) : ∃ n, s.reach d = { s with now := n } := by
  by_cases due : s.now ≤ d
  · exact ⟨d, reach_of_le due away⟩
  · exact ⟨s.now, if_pos (Nat.le_of_lt (Nat.lt_of_not_le due))⟩

/-- The part as MAINS_OK has taken its level. -/
def mainsTaken (n : Nat) (level : Bool) (s : State) : State :=
  ({ s with now := n } : State).onSup fun p => { p with mainsOk := level, mainsTimer := none }

/-- The part as BATT_LOW has taken its level. -/
def battTaken (n : Nat) (level : Bool) (s : State) : State :=
  ({ s with now := n } : State).onSup fun p => { p with battLow := level, battTimer := none }

theorem mains_debounced (timer : s.sup.mainsTimer = some d) (away : s.lle.link ≠ .showtime) :
    ∃ n, exec .mainsOkDebounced s = finish s (mainsTaken n s.pins.mainsOk s).deriveSupply := by
  obtain ⟨n, passed⟩ := reach_away away d
  refine ⟨n, ?_⟩
  show execMainsOkDebounced s = _
  rw [execMainsOkDebounced, onExpiry_some timer, passed]
  rfl

theorem batt_debounced (timer : s.sup.battTimer = some d) (away : s.lle.link ≠ .showtime) :
    ∃ n, exec .battLowDebounced s = finish s (battTaken n s.pins.battLow s).deriveSupply := by
  obtain ⟨n, passed⟩ := reach_away away d
  refine ⟨n, ?_⟩
  show execBattLowDebounced s = _
  rw [execBattLowDebounced, onExpiry_some timer, passed]
  rfl

/-! ### The faults of the supply (R33) -/

/-- The state with other contents of the ROUTINE queue, of the fault table and of the link. -/
def shown (q : List TxFrame) (f : Flt) (l : Lle) (s : State) : State :=
  { s with ybi := { s.ybi with routine := q }, flt := f, lle := l }

theorem faults_mains (old : SupplyState) (s : State) : ∃ q f, s.supplyFaults old .mains = shown q f s.lle s ∧
    f.isActive ⟨.supplyOnBattery, .supply⟩ = false ∧ f.isActive ⟨.supplyBatteryLow, .supply⟩ = false := by
  obtain ⟨q1, f1, told1, low, -⟩ := makeInactive_told (c := .supplyBatteryLow) (x := .supply) (by decide) s
  obtain ⟨q2, f2, told2, battery, -, keeps, -⟩ := makeInactive_told (c := .supplyOnBattery) (x := .supply) (by decide)
    (s.makeInactive .supplyBatteryLow .supply)
  refine ⟨q2, f2, ?_, battery, ?_⟩
  · show (s.makeInactive .supplyBatteryLow .supply).makeInactive .supplyOnBattery .supply = _
    rw [told2, told1]
    rfl
  · rw [keeps _ (by decide), told1]
    exact low

theorem faults_battery (room : s.flt.entries.length < 16) : ∃ q f, s.supplyFaults .mains .battery = shown q f s.lle s ∧
    f.isActive ⟨.supplyOnBattery, .supply⟩ = true := by
  obtain ⟨q1, f1, told1, -, -, -, length⟩ := makeInactive_told (c := .supplyBatteryLow) (x := .supply) (by decide) s
  obtain ⟨q2, f2, told2, firm, -⟩ := raise_room (s := s.makeInactive .supplyBatteryLow .supply) (c := .supplyOnBattery)
    (x := .supply) (by decide) (by rw [told1]; exact length ▸ room)
  refine ⟨q2, f2, ?_, firm.1⟩
  show (s.makeInactive .supplyBatteryLow .supply).raise .supplyOnBattery .supply = _
  rw [told2, told1]
  rfl

/-- From BATTERY_LOW to battery SUPPLY_ON_BATTERY stands as it was. -/
theorem faults_recovered (s : State) : ∃ q f, s.supplyFaults .batteryLow .battery = shown q f s.lle s ∧
    f.isActive ⟨.supplyOnBattery, .supply⟩ = s.flt.isActive ⟨.supplyOnBattery, .supply⟩ ∧
    f.isActive ⟨.supplyBatteryLow, .supply⟩ = false := by
  obtain ⟨q1, f1, told1, low, -, keeps, -⟩ := makeInactive_told (c := .supplyBatteryLow) (x := .supply) (by decide) s
  exact ⟨q1, f1, told1, keeps _ (by decide), low⟩

theorem faults_failed (room : s.flt.entries.length < 15) : ∃ q f, s.supplyFaults .mains .batteryLow = shown q f s.lle s ∧
    Firm ⟨.supplyOnBattery, .supply⟩ f ∧ Firm ⟨.supplyBatteryLow, .supply⟩ f := by
  obtain ⟨q1, f1, told1, low, -, length⟩ := raise_room (s := s) (c := .supplyBatteryLow) (x := .supply) (by decide)
    (Nat.lt_succ_of_lt room)
  obtain ⟨q2, f2, told2, battery, spares, -⟩ := raise_room (s := s.raise .supplyBatteryLow .supply) (c := .supplyOnBattery)
    (x := .supply) (by decide) (by rw [told1]; exact Nat.lt_of_le_of_lt length (Nat.succ_lt_succ room))
  refine ⟨q2, f2, ?_, battery, ?_⟩
  · show (s.raise .supplyBatteryLow .supply).raise .supplyOnBattery .supply = _
    rw [told2, told1]
    rfl
  · rw [told1] at spares
    exact spares.firm _ (by decide) low

theorem faults_lowered (room : s.flt.entries.length < 16) : ∃ q f, s.supplyFaults .battery .batteryLow = shown q f s.lle s ∧
    Firm ⟨.supplyBatteryLow, .supply⟩ f := by
  obtain ⟨q1, f1, told1, low, -⟩ := raise_room (s := s) (c := .supplyBatteryLow) (x := .supply) (by decide) room
  exact ⟨q1, f1, told1, low⟩

/-! ### What the three states bring -/

/-- A supply state other than BATTERY_LOW has been entered while nothing rings. -/
theorem supply_settles {x : SupplyState} {q : List TxFrame} {f : Flt} {l : Lle} (idle : s.linkIdle)
    (silent : s.vsw.episodes = []) (uncalled : s.cct.episodes = []) (changed : x ≠ s.sup.supply) (power : x ≠ .batteryLow)
    (frame : u = { s with now := u.now, sup := u.sup }) (conv : u.sup.converter = s.sup.converter)
    (away : l.link ≠ .showtime) (sync : l.sync = s.lle.sync) :
    ∃ t, finish s (shown q f l (taken x u)) = .next t ∧
      t = { s with now := t.now, ybi := t.ybi, sup := t.sup, lle := l, vsw := t.vsw, cct := t.cct, flt := t.flt } ∧
      t.sup = { (taken x u).sup with
        converter := (s.sup.converter.shed x).askedNothing t.now, railTarget := t.sup.railTarget, railStep := t.sup.railStep } ∧
      t.vsw.plan = RingPlan.empty ∧ ∀ j, j ≠ ⟨.ringOverload, .pair⟩ → t.flt.isActive j = f.isActive j := by
  have supplied := settle_supplied (t := shown q f l (taken x u)) (before := s) away
    (by rw [show (shown q f l (taken x u)).lle.sync = s.lle.sync from sync]; exact idle.2.1)
    (by rw [frame]; exact idle.2.2) changed power (by rw [frame]; exact silent) (by rw [frame]; exact uncalled)
  have told := supplied.frame
  refine ⟨_, rfl, ?_, ?_, supplied.plan, supplied.faults⟩
  · generalize (shown q f l (taken x u)).settle s = w at told
    rw [told]
    rw [frame]
    rfl
  · generalize (shown q f l (taken x u)).settle s = w at told
    rw [told, ← conv]
    rfl

/-- BATTERY_LOW has been entered: the link stays QUIET, and the faults of the supply stand. -/
theorem low_settles {q : List TxFrame} {f : Flt} {l : Lle} (idle : s.linkIdle) (frame : u = { s with now := u.now, sup := u.sup })
    (quiet : l.link = .quiet) :
    ∃ t, finish s (shown q f l (taken .batteryLow u)) = .next t ∧
      t = { s with now := t.now, ybi := t.ybi, sup := t.sup, lle := t.lle, vsw := t.vsw, cct := t.cct, flt := t.flt, ctb := t.ctb } ∧
      t.sup = { (taken .batteryLow u).sup with
        converter := t.sup.converter, railTarget := t.sup.railTarget, railStep := t.sup.railStep } ∧
      t.lle.link = .quiet ∧ t.lle.holders = l.holders ∧
      ∀ c, Firm ⟨c, .supply⟩ f → t.flt.isActive ⟨c, .supply⟩ = true := by
  have away : (shown q f l (taken .batteryLow u)).lle.link ≠ .showtime := by
    show l.link ≠ _
    rw [quiet]
    nofun
  have stage : (shown q f l (taken .batteryLow u)).lth.stage = .none := by rw [frame]; exact idle.2.2
  have holds (c : FaultCode) := holds_settle (j := ⟨c, .supply⟩) c rfl away stage s
  obtain ⟨x, offline, -, settled⟩ := settle_offline (shown q f l (taken .batteryLow u)) s
  have moved := offline.frame
  have link : x.lle = l := by rw [moved]; rfl
  have lth : x.lth.stage = .none := by rw [moved]; exact stage
  have follows := (linkFollows_settleLink x s).frame
  have stage' : (x.settleLink s).lth.stage = .none := by
    rw [follows]
    exact lth
  rw [settleGuard_away (by rw [link, quiet]; nofun), settleWait_notWaiting (by rw [stage']; nofun) (by rw [stage']; nofun)]
    at settled
  refine ⟨_, (congrArg Host.Outcome.next settled : finish s _ = _), ?_, ?_, ?_, ?_, fun c firm => ?_⟩
  · generalize x.settleLink s = w at follows
    rw [follows, moved, frame]
    rfl
  · generalize x.settleLink s = w at follows
    rw [follows, moved]
    rfl
  · rw [follows, link]
    exact quiet
  · rw [follows, link]
  · rw [← settled]
    exact (holds c firm).1

/-! ### The changes between the three states -/

theorem mains_fails (timer : s.sup.mainsTimer = some d) (power : s.sup.supply = .mains) (level : s.pins.mainsOk = false)
    (charged : s.sup.battLow = false) (room : s.flt.entries.length < 16) (idle : s.linkIdle) (silent : s.vsw.episodes = [])
    (uncalled : s.cct.episodes = []) :
    ∃ t, exec .mainsOkDebounced s = .next t ∧
      t = { s with now := t.now, ybi := t.ybi, sup := t.sup, lle := t.lle, vsw := t.vsw, cct := t.cct, flt := t.flt } ∧
      t.sup.supply = .battery ∧ t.sup.mainsOk = false ∧ t.sup.mainsTimer = none ∧
      t.faultActive .supplyOnBattery .supply = true ∧ t.vsw.plan = RingPlan.empty ∧
      t.sup.converter = (s.sup.converter.shed .battery).askedNothing t.now := by
  obtain ⟨n, next⟩ := mains_debounced timer idle.1
  obtain ⟨q, f, told, active⟩ := faults_battery (s := taken .battery (mainsTaken n false s)) room
  obtain ⟨l1, holder, link1, sync1⟩ := removeHolder_quiet (s := shown q f s.lle (taken .battery (mainsTaken n false s))) idle.1
    .supply
  obtain ⟨l2, ceiling, link2, sync2⟩ := abandon_quiet (s := shown q f l1 (taken .battery (mainsTaken n false s))) link1 .mains .battery
  have derived : (mainsTaken n false s).deriveSupply = shown q f l2 (taken .battery (mainsTaken n false s)) := by
    rw [deriveSupply_changes (x := .battery) (by show supplyOf false s.sup.battLow = _; rw [charged]; rfl)
      (by show _ ≠ s.sup.supply; rw [power]; nofun),
      show (mainsTaken n false s).sup.supply = .mains from power, told]
    show ((shown q f s.lle (taken .battery (mainsTaken n false s))).removeHolder .supply).abandonForCeiling _ _ = _
    rw [holder]
    exact ceiling
  obtain ⟨t, settled, frame, sup, plan, faults⟩ := supply_settles (u := mainsTaken n false s) (x := .battery) (q := q) (f := f)
    (l := l2) idle silent uncalled (by rw [power]; nofun) nofun rfl rfl link2 (sync2.trans sync1)
  rw [level, derived, settled] at next
  refine ⟨t, next, by rw [frame], by rw [sup]; rfl, by rw [sup]; rfl, by rw [sup]; rfl,
    (faults _ (by decide)).trans active, plan, by rw [sup]⟩

theorem mains_returns (timer : s.sup.mainsTimer = some d) (power : s.sup.supply = .battery) (level : s.pins.mainsOk = true)
    (free : s.lle.holders.supply = false) (idle : s.linkIdle) (silent : s.vsw.episodes = []) (uncalled : s.cct.episodes = []) :
    ∃ t, exec .mainsOkDebounced s = .next t ∧
      t = { s with now := t.now, ybi := t.ybi, sup := t.sup, vsw := t.vsw, cct := t.cct, flt := t.flt } ∧
      t.sup.supply = .mains ∧ t.sup.mainsOk = true ∧ t.sup.mainsTimer = none ∧
      t.faultActive .supplyOnBattery .supply = false ∧ t.faultActive .supplyBatteryLow .supply = false ∧
      t.vsw.plan = RingPlan.empty ∧ t.sup.converter = (s.sup.converter.shed .mains).askedNothing t.now := by
  obtain ⟨n, next⟩ := mains_debounced timer idle.1
  obtain ⟨q, f, told, battery, low⟩ := faults_mains .battery (taken .mains (mainsTaken n true s))
  have derived : (mainsTaken n true s).deriveSupply = shown q f s.lle (taken .mains (mainsTaken n true s)) := by
    rw [deriveSupply_changes (x := .mains) rfl (by show _ ≠ s.sup.supply; rw [power]; nofun),
      show (mainsTaken n true s).sup.supply = .battery from power, told]
    exact if_neg (by show ¬ s.lle.holders.supply = true; simp [free])
  obtain ⟨t, settled, frame, sup, plan, faults⟩ := supply_settles (u := mainsTaken n true s) (x := .mains) (q := q) (f := f)
    (l := s.lle) idle silent uncalled (by rw [power]; nofun) nofun rfl rfl idle.1 rfl
  rw [level, derived, settled] at next
  exact ⟨t, next, frame, by rw [sup]; rfl, by rw [sup]; rfl, by rw [sup]; rfl, (faults _ (by decide)).trans battery,
    (faults _ (by decide)).trans low, plan, by rw [sup]⟩

/-- A battery that recovers, or mains that return, take holder SUPPLY from a link that nothing else holds. -/
theorem holder_leaves {x : SupplyState} {u v : State} (frame : v = { u with lle := s.lle }) (link : s.lle.link = .quiet) (power : x ≠ .batteryLow)
    (alone : s.lle.holders = { management := false, supply := true, voltage := false, survey := false }) : ∃ l : Lle,
    (v.supplyHolder x).abandonForCeiling .batteryLow x = { u with lle := l } ∧ l.link = .down ∧ l.holders.isEmpty = true ∧
      l.sync = s.lle.sync := by
  obtain ⟨l, holder, down, empty, sync⟩ := removeHolder_last (s := v) (by rw [frame]; exact link) (by rw [frame]; exact alone)
  refine ⟨l, ?_, down, empty, sync.trans (by rw [frame])⟩
  unfold State.supplyHolder
  rw [if_neg power, holder, frame]
  exact if_neg (by simp)

theorem mains_rescues (timer : s.sup.mainsTimer = some d) (power : s.sup.supply = .batteryLow) (level : s.pins.mainsOk = true)
    (idle : s.linkIdle) (link : s.lle.link = .quiet)
    (alone : s.lle.holders = { management := false, supply := true, voltage := false, survey := false })
    (silent : s.vsw.episodes = []) (uncalled : s.cct.episodes = []) :
    ∃ t, exec .mainsOkDebounced s = .next t ∧
      t = { s with now := t.now, ybi := t.ybi, sup := t.sup, lle := t.lle, vsw := t.vsw, cct := t.cct, flt := t.flt } ∧
      t.sup.supply = .mains ∧ t.sup.mainsOk = true ∧ t.sup.mainsTimer = none ∧ t.lle.holders.isEmpty = true ∧
      t.lle.link = .down ∧ t.faultActive .supplyOnBattery .supply = false ∧
      t.faultActive .supplyBatteryLow .supply = false ∧ t.vsw.plan = RingPlan.empty ∧
      t.sup.converter = (s.sup.converter.shed .mains).askedNothing t.now := by
  obtain ⟨n, next⟩ := mains_debounced timer idle.1
  obtain ⟨q, f, told, battery, low⟩ := faults_mains .batteryLow (taken .mains (mainsTaken n true s))
  obtain ⟨l, holder, down, empty, sync⟩ := holder_leaves (s := s) (x := .mains) (u := shown q f s.lle (taken .mains (mainsTaken n true s)))
    (v := shown q f s.lle (taken .mains (mainsTaken n true s))) rfl link nofun alone
  have derived : (mainsTaken n true s).deriveSupply = shown q f l (taken .mains (mainsTaken n true s)) := by
    rw [deriveSupply_changes (x := .mains) rfl (by show _ ≠ s.sup.supply; rw [power]; nofun),
      show (mainsTaken n true s).sup.supply = .batteryLow from power, told]
    exact holder
  obtain ⟨t, settled, frame, sup, plan, faults⟩ := supply_settles (u := mainsTaken n true s) (x := .mains) (q := q) (f := f)
    (l := l) idle silent uncalled (by rw [power]; nofun) nofun rfl rfl (by rw [down]; nofun) sync
  rw [level, derived, settled] at next
  have lle : t.lle = l := by rw [frame]
  exact ⟨t, next, by rw [lle]; exact frame, by rw [sup]; rfl, by rw [sup]; rfl, by rw [sup]; rfl, by rw [lle]; exact empty,
    by rw [lle]; exact down, (faults _ (by decide)).trans battery, (faults _ (by decide)).trans low, plan, by rw [sup]⟩

theorem battery_recovers (timer : s.sup.battTimer = some d) (power : s.sup.supply = .batteryLow) (mains : s.sup.mainsOk = false)
    (level : s.pins.battLow = false) (idle : s.linkIdle) (link : s.lle.link = .quiet)
    (alone : s.lle.holders = { management := false, supply := true, voltage := false, survey := false })
    (silent : s.vsw.episodes = []) (uncalled : s.cct.episodes = []) :
    ∃ t, exec .battLowDebounced s = .next t ∧
      t = { s with now := t.now, ybi := t.ybi, sup := t.sup, lle := t.lle, vsw := t.vsw, cct := t.cct, flt := t.flt } ∧
      t.sup.supply = .battery ∧ t.sup.battLow = false ∧ t.sup.battTimer = none ∧ t.lle.holders.isEmpty = true ∧
      t.lle.link = .down ∧
      t.faultActive .supplyOnBattery .supply = s.faultActive .supplyOnBattery .supply ∧
      t.faultActive .supplyBatteryLow .supply = false ∧ t.vsw.plan = RingPlan.empty ∧
      t.sup.converter = (s.sup.converter.shed .battery).askedNothing t.now := by
  obtain ⟨n, next⟩ := batt_debounced timer idle.1
  obtain ⟨q, f, told, battery, low⟩ := faults_recovered (taken .battery (battTaken n false s))
  obtain ⟨l, holder, down, empty, sync⟩ := holder_leaves (s := s) (x := .battery) (u := shown q f s.lle (taken .battery (battTaken n false s)))
    (v := shown q f s.lle (taken .battery (battTaken n false s))) rfl link nofun alone
  have derived : (battTaken n false s).deriveSupply = shown q f l (taken .battery (battTaken n false s)) := by
    rw [deriveSupply_changes (x := .battery) (by show supplyOf s.sup.mainsOk false = _; rw [mains]; rfl)
      (by show _ ≠ s.sup.supply; rw [power]; nofun), show (battTaken n false s).sup.supply = .batteryLow from power, told]
    exact holder
  obtain ⟨t, settled, frame, sup, plan, faults⟩ := supply_settles (u := battTaken n false s) (x := .battery) (q := q) (f := f)
    (l := l) idle silent uncalled (by rw [power]; nofun) nofun rfl rfl (by rw [down]; nofun) sync
  rw [level, derived, settled] at next
  have lle : t.lle = l := by rw [frame]
  exact ⟨t, next, by rw [lle]; exact frame, by rw [sup]; rfl, by rw [sup]; rfl, by rw [sup]; rfl, by rw [lle]; exact empty,
    by rw [lle]; exact down, (faults _ (by decide)).trans battery, (faults _ (by decide)).trans low, plan, by rw [sup]⟩

theorem mains_fails_low (timer : s.sup.mainsTimer = some d) (power : s.sup.supply = .mains) (level : s.pins.mainsOk = false)
    (drained : s.sup.battLow = true) (free : s.lle.holders.supply = false) (idle : s.linkIdle) (lockout : s.lle.link ≠ .lockout)
    (room : s.flt.entries.length < 15) :
    ∃ t, exec .mainsOkDebounced s = .next t ∧
      t = { s with now := t.now, ybi := t.ybi, sup := t.sup, lle := t.lle, vsw := t.vsw, cct := t.cct, flt := t.flt, ctb := t.ctb } ∧
      t.sup.supply = .batteryLow ∧ t.sup.mainsOk = false ∧ t.sup.mainsTimer = none ∧ t.lle.holders.supply = true ∧
      t.lle.link = .quiet ∧ t.faultActive .supplyOnBattery .supply = true ∧
      t.faultActive .supplyBatteryLow .supply = true := by
  obtain ⟨n, next⟩ := mains_debounced timer idle.1
  obtain ⟨q, f, told, battery, low⟩ := faults_failed (s := taken .batteryLow (mainsTaken n false s)) room
  obtain ⟨l, holder, quiet, holds, -⟩ := addHolder_quiet (s := shown q f s.lle (taken .batteryLow (mainsTaken n false s))) idle.1
    lockout free
  have derived : (mainsTaken n false s).deriveSupply = shown q f l (taken .batteryLow (mainsTaken n false s)) := by
    rw [deriveSupply_changes (x := .batteryLow) (by show supplyOf false s.sup.battLow = _; rw [drained]; rfl)
      (by show _ ≠ s.sup.supply; rw [power]; nofun), show (mainsTaken n false s).sup.supply = .mains from power, told]
    show ((shown q f s.lle (taken .batteryLow (mainsTaken n false s))).addHolder .supply).abandonForCeiling _ _ = _
    rw [holder]
    exact if_neg (by simp)
  obtain ⟨t, settled, frame, sup, link, holders, faults⟩ := low_settles (u := mainsTaken n false s) (q := q) (f := f) (l := l) idle
    rfl quiet
  rw [level, derived, settled] at next
  exact ⟨t, next, frame, by rw [sup]; rfl, by rw [sup]; rfl, by rw [sup]; rfl, by rw [holders]; exact holds, link,
    faults _ battery, faults _ low⟩

theorem battery_drains (timer : s.sup.battTimer = some d) (power : s.sup.supply = .battery) (mains : s.sup.mainsOk = false)
    (level : s.pins.battLow = true) (free : s.lle.holders.supply = false) (idle : s.linkIdle) (lockout : s.lle.link ≠ .lockout)
    (room : s.flt.entries.length < 16) :
    ∃ t, exec .battLowDebounced s = .next t ∧
      t = { s with now := t.now, ybi := t.ybi, sup := t.sup, lle := t.lle, vsw := t.vsw, cct := t.cct, flt := t.flt, ctb := t.ctb } ∧
      t.sup.supply = .batteryLow ∧ t.sup.battLow = true ∧
      t.sup.battTimer = none ∧ t.lle.holders.supply = true ∧ t.lle.link = .quiet ∧
      t.faultActive .supplyBatteryLow .supply = true := by
  obtain ⟨n, next⟩ := batt_debounced timer idle.1
  obtain ⟨q, f, told, low⟩ := faults_lowered (s := taken .batteryLow (battTaken n true s)) room
  obtain ⟨l, holder, quiet, holds, -⟩ := addHolder_quiet (s := shown q f s.lle (taken .batteryLow (battTaken n true s))) idle.1
    lockout free
  have derived : (battTaken n true s).deriveSupply = shown q f l (taken .batteryLow (battTaken n true s)) := by
    rw [deriveSupply_changes (x := .batteryLow) (by show supplyOf s.sup.mainsOk true = _; rw [mains]; rfl)
      (by show _ ≠ s.sup.supply; rw [power]; nofun), show (battTaken n true s).sup.supply = .battery from power, told]
    show ((shown q f s.lle (taken .batteryLow (battTaken n true s))).addHolder .supply).abandonForCeiling _ _ = _
    rw [holder]
    exact if_neg (by simp)
  obtain ⟨t, settled, frame, sup, link, holders, faults⟩ := low_settles (u := battTaken n true s) (q := q) (f := f) (l := l) idle
    rfl quiet
  rw [level, derived, settled] at next
  exact ⟨t, next, frame, by rw [sup]; rfl, by rw [sup]; rfl, by rw [sup]; rfl, by rw [holders]; exact holds, link, faults _ low⟩

/-- Under mains a change of BATT_LOW sets its level, and nothing follows. -/
theorem battery_unneeded (timer : s.sup.battTimer = some d) (power : s.sup.supply = .mains) (mains : s.sup.mainsOk = true) :
    exec .battLowDebounced s = .next
      ((s.reach d).onSup fun p => { p with battLow := s.pins.battLow, battTimer := none }) := by
  obtain ⟨m, l, frame, -⟩ := reach_frame d s
  have derived : ((s.reach d).onSup fun p => { p with battLow := (s.reach d).pins.battLow, battTimer := none }).deriveSupply =
      (s.reach d).onSup fun p => { p with battLow := s.pins.battLow, battTimer := none } := by
    rw [show (s.reach d).pins = s.pins by rw [frame]]
    refine if_pos ?_
    show supplyOf (s.reach d).sup.mainsOk _ = (s.reach d).sup.supply
    rw [frame]
    show supplyOf s.sup.mainsOk _ = s.sup.supply
    rw [mains, power]
    rfl
  show execBattLowDebounced s = _
  rw [execBattLowDebounced, onExpiry_some timer, derived]
  exact finish_undisturbed (undisturbed_onSup (reach_undisturbed d s) rfl rfl rfl rfl rfl)

theorem feedMilliamp_eq (p : Port) (s : State) : s.feedMilliamp p =
    if s.cfl.state = .ready ∧ (s.port p).state ≠ .outOfService then (if s.sup.supply = .mains then 25 else 20) else 0 := by
  unfold State.feedMilliamp State.fed
  by_cases fed : s.cfl.state = .ready ∧ (s.port p).state ≠ .outOfService
  · rw [if_pos fed, if_pos (by simpa using fed)]
    cases s.sup.supply <;> rfl
  · rw [if_neg fed, if_neg (by simpa using fed)]

/-- Settles O12: the inputs, each change between the three states, and what each state gives. -/
theorem supplyInputsAndState : Obligations.SupplyInputsAndState := by
  refine ⟨fun s => ⟨fun stopped => ?_, ?_, fun stopped => ?_, ?_⟩,
    ⟨fun _ _ timer power level charged room idle silent uncalled =>
        mains_fails timer power level charged room idle silent uncalled,
      fun _ _ timer power level free idle silent uncalled => mains_returns timer power level free idle silent uncalled,
      fun _ _ timer power level drained free idle lockout room =>
        mains_fails_low timer power level drained free idle lockout room,
      fun _ _ timer power level idle link alone silent uncalled =>
        mains_rescues timer power level idle link alone silent uncalled,
      fun _ _ timer power mains level idle link alone silent uncalled =>
        battery_recovers timer power mains level idle link alone silent uncalled,
      fun _ _ timer power mains => battery_unneeded timer power mains,
      fun _ _ timer power mains level free idle lockout room =>
        battery_drains timer power mains level free idle lockout room⟩,
    rfl, rfl, feedMilliamp_eq⟩
  · rw [mains_changes]
    refine congrArg (fun t => Host.Outcome.next ((s.onPins _).onSup fun p => { p with mainsTimer := t })) ?_
    exact stopped.symm ▸ debounce_starts _ _ _
  · rw [mains_changes]
    exact congrArg (fun t => Host.Outcome.next ((s.onPins _).onSup fun p => { p with mainsTimer := t })) (debounce_settled ..)
  · rw [batt_changes]
    refine congrArg (fun t => Host.Outcome.next ((s.onPins _).onSup fun p => { p with battTimer := t })) ?_
    exact stopped.symm ▸ debounce_starts _ _ _
  · rw [batt_changes]
    exact congrArg (fun t => Host.Outcome.next ((s.onPins _).onSup fun p => { p with battTimer := t })) (debounce_settled ..)

end Sys2Proof.Proofs.Supplies
end

section
/-! Bytes on the pair, frames and the configuration record read back (O58). -/

set_option Elab.async false

namespace Sys2Proof.Proofs.Encoding

open Sys2Proof Sys2Proof.Machine

/-! ### Bytes on the pair (R1, R2) -/

theorem runsOf_bytes_length (l : List Byte) : (runsOf (l.flatMap byteLevels)).length = l.length + 9 * l.length := by
  induction l with
  | nil => rfl
  | cons b l ih =>
    simp only [runsOf, List.length_map, List.flatMap_cons, List.length_append, List.length_cons] at ih ⊢
    rw [ih, show (byteLevels b).length = 10 from rfl]
    omega

theorem readRuns_nil (n : Nat) : readRuns n [] = [] := by
  cases n <;> rfl

theorem readRuns_bytes_alone (n : Nat) (l : List Byte) :
    readRuns (l.length + n) (runsOf (l.flatMap byteLevels)) = heardBefore 0 l := by
  have read := readRuns_bytes n l []
  rwa [List.append_nil, readRuns_nil, List.append_nil] at read

theorem readWire_bytes (b : Byte) (l : List Byte) : readWire (runsOf ((b :: l).flatMap byteLevels)) = [(b :: l, false)] := by
  rw [readWire, runsOf_bytes_length, readRuns_bytes_alone, framesOf_bytes, List.map_singleton, frameBytes_heardBefore]

theorem readRuns_gap (l m : List Byte) (gap : Nat) :
    let w := runsOf (l.flatMap byteLevels) ++ { dominant := false, micros := gap } :: runsOf (m.flatMap byteLevels)
    readRuns w.length w = heardBefore (gap + Config.byteMicros * m.length) l ++ heardBefore 0 m := by
  intro w
  have turns : w.length = l.length + (m.length + (9 * l.length + 1 + 9 * m.length)) := by
    rw [List.length_append, List.length_cons, runsOf_bytes_length, runsOf_bytes_length]
    omega
  have stands : runsMicros ({ dominant := false, micros := gap } :: runsOf (m.flatMap byteLevels)) =
      gap + Config.byteMicros * m.length := by
    rw [← runsMicros_bytes]
    rfl
  rw [turns, readRuns_bytes, readRuns_recessive, readRuns_bytes_alone, stands]

theorem readWire_gap (b c : Byte) (l m : List Byte) (gap : Nat) :
    readWire (runsOf ((b :: l).flatMap byteLevels) ++
        { dominant := false, micros := gap } :: runsOf ((c :: m).flatMap byteLevels)) =
      if gap < 1000 then [(b :: l ++ c :: m, false)] else [(b :: l, false), (c :: m, false)] := by
  have behind := framesOf_bytes 0 c m
  have joined (more : Nat) : frameBytes (heardBefore more (b :: l) ++ heardBefore 0 (c :: m)) = (b :: l ++ c :: m, false) := by
    have first := frameBytes_heardBefore more (b :: l)
    have second := frameBytes_heardBefore 0 (c :: m)
    simp only [frameBytes, Prod.mk.injEq] at first second
    simp only [frameBytes, List.map_append, List.any_append, first.1, first.2, second.1, second.2, Bool.or_self]
  rw [readWire, readRuns_gap]
  by_cases short : gap < 1000
  · rw [if_pos short, ← joined (gap + Config.byteMicros * (c :: m).length)]
    refine congrArg (List.map frameBytes) (framesOf_bytes_meet _ behind ?_)
    show gap + 500 * (m.length + 1) < 500 * (m.length + 1) + 0 + 1000
    omega
  · rw [if_neg short]
    refine (congrArg (List.map frameBytes) (framesOf_bytes_apart b l behind ?_)).trans ?_
    · show 500 * (m.length + 1) + 0 + 1000 ≤ gap + 500 * (m.length + 1)
      omega
    · exact congrArg₂ (fun x y => [x, y]) (frameBytes_heardBefore _ (b :: l)) (frameBytes_heardBefore 0 (c :: m))

/-! ### Frames (sections 11.1 and 11.2) -/

theorem byte_toNat {n : Nat} (h : n ≤ 255) : (byte n).toNat = n := by
  rw [byte, BitVec.toNat_ofNat]
  omega

theorem fromBe_be16 {n : Nat} (h : n < 65536) : fromBe (be16 n) = n := by
  show ((0 * 256 + (byte (n / 256)).toNat) * 256 + (byte n).toNat) = n
  rw [byte_toNat (by omega), byte, BitVec.toNat_ofNat]
  omega

theorem kindOf_code (k : Kind) : kindOf k.code = some k := by
  cases k <;> rfl

theorem code_le (k : Kind) : k.code ≤ 255 := by
  cases k <;> decide

/-- The four bytes before the body of a frame. -/
def frameHead (own : Nat) (f : TxFrame) : List Byte := [byte f.dest, byte own, byte f.kind.code, byte f.body.length]

theorem wireBytes_eq (own : Nat) (f : TxFrame) :
    wireBytes own f = (frameHead own f ++ f.body) ++ be16 (crc (frameHead own f ++ f.body)).toNat := rfl

theorem frameHead_length (own : Nat) (f : TxFrame) : (frameHead own f ++ f.body).length = f.body.length + 4 := by
  rw [List.length_append, Nat.add_comm]
  rfl

theorem wireBytes_length (own : Nat) (f : TxFrame) : (wireBytes own f).length = f.body.length + 6 := by
  rw [wireBytes_eq, List.length_append, frameHead_length]
  rfl

theorem wireBytes_take (own : Nat) (f : TxFrame) : (wireBytes own f).take (f.body.length + 4) = frameHead own f ++ f.body := by
  rw [wireBytes_eq, ← frameHead_length own f, List.take_left]

theorem wireBytes_drop (own : Nat) (f : TxFrame) :
    (wireBytes own f).drop (f.body.length + 4) = be16 (crc (frameHead own f ++ f.body)).toNat := by
  rw [wireBytes_eq, ← frameHead_length own f, List.drop_left]

theorem wireBytes_body (own : Nat) (f : TxFrame) : ((wireBytes own f).drop 4).take f.body.length = f.body := by
  rw [wireBytes_eq, List.append_assoc]
  show (f.body ++ _).take f.body.length = f.body
  exact List.take_left

/-- A frame of the part passes the judgement of another station. -/
theorem judgeFrame_wireBytes {own other : Nat} {f : TxFrame} (low : 1 ≤ own) (high : own ≤ 24) (apart : own ≠ other)
    (dest : f.dest ≤ 24) (short : f.body.length ≤ 24) :
    judgeFrame other (wireBytes own f) false = some { dest := f.dest, src := own, code := f.kind.code, body := f.body } := by
  have destByte : ((wireBytes own f).getD 0 0).toNat = f.dest := byte_toNat (by omega)
  have srcByte : ((wireBytes own f).getD 1 0).toNat = own := byte_toNat (by omega)
  have codeByte : ((wireBytes own f).getD 2 0).toNat = f.kind.code := byte_toNat (code_le _)
  have lengthByte : ((wireBytes own f).getD 3 0).toNat = f.body.length := byte_toNat (by omega)
  have check : fromBe ((wireBytes own f).drop (f.body.length + 4)) = (crc (frameHead own f ++ f.body)).toNat := by
    rw [wireBytes_drop, fromBe_be16 (BitVec.isLt _)]
  rw [judgeFrame, destByte, srcByte, codeByte, lengthByte, check, wireBytes_take, wireBytes_body, wireBytes_length]
  refine if_neg ?_
  simp only [Bool.or_eq_true, decide_eq_true_eq, Bool.false_eq_true, ne_eq, not_true_eq_false, or_false, false_or, apart]
  omega

/-! ### The configuration record (section 11.5) -/

theorem clampNat_within {lo hi x : Nat} (low : lo ≤ x) (high : x ≤ hi) : clampNat lo hi x = x := by
  unfold clampNat
  omega

theorem flagOf_flagByte (b : Bool) : flagOf (flagByte b) = b := by
  cases b <;> rfl

/-- The check byte makes the sum of the image 0 modulo 256. -/
theorem checked_sum (l : List Byte) :
    ((l ++ [byte (256 - l.foldl (fun acc b => acc + b.toNat) 0 % 256)]).foldl (fun acc b => acc + b.toNat) 0) % 256 = 0 := by
  rw [List.foldl_append]
  generalize l.foldl (fun acc b => acc + b.toNat) 0 = n
  show (n + (byte (256 - n % 256)).toNat) % 256 = 0
  rw [byte, BitVec.toNat_ofNat]
  omega

/-- The 63 bytes of the image before its check byte. -/
def imageHead (r : ConfigRecord) : List Byte :=
  [0x5C, byte r.targetMargin, byte r.minMargin] ++ be16 r.rateCap ++ be16 r.rateFloor ++
    [byte r.bmax, byte r.dInit, byte r.dMax, byte r.guardAllowance, byte r.guardSelection.code, flagByte r.startHeld,
     byte r.unitsA, byte r.unitsB, flagByte r.directA, flagByte r.directB, flagByte r.ringA, flagByte r.ringB,
     flagByte r.joinAllowed, byte r.cadence.code] ++
    r.management.map byte ++ r.counterEvents.map byte ++ List.replicate 32 0

theorem recordImage_eq (r : ConfigRecord) :
    recordImage r = imageHead r ++ [byte (256 - (imageHead r).foldl (fun acc b => acc + b.toNat) 0 % 256)] := rfl

theorem memoryUsable_image {r : ConfigRecord} (places : r.management.length = 4) (events : r.counterEvents.length = 6) :
    memoryUsable (recordImage r) = true := by
  have size : (recordImage r).length = 64 := by
    rw [recordImage_eq]
    simp [imageHead, be16, places, events]
  have sum := checked_sum (imageHead r)
  rw [← recordImage_eq] at sum
  rw [memoryUsable, size, sum]
  rfl

theorem be16_at {n : Nat} (h : n < 65536) : (byte (n / 256)).toNat * 256 + (byte n).toNat = n := by
  rw [byte_toNat (by omega), byte, BitVec.toNat_ofNat]
  omega

theorem selection_read (g : GuardSelection) :
    (match (byte g.code).toNat with | 1 => .ringIn | 2 => .parallel | _ => GuardSelection.both) = g := by
  cases g <;> rfl

theorem cadence_read (c : Cadence) : (match (byte c.code).toNat with | 1 => .long | _ => Cadence.double) = c := by
  cases c <;> rfl

/-- Reading the image of a record in range gives the record. -/
theorem clampRecord_image {r : ConfigRecord} (range : r.inRange = true) (places : managementPlaces r.management = r.management)
    (events : r.counterEvents.length = 6) (bytes : ∀ n ∈ r.counterEvents, n ≤ 255) : clampRecord (recordImage r) = r := by
  obtain ⟨margin, least, cap, floor, bits, first, most, guard, selection, held, a, b, dirA, dirB, ringA, ringB, join, cadence,
    management, counters⟩ := r
  simp only [ConfigRecord.inRange, Bool.and_eq_true, decide_eq_true_eq, List.all_eq_true] at range
  obtain ⟨⟨⟨⟨⟨⟨⟨⟨⟨⟨⟨⟨⟨⟨⟨⟨⟨⟨marginLow, marginHigh⟩, minMargin⟩, capLow⟩, capHigh⟩, floorCap⟩, floorLow⟩, floorHigh⟩, bitsLow⟩,
    bitsHigh⟩, dInit⟩, dMax⟩, allowance⟩, aLow⟩, aHigh⟩, bLow⟩, bHigh⟩, four⟩, addresses⟩ := range
  obtain ⟨m₀, m₁, m₂, m₃, rfl⟩ : ∃ x y z w, management = [x, y, z, w] := by
    match management, four with
    | [x, y, z, w], _ => exact ⟨x, y, z, w, rfl⟩
  obtain ⟨e₀, e₁, e₂, e₃, e₄, e₅, rfl⟩ : ∃ x y z w u v, counters = [x, y, z, w, u, v] := by
    match counters, events with
    | [x, y, z, w, u, v], _ => exact ⟨x, y, z, w, u, v, rfl⟩
  simp only [List.mem_cons, List.not_mem_nil, or_false, forall_eq_or_imp, forall_eq] at addresses bytes
  obtain ⟨n₀, n₁, n₂, n₃⟩ := addresses
  obtain ⟨b₀, b₁, b₂, b₃, b₄, b₅⟩ := bytes
  have margin' : clampNat 12 64 (byte margin).toNat = margin := by rw [byte_toNat (by omega), clampNat_within marginLow marginHigh]
  have cap' : clampNat 256 15000 ((byte (cap / 256)).toNat * 256 + (byte cap).toNat) = cap := by
    rw [be16_at (by omega), clampNat_within capLow capHigh]
  have floor' : min cap (clampNat 64 4096 ((byte (floor / 256)).toNat * 256 + (byte floor).toNat)) = floor := by
    rw [be16_at (by omega), clampNat_within floorLow floorHigh, Nat.min_eq_right floorCap]
  have most' : clampNat 0 4 (byte most).toNat = most := by rw [byte_toNat (by omega), clampNat_within (Nat.zero_le _) dMax]
  have least' : clampNat 0 margin (byte least).toNat = least := by
    rw [byte_toNat (by omega), clampNat_within (Nat.zero_le _) minMargin]
  have first' : clampNat 0 most (byte first).toNat = first := by
    rw [byte_toNat (by omega), clampNat_within (Nat.zero_le _) dInit]
  have bits' : clampNat 2 12 (byte bits).toNat = bits := by rw [byte_toNat (by omega), clampNat_within bitsLow bitsHigh]
  have guard' : clampNat 0 32 (byte guard).toNat = guard := by
    rw [byte_toNat (by omega), clampNat_within (Nat.zero_le _) allowance]
  have unitsA : clampNat 1 3 (byte a).toNat = a := by rw [byte_toNat (by omega), clampNat_within aLow aHigh]
  have unitsB : clampNat 1 3 (byte b).toNat = b := by rw [byte_toNat (by omega), clampNat_within bLow bHigh]
  have list : managementPlaces [(byte m₀).toNat, (byte m₁).toNat, (byte m₂).toNat, (byte m₃).toNat] = [m₀, m₁, m₂, m₃] := by
    rw [byte_toNat (by omega), byte_toNat (by omega), byte_toNat (by omega), byte_toNat (by omega)]
    exact places
  have shown : clampRecord (recordImage ⟨margin, least, cap, floor, bits, first, most, guard, selection, held, a, b, dirA, dirB,
      ringA, ringB, join, cadence, [m₀, m₁, m₂, m₃], [e₀, e₁, e₂, e₃, e₄, e₅]⟩) =
      { targetMargin := clampNat 12 64 (byte margin).toNat
        minMargin := clampNat 0 (clampNat 12 64 (byte margin).toNat) (byte least).toNat
        rateCap := clampNat 256 15000 ((byte (cap / 256)).toNat * 256 + (byte cap).toNat)
        rateFloor := min (clampNat 256 15000 ((byte (cap / 256)).toNat * 256 + (byte cap).toNat))
          (clampNat 64 4096 ((byte (floor / 256)).toNat * 256 + (byte floor).toNat))
        bmax := clampNat 2 12 (byte bits).toNat
        dInit := clampNat 0 (clampNat 0 4 (byte most).toNat) (byte first).toNat
        dMax := clampNat 0 4 (byte most).toNat
        guardAllowance := clampNat 0 32 (byte guard).toNat
        guardSelection := match (byte selection.code).toNat with | 1 => .ringIn | 2 => .parallel | _ => .both
        startHeld := flagOf (flagByte held)
        unitsA := clampNat 1 3 (byte a).toNat
        unitsB := clampNat 1 3 (byte b).toNat
        directA := flagOf (flagByte dirA)
        directB := flagOf (flagByte dirB)
        ringA := flagOf (flagByte ringA)
        ringB := flagOf (flagByte ringB)
        joinAllowed := flagOf (flagByte join)
        cadence := match (byte cadence.code).toNat with | 1 => .long | _ => .double
        management := managementPlaces [(byte m₀).toNat, (byte m₁).toNat, (byte m₂).toNat, (byte m₃).toNat]
        counterEvents := [(byte e₀).toNat, (byte e₁).toNat, (byte e₂).toNat, (byte e₃).toNat, (byte e₄).toNat,
          (byte e₅).toNat] } := rfl
  rw [shown, margin', cap', floor', most', least', first', bits', guard', unitsA, unitsB, list, selection_read, cadence_read,
    byte_toNat b₀, byte_toNat b₁, byte_toNat b₂, byte_toNat b₃, byte_toNat b₄, byte_toNat b₅]
  simp only [flagOf_flagByte]

/-- Settles O58: the levels of bytes, the bytes of a frame, and the image of a record, each read back. -/
theorem encodingsReadBack : Obligations.EncodingsReadBack := by
  refine ⟨fun bytes some => ?_, fun bytes more gap some others => ?_, fun own other f low high apart dest short =>
    ⟨judgeFrame_wireBytes low high apart dest short, kindOf_code _⟩, fun r range places events bytes =>
    ⟨memoryUsable_image ?_ events, clampRecord_image range places events bytes⟩⟩
  · cases bytes with
    | nil => exact absurd rfl some
    | cons b l => exact readWire_bytes b l
  · cases bytes with
    | nil => exact absurd rfl some
    | cons b l =>
      cases more with
      | nil => exact absurd rfl others
      | cons c m => exact readWire_gap b c l m gap
  · simp only [ConfigRecord.inRange, Bool.and_eq_true, decide_eq_true_eq] at range
    exact range.1.2

end Sys2Proof.Proofs.Encoding
end

section
/-! What is told leaves the fault LINK_RETRAIN_LIMIT as it stands: the link half of what every step keeps (O60). -/

set_option Elab.async false

namespace Sys2Proof.Proofs.Standing

open Sys2Proof Sys2Proof.Machine Sys2Proof.Proofs.Steps Sys2Proof.Proofs.Telling Sys2Proof.Proofs.Link

variable {s0 s t u : State} {k : FaultKey}

/-! ### The fault table -/

/-- The fault that goes with LOCKOUT (R47). -/
def lockoutFault : FaultKey := ⟨.linkRetrainLimit, .line⟩

/-- From one table to a later one LINK_RETRAIN_LIMIT stands, the sources stay those of the catalogue, and the table stays
within its capacity. -/
structure Spared (f g : Flt) : Prop where
  active : g.isActive lockoutFault = f.isActive lockoutFault
  listed : Listed f → Listed g
  fits : f.fits = true → g.fits = true

theorem Spared.refl (f : Flt) : Spared f f := ⟨rfl, id, id⟩

theorem Spared.trans {f g h : Flt} (a : Spared f g) (b : Spared g h) : Spared f h :=
  ⟨b.active.trans a.active, fun x => b.listed (a.listed x), fun x => b.fits (a.fits x)⟩

theorem lockoutFault_safe : Safe lockoutFault := safe_of_out rfl

theorem Spared.of_spares {f g : Flt} (other : lockoutFault ≠ k) (own : k.listed = true) (h : Spares k f g)
    (fits : f.fits = true → g.fits = true) : Spared f g :=
  ⟨h.safe _ other lockoutFault_safe, h.listed own, fits⟩

theorem Spared.of_entries {f g : Flt} (entries : g.entries = f.entries) (fits : f.fits = true → g.fits = true) : Spared f g :=
  have h := Spares.of_entries backlogKey entries
  .of_spares (by decide) rfl h fits

theorem spared_raised (other : lockoutFault ≠ k) (own : k.listed = true) (now up : Nat) (f : Flt) :
    Spared f (f.raised k now up).1 where
  active := Table.raised_other_keeps other fun _ old key => Table.makeRoom_protected old (lockoutFault_safe _ key)
  listed h := raised_listed own h
  fits := raised_fits now up

theorem spared_madeInactive (other : lockoutFault ≠ k) (own : k.listed = true) (now up : Nat) (f : Flt) :
    Spared f (f.madeInactive k now up).1 :=
  .of_spares other own spares_madeInactive (madeInactive_fits now up)

theorem makeRoom_spared (v : Severity) (f : Flt) :
    (f.makeRoom v).isActive lockoutFault = f.isActive lockoutFault ∧ (Listed f → Listed (f.makeRoom v)) := by
  refine ⟨?_, fun h e mem => h e (makeRoom_sub mem)⟩
  rw [Bool.eq_iff_iff, Table.isActive_iff, Table.isActive_iff]
  exact ⟨fun ⟨e, mem, key, on⟩ => ⟨e, makeRoom_sub mem, key, on⟩, fun ⟨e, mem, key, on⟩ =>
    ⟨e, Table.makeRoom_protected mem (lockoutFault_safe e key), key, on⟩⟩

theorem listed_update {g : FaultEntry → FaultEntry} {f : Flt} (hg : ∀ e, (g e).key = e.key) (h : Listed f) :
    Listed (f.update k g) := by
  intro e mem
  obtain ⟨x, old, rfl⟩ := List.mem_map.mp mem
  split
  · rw [hg]
    exact h x old
  · exact h x old

theorem listed_noticed {f : Flt} (now : Nat) (h : Listed f) : Listed ((f.callForNotice k).resummarise now) := by
  unfold Listed
  rw [resummarise_entries]
  exact listed_update (f := { f with notices := f.notices + 1 }) (fun _ => rfl) h

theorem active_noticed (f : Flt) (now : Nat) :
    ((f.callForNotice k).resummarise now).isActive lockoutFault = f.isActive lockoutFault :=
  (Table.isActive_resummarise ..).trans (Table.isActive_callForNotice ..)

theorem spared_pulsed (other : lockoutFault ≠ k) (own : k.listed = true) (now up : Nat) (f : Flt) :
    Spared f (f.pulsed k now up).1 := by
  have made := makeRoom_spared k.code.severity f
  refine ⟨?_, ?_, pulsed_fits now up⟩
  · unfold Flt.pulsed
    split
    · exact (active_noticed ..).trans (Table.isActive_update_other other fun _ => rfl)
    · dsimp only
      split
      · rw [active_noticed, ← made.1]
        simp [Flt.isActive, List.any_append]
      · exact made.1
  · intro h
    unfold Flt.pulsed
    split
    · exact listed_noticed now (listed_update (fun _ => rfl) h)
    · dsimp only
      split
      · refine listed_noticed now fun e mem => ?_
        rcases List.mem_append.mp mem with old | new
        · exact made.2 h e old
        · rw [List.mem_singleton.mp new]
          exact own
      · exact made.2 h

theorem spared_cleared (f : Flt) : Spared f f.cleared where
  active := by
    rw [Bool.eq_iff_iff, Table.isActive_iff, Table.isActive_iff]
    refine ⟨fun ⟨e, mem, key, on⟩ => ⟨e, List.mem_of_mem_filter mem, key, on⟩, fun ⟨e, mem, key, on⟩ =>
      ⟨e, List.mem_filter.mpr ⟨mem, on⟩, key, on⟩⟩
  listed h e mem := h e (List.mem_of_mem_filter mem)
  fits := cleared_fits

/-! ### Telling -/

/-- From one state to a later one something has been told or discarded, LINK_RETRAIN_LIMIT standing. -/
structure Hushed (s t : State) : Prop where
  frame : ∃ q, t = told q s
  spared : Spared s.flt t.flt

theorem Hushed.refl (s : State) : Hushed s s :=
  ⟨⟨⟨s.ybi.urgent, s.ybi.call, s.ybi.routine, s.ybi.backlogTimer, s.flt, s.ctb⟩, rfl⟩, .refl _⟩

theorem Hushed.trans (h : Hushed s t) (g : Hushed t u) : Hushed s u := by
  obtain ⟨q, first⟩ := h.frame
  obtain ⟨r, second⟩ := g.frame
  refine ⟨⟨r, ?_⟩, h.spared.trans g.spared⟩
  rw [second, first]
  rfl

theorem Hushed.of_tells (h : Tells s t) (table : Spared s.flt t.flt) : Hushed s t := by
  obtain ⟨q, frame, -⟩ := h
  exact ⟨⟨q, frame⟩, table⟩

theorem Hushed.ite {c : Prop} [Decidable c] (h : Hushed s t) (g : Hushed s u) : Hushed s (if c then t else u) := by
  split
  · exact h
  · exact g

theorem Hushed.foldl {α : Type} {f : State → α → State} (hf : ∀ s a, Hushed s (f s a)) (l : List α) (s : State) :
    Hushed s (l.foldl f s) := by
  induction l generalizing s with
  | nil => exact .refl s
  | cons a l ih => exact (hf s a).trans (ih (f s a))

theorem Hushed.repeat {f : State → State} (hf : ∀ s, Hushed s (f s)) (n : Nat) (s : State) : Hushed s (Nat.repeat f n s) := by
  induction n with
  | zero => exact .refl s
  | succ n ih => exact ih.trans (hf _)

theorem hushed_noticeRoutine (e : FaultEntry) (s : State) : Hushed s (s.noticeRoutine e) := by
  refine .of_tells (tells_noticeRoutine e s) ?_
  obtain ⟨q, o, frame⟩ := noticeRoutine_frame e s
  rw [frame]
  exact .of_entries rfl id

theorem hushed_backlog (s : State) : Hushed s s.backlog := by
  have raised : Hushed s ((s.onFlt fun _ => (s.flt.raised backlogKey s.now s.uptime).1).onYbi fun y =>
      { y with backlogTimer := some (s.now + Config.backlogMs) }) :=
    .of_tells ((Tells.onFlt _ s).trans (Tells.backlogTimer _ _)) (spared_raised (by decide) rfl ..)
  unfold State.backlog
  dsimp only
  split
  · exact raised.trans (hushed_noticeRoutine _ _)
  · exact raised

theorem hushed_signalFuel (fuel : Nat) (e : Event) (s : State) : Hushed s (State.signalFuel fuel e s) := by
  have counted (f : Ctb → Ctb) (s : State) : Hushed s (s.onCtb f) := .of_tells (.onCtb f s) (.refl _)
  induction fuel generalizing e s with
  | zero => exact counted _ s
  | succ fuel ih =>
    refine (counted _ s).trans (.foldl (fun s p => ?_) _ _)
    refine .of_tells (tells_handWrap (fun s => (tells_signalFuel _ _ s).trans (tells_backlog _)) _ s) ?_
    unfold State.handWrap
    split
    · exact .refl _
    · split
      · exact .refl _
      · exact ((ih _ s).trans (hushed_backlog _)).spared

theorem hushed_signal (e : Event) (s : State) : Hushed s (s.signal e) := hushed_signalFuel 9 e s

theorem hushed_signalTimes (n : Nat) (e : Event) (s : State) : Hushed s (State.signalTimes n e s) := by
  induction n generalizing s with
  | zero => exact .refl s
  | succ n ih => exact (hushed_signal e s).trans (ih _)

theorem hushed_frameDropped (s : State) : Hushed s s.frameDropped := (hushed_signal _ s).trans (hushed_backlog _)

theorem hushed_handUrgent (f : TxFrame) (s : State) : Hushed s (s.handUrgent f) := by
  refine .of_tells (tells_handUrgent f s) ?_
  unfold State.handUrgent
  split
  · exact .refl _
  · dsimp only
    split
    · exact .refl _
    · exact (hushed_frameDropped
        (s.onYbi fun y => { y with urgent := dropOldestUnsent (s.isSending .urgent) y.urgent })).spared

theorem hushed_handCall (f : TxFrame) (s : State) : Hushed s (s.handCall f) := by
  refine .of_tells (tells_handCall f s) ?_
  unfold State.handCall
  split
  · exact .refl _
  · split
    · exact .refl _
    · exact (hushed_frameDropped s).spared

theorem hushed_handRoutine (f : TxFrame) (s : State) : Hushed s (s.handRoutine f) := by
  refine .of_tells (tells_handRoutine f s) ?_
  unfold State.handRoutine
  split
  · exact .refl _
  · split
    · exact .refl _
    · split
      · exact .refl _
      · exact (hushed_frameDropped s).spared

theorem hushed_lineStatus (s : State) : Hushed s s.lineStatus := hushed_handRoutine _ s

theorem hushed_notice (k : FaultKey) (s : State) : Hushed s (s.notice k) := by
  unfold State.notice
  split
  · exact .refl s
  · exact .ite (hushed_handUrgent _ s) (hushed_noticeRoutine _ s)

theorem hushed_applyFault {r : Flt × Bool} (k : FaultKey) (table : Spared s.flt r.1) : Hushed s (s.applyFault k r) := by
  have first : Hushed s (s.onFlt fun _ => r.1) := .of_tells (.onFlt _ s) table
  exact .ite (first.trans (hushed_notice k _)) first

theorem hushed_raise {c : FaultCode} {x : FaultSource} (s : State) (other : lockoutFault ≠ ⟨c, x⟩ := by nofun)
    (own : FaultKey.listed ⟨c, x⟩ = true := by rfl) : Hushed s (s.raise c x) :=
  hushed_applyFault _ (spared_raised other own ..)

theorem hushed_makeInactive {c : FaultCode} {x : FaultSource} (s : State) (other : lockoutFault ≠ ⟨c, x⟩ := by nofun)
    (own : FaultKey.listed ⟨c, x⟩ = true := by rfl) : Hushed s (s.makeInactive c x) :=
  hushed_applyFault _ (spared_madeInactive other own ..)

theorem hushed_protocolFault (n : Nat) (s : State) : Hushed s (s.protocolFault n) :=
  hushed_applyFault _ (spared_pulsed (k := ⟨.stationProtocol, .station n⟩) (fun h => nomatch (congrArg FaultKey.code h : FaultCode.linkRetrainLimit = _)) rfl ..)

/-! ### The link in step with what goes with it -/

/-- What `State.linkKept` says of the link but for its holders, with the capacity of the fault table. -/
structure LinkTimed (l : Lle) (f : Flt) : Prop where
  lockout : l.link = .lockout ↔ f.isActive lockoutFault = true
  rest : l.link ≠ .showtime → l.sync = Showtime.start ∧ l.slot = none ∧ l.switchWaiting = none ∧ l.powerWaiting = none ∧
    l.shieldWaiting = none
  backoff : l.backoffTimer ≠ none → l.link = .retrainWait
  wait : l.lockoutTimer ≠ none → l.link = .lockout
  held : l.attemptHeld = true → l.link = .lockout
  handshake : l.handshakeTimer ≠ none → l.link = .handshake
  probe : l.probeTimer ≠ none → l.link = .probe
  load : l.loadTimer ≠ none → l.link = .load
  listed : Listed f
  fits : f.fits = true

/-- What `State.linkKept` says of the link and the fault table, with the capacity of the table. -/
structure LinkHeld (l : Lle) (f : Flt) : Prop extends LinkTimed l f where
  quiet : l.link = .quiet ↔ l.holders.isEmpty = false

theorem linkHeld_iff (s : State) : LinkHeld s.lle s.flt ↔ s.linkKept = true ∧ s.flt.fits = true := by
  have listed : s.flt.entries.all (fun e => e.key.listed) = true ↔ Listed s.flt := List.all_eq_true
  simp only [State.linkKept, Bool.and_eq_true, Bool.or_eq_true, decide_eq_true_eq, listed, Option.isNone_iff_eq_none,
    Bool.not_eq_true']
  constructor
  · intro h
    refine ⟨⟨⟨⟨⟨⟨⟨⟨⟨h.lockout, h.quiet⟩, ?_⟩, or_iff_not_imp_left.mpr h.backoff⟩, ?_⟩, or_iff_not_imp_left.mpr h.handshake⟩,
      or_iff_not_imp_left.mpr h.probe⟩, or_iff_not_imp_left.mpr h.load⟩, h.listed⟩, h.fits⟩
    · refine or_iff_not_imp_left.mpr fun away => ?_
      obtain ⟨sync, slot, switch, power, shield⟩ := h.rest away
      exact ⟨⟨⟨⟨sync, slot⟩, switch⟩, power⟩, shield⟩
    · refine or_iff_not_imp_right.mpr fun away => ⟨?_, ?_⟩
      · exact Decidable.byContradiction fun runs => away (h.wait runs)
      · exact Bool.eq_false_iff.mpr fun held => away (h.held held)
  · rintro ⟨⟨⟨⟨⟨⟨⟨⟨⟨lockout, quiet⟩, rest⟩, backoff⟩, wait⟩, handshake⟩, probe⟩, load⟩, listed⟩, fits⟩
    refine ⟨⟨lockout, fun away => ?_, or_iff_not_imp_left.mp backoff, fun runs => ?_, fun held => ?_,
      or_iff_not_imp_left.mp handshake, or_iff_not_imp_left.mp probe, or_iff_not_imp_left.mp load, listed, fits⟩, quiet⟩
    · obtain ⟨⟨⟨⟨sync, slot⟩, switch⟩, power⟩, shield⟩ := rest.resolve_left away
      exact ⟨sync, slot, switch, power, shield⟩
    · exact wait.resolve_left fun both => runs both.1
    · exact wait.resolve_left fun both => absurd held (by rw [both.2]; nofun)

theorem LinkTimed.spared {l : Lle} {f g : Flt} (h : LinkTimed l f) (table : Spared f g) : LinkTimed l g :=
  { h with
    lockout := by rw [table.active]; exact h.lockout
    listed := table.listed h.listed
    fits := table.fits h.fits }

theorem LinkHeld.spared {l : Lle} {f g : Flt} (h : LinkHeld l f) (table : Spared f g) : LinkHeld l g :=
  { h.toLinkTimed.spared table with quiet := h.quiet }

/-- The link is at rest: no timer of it runs, nothing of SHOWTIME stands, and LINK_RETRAIN_LIMIT is not ACTIVE. -/
structure Bare (l : Lle) (f : Flt) : Prop where
  inactive : f.isActive lockoutFault = false
  sync : l.sync = Showtime.start
  slot : l.slot = none
  switchWaiting : l.switchWaiting = none
  powerWaiting : l.powerWaiting = none
  shieldWaiting : l.shieldWaiting = none
  backoff : l.backoffTimer = none
  wait : l.lockoutTimer = none
  held : l.attemptHeld = false
  handshake : l.handshakeTimer = none
  probe : l.probeTimer = none
  load : l.loadTimer = none
  listed : Listed f
  fits : f.fits = true

/-- A link at rest may stand in any state but LOCKOUT. -/
theorem Bare.held_of {l : Lle} {f : Flt} (h : Bare l f) (lockout : l.link ≠ .lockout)
    (quiet : l.link = .quiet ↔ l.holders.isEmpty = false) : LinkHeld l f where
  lockout := ⟨fun x => absurd x lockout, fun x => absurd x (by rw [h.inactive]; nofun)⟩
  rest _ := ⟨h.sync, h.slot, h.switchWaiting, h.powerWaiting, h.shieldWaiting⟩
  backoff runs := absurd h.backoff runs
  wait runs := absurd h.wait runs
  held x := absurd x (by rw [h.held]; nofun)
  handshake runs := absurd h.handshake runs
  probe runs := absurd h.probe runs
  load runs := absurd h.load runs
  listed := h.listed
  fits := h.fits
  quiet := quiet

/-! ### LINK_RETRAIN_LIMIT itself (R47) -/

/-- The making-inactive of LINK_RETRAIN_LIMIT. -/
theorem lockout_ended (s : State) : (∃ q, s.makeInactive .linkRetrainLimit .line = told q s) ∧
    (s.makeInactive .linkRetrainLimit .line).flt.isActive lockoutFault = false ∧
    (Listed s.flt → Listed (s.makeInactive .linkRetrainLimit .line).flt) ∧
    (s.flt.fits = true → (s.makeInactive .linkRetrainLimit .line).flt.fits = true) := by
  have noticed : Spared (s.flt.madeInactive lockoutFault s.now s.uptime).1 (s.makeInactive .linkRetrainLimit .line).flt := by
    show Spared _ (if _ then _ else _ : State).flt
    split
    · exact (hushed_notice _ (s.onFlt fun _ => (s.flt.madeInactive lockoutFault s.now s.uptime).1)).spared
    · exact .refl _
  obtain ⟨q, frame, -⟩ := tells_makeInactive .linkRetrainLimit .line s
  exact ⟨⟨q, frame⟩, noticed.active.trans Table.madeInactive_self,
    fun h => noticed.listed (spares_madeInactive.listed rfl h), fun h => noticed.fits (madeInactive_fits _ _ h)⟩

/-- The raise of LINK_RETRAIN_LIMIT: it finds a place among entries of the catalogue (R178). -/
theorem lockout_raised (s : State) (listed : Listed s.flt) (fits : s.flt.fits = true) :
    (∃ q, s.raise .linkRetrainLimit .line = told q s) ∧
    (s.raise .linkRetrainLimit .line).flt.isActive lockoutFault = true ∧
    Listed (s.raise .linkRetrainLimit .line).flt ∧ (s.raise .linkRetrainLimit .line).flt.fits = true := by
  have noticed : Spared (s.flt.raised lockoutFault s.now s.uptime).1 (s.raise .linkRetrainLimit .line).flt := by
    show Spared _ (if _ then _ else _ : State).flt
    split
    · exact (hushed_notice _ (s.onFlt fun _ => (s.flt.raised lockoutFault s.now s.uptime).1)).spared
    · exact .refl _
  obtain ⟨q, frame, -⟩ := tells_raise .linkRetrainLimit .line s
  exact ⟨⟨q, frame⟩, noticed.active.trans (Table.raised_active (Table.makeRoom_out (Flt.fits_sized fits) listed)),
    noticed.listed (raised_listed rfl listed), noticed.fits (raised_fits _ _ fits)⟩

end Sys2Proof.Proofs.Standing
end

section
/-! What the operations of the link do to what goes with it (O60). -/

set_option Elab.async false

namespace Sys2Proof.Proofs.Standing

open Sys2Proof Sys2Proof.Machine Sys2Proof.Proofs.Steps Sys2Proof.Proofs.Telling Sys2Proof.Proofs.Link Sys2Proof.Proofs.Start

variable {s0 s t u : State}

/-! ### Operations that stand aside from the outside line -/

/-- The calls, the voice switch and the stage of the survey stand. -/
structure Aside (s t : State) : Prop where
  cct : t.cct = s.cct
  vsw : t.vsw = s.vsw
  stage : t.lth.stage = s.lth.stage
  restore : t.lth.restoreTimer = s.lth.restoreTimer

theorem Aside.refl (s : State) : Aside s s := ⟨rfl, rfl, rfl, rfl⟩

theorem Aside.trans (h : Aside s t) (g : Aside t u) : Aside s u :=
  ⟨g.cct.trans h.cct, g.vsw.trans h.vsw, g.stage.trans h.stage, g.restore.trans h.restore⟩

theorem Aside.of_onLle {f : Lle → Lle} (h : Aside (s.onLle f) t) : Aside s t := ⟨h.cct, h.vsw, h.stage, h.restore⟩

theorem Aside.of_told (h : ∃ q, t = told q s) : Aside s t := by
  obtain ⟨q, rfl⟩ := h
  exact ⟨rfl, rfl, rfl, rfl⟩

/-- The state of the link, its holders and the timers of chapter 3 stand. -/
structure Staying (l m : Lle) : Prop where
  link : m.link = l.link
  holders : m.holders = l.holders
  backoff : m.backoffTimer = l.backoffTimer
  wait : m.lockoutTimer = l.lockoutTimer
  held : m.attemptHeld = l.attemptHeld
  handshake : m.handshakeTimer = l.handshakeTimer
  probe : m.probeTimer = l.probeTimer
  load : m.loadTimer = l.loadTimer

theorem Staying.refl (l : Lle) : Staying l l := ⟨rfl, rfl, rfl, rfl, rfl, rfl, rfl, rfl⟩

theorem Staying.trans {l m n : Lle} (h : Staying l m) (g : Staying m n) : Staying l n :=
  ⟨g.link.trans h.link, g.holders.trans h.holders, g.backoff.trans h.backoff, g.wait.trans h.wait, g.held.trans h.held,
    g.handshake.trans h.handshake, g.probe.trans h.probe, g.load.trans h.load⟩

/-- Where the state and the timers stand, what stands outside SHOWTIME is still wanted. -/
theorem LinkHeld.staying {l m : Lle} {f : Flt} (h : LinkHeld l f) (same : Staying l m)
    (rest : l.link ≠ .showtime → m.sync = Showtime.start ∧ m.slot = none ∧ m.switchWaiting = none ∧ m.powerWaiting = none ∧
      m.shieldWaiting = none) : LinkHeld m f := by
  obtain ⟨link, holders, backoff, wait, held, handshake, probe, load⟩ := same
  refine ⟨⟨?_, fun away => rest (link ▸ away), ?_, ?_, ?_, ?_, ?_, ?_, h.listed, h.fits⟩, ?_⟩
  · rw [link]; exact h.lockout
  · rw [backoff, link]; exact h.backoff
  · rw [wait, link]; exact h.wait
  · rw [held, link]; exact h.held
  · rw [handshake, link]; exact h.handshake
  · rw [probe, link]; exact h.probe
  · rw [load, link]; exact h.load
  · rw [link, holders]; exact h.quiet

/-- An operation of chapter 5: it stays in its state of the link. -/
structure Syncs (s t : State) : Prop where
  aside : Aside s t
  staying : Staying s.lle t.lle
  spared : Spared s.flt t.flt

theorem Syncs.refl (s : State) : Syncs s s := ⟨.refl s, .refl _, .refl _⟩

theorem Syncs.trans (h : Syncs s t) (g : Syncs t u) : Syncs s u :=
  ⟨h.aside.trans g.aside, h.staying.trans g.staying, h.spared.trans g.spared⟩

theorem Syncs.ite {c : Prop} [Decidable c] (h : Syncs s0 s) (g : Syncs s0 t) : Syncs s0 (if c then s else t) := by
  split
  · exact h
  · exact g

theorem Syncs.tell (h : Syncs s0 s) (w : Hushed s t) : Syncs s0 t := by
  refine h.trans ⟨.of_told w.frame, ?_, w.spared⟩
  obtain ⟨q, frame⟩ := w.frame
  rw [frame]
  exact .refl _

theorem Syncs.onLle {f : Lle → Lle} (h : Syncs s0 s)
    (same : Staying s.lle (f s.lle) := by exact ⟨rfl, rfl, rfl, rfl, rfl, rfl, rfl, rfl⟩) : Syncs s0 (s.onLle f) :=
  h.trans ⟨⟨rfl, rfl, rfl, rfl⟩, same, .refl _⟩

theorem Syncs.onSync {f : Showtime → Showtime} (h : Syncs s0 s) : Syncs s0 (s.onSync f) :=
  h.trans ⟨⟨rfl, rfl, rfl, rfl⟩, ⟨rfl, rfl, rfl, rfl, rfl, rfl, rfl, rfl⟩, .refl _⟩

theorem Syncs.signal {e : Event} (h : Syncs s0 s) : Syncs s0 (s.signal e) := h.tell (hushed_signal e s)

theorem Syncs.raise {c : FaultCode} {x : FaultSource} (h : Syncs s0 s) (other : lockoutFault ≠ ⟨c, x⟩ := by nofun)
    (own : FaultKey.listed ⟨c, x⟩ = true := by rfl) : Syncs s0 (s.raise c x) := h.tell (hushed_raise s other own)

theorem Syncs.makeInactive {c : FaultCode} {x : FaultSource} (h : Syncs s0 s) (other : lockoutFault ≠ ⟨c, x⟩ := by nofun)
    (own : FaultKey.listed ⟨c, x⟩ = true := by rfl) : Syncs s0 (s.makeInactive c x) := h.tell (hushed_makeInactive s other own)

theorem Syncs.reach {d : Nat} (h : Syncs s0 s) : Syncs s0 (s.reach d) := by
  unfold State.reach
  split
  · exact h
  · refine h.trans ⟨⟨rfl, rfl, rfl, rfl⟩, ?_, .refl _⟩
    dsimp only
    split
    · exact ⟨rfl, rfl, rfl, rfl, rfl, rfl, rfl, rfl⟩
    · exact .refl _

theorem Syncs.sayFar {m : FarMessage} (h : Syncs s0 s) : Syncs s0 (s.sayFar m) := h.onLle

theorem Syncs.watchMargin (h : Syncs s0 s) : Syncs s0 s.watchMargin := h.onSync

theorem Syncs.deferVisit (h : Syncs s0 s) : Syncs s0 s.defer := Syncs.ite h.onSync h.signal

theorem Syncs.measureGroup {g : Nat} {m : List Int} (h : Syncs s0 s) : Syncs s0 (s.measureGroup g m) := by
  unfold State.measureGroup
  exact h.onLle

theorem Syncs.applySwap {g : Nat} (h : Syncs s0 s) : Syncs s0 (s.applySwap g).1 := by
  unfold State.applySwap
  dsimp only
  generalize (if s.lle.swapOutstanding = true then s.lle.sync.swapQueue.take 1 else []) = head
  generalize (if s.lle.swapOutstanding = true then s.lle.sync.swapQueue.drop 1 else s.lle.sync.swapQueue) = rest
  split
  · split
    · dsimp only
      exact h.onSync
    · exact h
  · split
    · exact h
    · dsimp only
      exact h.onSync

theorem Syncs.refresh {regular : Bool} {m : List Int} (h : Syncs s0 s) : Syncs s0 (s.refresh regular m) := by
  have swapped : Syncs s0 ((s.measureGroup s.lle.sync.pointer m).applySwap s.lle.sync.pointer).1 := h.measureGroup.applySwap
  exact (Syncs.ite (Syncs.ite swapped.onSync swapped.onSync.onSync)
    (Syncs.ite swapped.onSync.deferVisit swapped.onSync)).watchMargin

theorem Syncs.refreshDue {m : List Int} (h : Syncs s0 s) : Syncs s0 (s.refreshDue m) :=
  Syncs.ite h.onSync.refresh h.onSync.deferVisit

theorem Syncs.alignTable (h : Syncs s0 s) : Syncs s0 s.alignTable := Syncs.ite h.onLle (Syncs.ite h h.onLle)

theorem Syncs.judgeGuard (h : Syncs s0 s) : Syncs s0 s.judgeGuard := by
  unfold State.judgeGuard
  split
  · exact h.onSync.signal.alignTable
  · exact h.onSync.alignTable
  · exact h.onSync.alignTable
  · exact h

theorem Syncs.recomputeDepth (h : Syncs s0 s) : Syncs s0 s.recomputeDepth :=
  have asked := Syncs.ite h.onSync (Syncs.ite h.onSync.onLle (Syncs.ite h.onSync h.onSync.onLle))
  Syncs.ite asked (Syncs.ite asked.onSync.raise asked.onSync.makeInactive)

theorem Syncs.lockRules {i : Impulse} (h : Syncs s0 s) : Syncs s0 (s.lockRules i) := by
  unfold State.lockRules
  dsimp only
  split
  · split
    · exact h
    · exact h.onSync
  · exact Syncs.ite h.signal.onSync h

theorem Syncs.missPrediction {k : FenceLock} (h : Syncs s0 s) : Syncs s0 (s.missPrediction k) :=
  Syncs.ite h.onSync h.onSync.recomputeDepth

theorem Syncs.takeImpulse {i : Impulse} (h : Syncs s0 s) : Syncs s0 (s.takeImpulse i) :=
  h.signal.onSync.lockRules.recomputeDepth

theorem Syncs.marginWatchEnds (h : Syncs s0 s) : Syncs s0 s.marginWatchEnds := by
  unfold State.marginWatchEnds
  split
  · exact h.onSync.raise
  · exact h.onSync.makeInactive
  · exact h

theorem Syncs.agreed {r : OverheadRequest} (h : Syncs s0 s) : Syncs s0 (s.agreed r) := by
  unfold State.agreed
  split
  · exact h.onLle.alignTable.watchMargin
  · exact h.onLle
  · exact h.onLle.recomputeDepth
  · exact h.onLle.signal.onSync.watchMargin

/-! ### Operations that keep the link in step -/

/-- The operation stands aside from the outside line, and keeps the link in step with what goes with it. -/
structure Linked (s t : State) : Prop extends Aside s t where
  link : LinkHeld s.lle s.flt → LinkHeld t.lle t.flt

theorem Linked.refl (s : State) : Linked s s := ⟨.refl s, id⟩

theorem Linked.trans (h : Linked s t) (g : Linked t u) : Linked s u :=
  ⟨h.toAside.trans g.toAside, fun x => g.link (h.link x)⟩

theorem Linked.ite {c : Prop} [Decidable c] (h : Linked s0 s) (g : Linked s0 t) : Linked s0 (if c then s else t) := by
  split
  · exact h
  · exact g

/-- An operation of chapter 5 on a link that is in SHOWTIME. -/
theorem Syncs.linked (h : Syncs s t) (showtime : LinkHeld s.lle s.flt → s.lle.link = .showtime) : Linked s t :=
  ⟨h.aside, fun held => (held.spared h.spared).staying h.staying fun away => absurd (showtime held) away⟩

theorem Linked.tell (h : Linked s0 s) (w : Hushed s t) : Linked s0 t := by
  refine h.trans ⟨.of_told w.frame, fun held => ?_⟩
  have later := held.spared w.spared
  obtain ⟨q, frame⟩ := w.frame
  rwa [show t.lle = s.lle by rw [frame]; rfl]

/-- What `State.linkKept` looks at stands. -/
structure Unmoved (l m : Lle) : Prop extends Staying l m where
  sync : m.sync = l.sync
  slot : m.slot = l.slot
  switchWaiting : m.switchWaiting = l.switchWaiting
  powerWaiting : m.powerWaiting = l.powerWaiting
  shieldWaiting : m.shieldWaiting = l.shieldWaiting

theorem LinkHeld.unmoved {l m : Lle} {f : Flt} (h : LinkHeld l f) (same : Unmoved l m) : LinkHeld m f :=
  h.staying same.toStaying fun away => by
    rw [same.sync, same.slot, same.switchWaiting, same.powerWaiting, same.shieldWaiting]
    exact h.rest away

theorem Linked.onLle {f : Lle → Lle} (h : Linked s0 s) (same : Unmoved s.lle (f s.lle) := by
    exact ⟨⟨rfl, rfl, rfl, rfl, rfl, rfl, rfl, rfl⟩, rfl, rfl, rfl, rfl, rfl⟩) : Linked s0 (s.onLle f) :=
  h.trans ⟨⟨rfl, rfl, rfl, rfl⟩, fun held => held.unmoved same⟩

/-! ### A state of the link is left -/

/-- The link has gone to `next`, at rest, with its holders. -/
structure Departs (next : LinkState) (s t : State) : Prop extends Aside s t where
  link : t.lle.link = next
  holders : t.lle.holders = s.lle.holders
  bare : LinkTimed s.lle s.flt → Bare t.lle t.flt

section stopped
variable {l : Lle} {f : Flt} (h : LinkTimed l f)
include h

theorem LinkTimed.inactive_of (away : l.link ≠ .lockout) : f.isActive lockoutFault = false :=
  Bool.eq_false_iff.mpr fun on => away (h.lockout.mpr on)

theorem LinkTimed.wait_none (away : l.link ≠ .lockout) : l.lockoutTimer = none :=
  Decidable.byContradiction fun runs => away (h.wait runs)

theorem LinkTimed.unheld (away : l.link ≠ .lockout) : l.attemptHeld = false :=
  Bool.eq_false_iff.mpr fun on => away (h.held on)

theorem LinkTimed.backoff_none (away : l.link ≠ .retrainWait) : l.backoffTimer = none :=
  Decidable.byContradiction fun runs => away (h.backoff runs)

theorem LinkTimed.handshake_none (away : l.link ≠ .handshake) : l.handshakeTimer = none :=
  Decidable.byContradiction fun runs => away (h.handshake runs)

theorem LinkTimed.probe_none (away : l.link ≠ .probe) : l.probeTimer = none :=
  Decidable.byContradiction fun runs => away (h.probe runs)

theorem LinkTimed.load_none (away : l.link ≠ .load) : l.loadTimer = none :=
  Decidable.byContradiction fun runs => away (h.load runs)

end stopped

section table
variable {f : Flt} (h : Spared f s.flt)
include h

theorem Spared.tell (w : Hushed s t) : Spared f t.flt := h.trans w.spared

theorem Spared.onLle {g : Lle → Lle} : Spared f (s.onLle g).flt := h

theorem Spared.onPlp {g : Plp → Plp} : Spared f (s.onPlp g).flt := h

end table

theorem departShowtime_spared (reason : DropReason) (next : LinkState) (s : State) :
    Spared s.flt (s.departShowtime reason next).flt := by
  unfold State.departShowtime
  dsimp only
  refine Spared.tell ?_ (hushed_lineStatus _)
  refine Spared.tell ?_ (hushed_makeInactive (c := .linkLowMargin) (x := .line) _)
  refine Spared.tell ?_ (hushed_makeInactive (c := .fenceImpulse) (x := .line) _)
  refine Spared.onLle (Spared.tell ?_ (Hushed.repeat hushed_frameDropped _ _))
  exact Spared.onPlp (Spared.onLle (Spared.tell (Spared.refl _) (hushed_signal _ (s.onLle _))))

theorem departs_departShowtime (reason : DropReason) (next : LinkState) (showtime : s.lle.link = .showtime) :
    Departs next s (s.departShowtime reason next) := by
  have table := departShowtime_spared reason next s
  obtain ⟨q, frame⟩ := (departShowtime_told reason next s).frame
  generalize s.departShowtime reason next = t at table frame ⊢
  have lle : t.lle = (departed reason next s).lle := by rw [frame]; rfl
  refine ⟨?_, by rw [lle]; rfl, by rw [lle]; rfl, fun timed => ?_⟩
  · rw [frame]
    exact ⟨rfl, rfl, rfl, rfl⟩
  · rw [lle]
    exact
      { inactive := table.active.trans (timed.inactive_of (by rw [showtime]; nofun))
        sync := rfl, slot := rfl, switchWaiting := rfl, powerWaiting := rfl, shieldWaiting := rfl
        backoff := timed.backoff_none (by rw [showtime]; nofun)
        wait := timed.wait_none (by rw [showtime]; nofun)
        held := timed.unheld (by rw [showtime]; nofun)
        handshake := timed.handshake_none (by rw [showtime]; nofun)
        probe := timed.probe_none (by rw [showtime]; nofun)
        load := timed.load_none (by rw [showtime]; nofun)
        listed := table.listed timed.listed
        fits := table.fits timed.fits }

theorem departs_leaveLink (reason : DropReason) (next : LinkState) (s : State) : Departs next s (s.leaveLink reason next) := by
  by_cases showtime : s.lle.link = .showtime
  · rw [leaveLink_showtime showtime]
    exact departs_departShowtime reason next showtime
  by_cases lockout : s.lle.link = .lockout
  · rw [leaveLink_lockout lockout]
    obtain ⟨⟨q, frame⟩, inactive, listed, fits⟩ :=
      lockout_ended (s.onLle fun l => { l with link := next, lockoutTimer := none, attemptHeld := false })
    generalize State.makeInactive .linkRetrainLimit .line _ = t at frame inactive listed fits
    subst frame
    refine ⟨⟨rfl, rfl, rfl, rfl⟩, rfl, rfl, fun timed => ?_⟩
    obtain ⟨sync, slot, switch, power, shield⟩ := timed.rest showtime
    exact
      { inactive := inactive
        sync := sync, slot := slot, switchWaiting := switch, powerWaiting := power, shieldWaiting := shield
        backoff := timed.backoff_none (by rw [lockout]; nofun)
        wait := rfl
        held := rfl
        handshake := timed.handshake_none (by rw [lockout]; nofun)
        probe := timed.probe_none (by rw [lockout]; nofun)
        load := timed.load_none (by rw [lockout]; nofun)
        listed := listed timed.listed
        fits := fits timed.fits }
  · rw [leaveLink_plain showtime lockout]
    refine ⟨⟨rfl, rfl, rfl, rfl⟩, rfl, rfl, fun timed => ?_⟩
    obtain ⟨sync, slot, switch, power, shield⟩ := timed.rest showtime
    exact
      { inactive := timed.inactive_of lockout
        sync := sync, slot := slot, switchWaiting := switch, powerWaiting := power, shieldWaiting := shield
        backoff := rfl
        wait := timed.wait_none lockout
        held := timed.unheld lockout
        handshake := rfl
        probe := rfl
        load := rfl
        listed := timed.listed
        fits := timed.fits }

/-- The holders of a link that is not in QUIET: there are none. -/
theorem LinkHeld.unheld {l : Lle} {f : Flt} (h : LinkHeld l f) (away : l.link ≠ .quiet) : l.holders.isEmpty = true := by
  rcases empty : l.holders.isEmpty with _ | _
  · exact absurd (h.quiet.mpr empty) away
  · rfl

/-- DOWN is entered by a link without holders. -/
theorem enterDown_held (reason : DropReason) (timed : LinkTimed s.lle s.flt) (unheld : s.lle.holders.isEmpty = true) :
    LinkHeld (s.enterDown reason).lle (s.enterDown reason).flt := by
  obtain ⟨-, link, holders, bare⟩ := departs_leaveLink reason .down s
  refine Bare.held_of (l := (s.enterDown reason).lle) (f := (s.leaveLink reason .down).flt) { bare timed with } ?_ ?_
  · show (s.leaveLink reason .down).lle.link ≠ _
    rw [link]
    nofun
  · show (s.leaveLink reason .down).lle.link = _ ↔ (s.leaveLink reason .down).lle.holders.isEmpty = _
    rw [link, holders, unheld]
    exact ⟨nofun, nofun⟩

theorem aside_enterDown (reason : DropReason) (s : State) : Aside s (s.enterDown reason) := by
  obtain ⟨aside, -⟩ := departs_leaveLink reason .down s
  exact ⟨aside.cct, aside.vsw, aside.stage, aside.restore⟩

theorem Linked.enterDown {reason : DropReason} (h : Linked s0 s) (away : LinkHeld s0.lle s0.flt → s.lle.link ≠ .quiet) :
    Linked s0 (s.enterDown reason) :=
  ⟨h.toAside.trans (aside_enterDown reason s), fun start =>
    have held := h.link start
    enterDown_held reason held.toLinkTimed (held.unheld (away start))⟩

/-- QUIET is entered by a link with a holder. -/
theorem enterQuiet_held (timed : LinkTimed s.lle s.flt) (holder : s.lle.holders.isEmpty = false) :
    LinkHeld s.enterQuiet.lle s.enterQuiet.flt := by
  obtain ⟨-, link, holders, bare⟩ := departs_leaveLink .forced .quiet s
  refine Bare.held_of (l := s.enterQuiet.lle) (f := (s.leaveLink .forced .quiet).flt) { bare timed with } ?_ ?_
  · show (s.leaveLink .forced .quiet).lle.link ≠ _
    rw [link]
    nofun
  · show (s.leaveLink .forced .quiet).lle.link = _ ↔ (s.leaveLink .forced .quiet).lle.holders.isEmpty = _
    rw [link, holders, holder]
    exact ⟨fun _ => rfl, fun _ => rfl⟩

theorem aside_enterQuiet (s : State) : Aside s s.enterQuiet := by
  obtain ⟨aside, -⟩ := departs_leaveLink .forced .quiet s
  exact ⟨aside.cct, aside.vsw, aside.stage, aside.restore⟩

theorem Linked.enterRetrainWait {reason : DropReason} {ms : Nat} (h : Linked s0 s)
    (away : LinkHeld s0.lle s0.flt → s.lle.link ≠ .quiet) : Linked s0 (s.enterRetrainWait reason ms) := by
  obtain ⟨aside, link, holders, bare⟩ := departs_leaveLink reason .retrainWait s
  refine ⟨h.toAside.trans ⟨aside.cct, aside.vsw, aside.stage, aside.restore⟩, fun start => ?_⟩
  have held := h.link start
  have rested : LinkHeld (s.leaveLink reason .retrainWait).lle (s.leaveLink reason .retrainWait).flt := by
    refine (bare held.toLinkTimed).held_of (by rw [link]; nofun) ?_
    rw [link, holders, held.unheld (away start)]
    exact ⟨nofun, nofun⟩
  exact { rested with backoff := fun _ => link }

theorem Linked.enterLockout (h : Linked s0 s) (away : LinkHeld s0.lle s0.flt → s.lle.link ≠ .quiet) :
    Linked s0 s.enterLockout := by
  obtain ⟨aside, link, holders, bare⟩ := departs_leaveLink .none .lockout s
  obtain ⟨first, isFirst⟩ : ∃ t, t = (s.leaveLink .none .lockout).onLle
    fun l => { l with lockoutTimer := some (s.now + Config.lockoutMs) } := ⟨_, rfl⟩
  refine ⟨h.toAside.trans ?_, fun start => ?_⟩
  · obtain ⟨q, frame, -⟩ := tells_raise .linkRetrainLimit .line first
    have frame' : s.enterLockout = told q first := by rw [← frame, isFirst]; rfl
    rw [frame', isFirst]
    exact ⟨aside.cct, aside.vsw, aside.stage, aside.restore⟩
  · have held := h.link start
    have rested := bare held.toLinkTimed
    obtain ⟨⟨q, frame⟩, active, listed, fits⟩ :=
      lockout_raised first (by rw [isFirst]; exact rested.listed) (by rw [isFirst]; exact rested.fits)
    have same : s.enterLockout = first.raise .linkRetrainLimit .line := by rw [isFirst]; rfl
    have lle : s.enterLockout.lle = { (s.leaveLink .none .lockout).lle with
        lockoutTimer := some (s.now + Config.lockoutMs) } := by
      rw [same, frame, isFirst]
      rfl
    rw [lle, same]
    exact
      { lockout := ⟨fun _ => active, fun _ => link⟩
        rest := fun _ => ⟨rested.sync, rested.slot, rested.switchWaiting, rested.powerWaiting, rested.shieldWaiting⟩
        backoff := fun runs => absurd rested.backoff runs
        wait := fun _ => link
        held := fun on => link
        handshake := fun runs => absurd rested.handshake runs
        probe := fun runs => absurd rested.probe runs
        load := fun runs => absurd rested.load runs
        listed := listed
        fits := fits
        quiet := by
          show (s.leaveLink .none .lockout).lle.link = _ ↔ (s.leaveLink .none .lockout).lle.holders.isEmpty = _
          rw [link, holders, held.unheld (away start)]
          exact ⟨nofun, nofun⟩ }

theorem Linked.drop {reason : DropReason} (h : Linked s0 s) (away : LinkHeld s0.lle s0.flt → s.lle.link ≠ .quiet) :
    Linked s0 (s.drop reason) := h.enterRetrainWait away

theorem Linked.trainingFailure {reason : FailureReason} (h : Linked s0 s)
    (away : LinkHeld s0.lle s0.flt → s.lle.link ≠ .quiet) : Linked s0 (s.trainingFailure reason) := by
  unfold State.trainingFailure
  dsimp only
  obtain ⟨t, same⟩ : ∃ t, t = (s.onLle fun l =>
    { l with lastFailure := reason, retry := min Config.retryMax (s.lle.retry + 1) }).signal .trainingFailure := ⟨_, rfl⟩
  have failed : Linked s0 t := by
    rw [same]
    exact h.onLle.tell (hushed_signal _ _)
  have link : t.lle.link = s.lle.link := by
    obtain ⟨q, frame⟩ := (hushed_signal .trainingFailure (s.onLle fun l =>
      { l with lastFailure := reason, retry := min Config.retryMax (s.lle.retry + 1) })).frame
    rw [same, frame]
    rfl
  rw [← same]
  exact Linked.ite (failed.enterLockout fun start => link ▸ away start) (failed.enterRetrainWait fun start => link ▸ away start)

/-! ### The holders (R51, R52) -/

theorem HolderSet.put_true (h : HolderSet) (x : Holder) : (h.put x true).isEmpty = false := by
  cases x <;> simp [HolderSet.put, HolderSet.isEmpty]

theorem HolderSet.has_some {h : HolderSet} {x : Holder} (has : h.has x = true) : h.isEmpty = false := by
  cases x <;> simp_all [HolderSet.has, HolderSet.isEmpty]

/-- A change of the holders alone leaves the timers. -/
theorem LinkTimed.onHolders {l : Lle} {f : Flt} (h : LinkTimed l f) (x : HolderSet) : LinkTimed { l with holders := x } f :=
  ⟨h.lockout, h.rest, h.backoff, h.wait, h.held, h.handshake, h.probe, h.load, h.listed, h.fits⟩

theorem Linked.addHolder {x : Holder} (h : Linked s0 s) : Linked s0 (s.addHolder x) := by
  unfold State.addHolder
  refine Linked.ite h ?_
  dsimp only
  split
  · rename_i quiet
    refine h.trans ⟨⟨rfl, rfl, rfl, rfl⟩, fun held => ?_⟩
    exact { held.toLinkTimed.onHolders (s.lle.holders.put x true) with
      quiet := ⟨fun _ => HolderSet.put_true _ x, fun _ => quiet⟩ }
  · refine h.trans ⟨(aside_enterQuiet _).of_onLle, fun held => ?_⟩
    exact enterQuiet_held (s := s.onLle fun l => { l with holders := l.holders.put x true })
      (held.toLinkTimed.onHolders _) (HolderSet.put_true _ x)

theorem Linked.removeHolder {x : Holder} (h : Linked s0 s) : Linked s0 (s.removeHolder x) := by
  unfold State.removeHolder
  split
  · rename_i has
    dsimp only
    split
    · rename_i last
      obtain ⟨empty, -⟩ := Bool.and_eq_true_iff.mp last
      refine h.trans ⟨(aside_enterDown .none _).of_onLle, fun held => ?_⟩
      exact enterDown_held (s := s.onLle fun l => { l with holders := l.holders.put x false }) .none
        (held.toLinkTimed.onHolders _) empty
    · rename_i more
      refine h.trans ⟨⟨rfl, rfl, rfl, rfl⟩, fun held => ?_⟩
      have quiet := held.quiet.mpr (HolderSet.has_some has)
      refine { held.toLinkTimed.onHolders (s.lle.holders.put x false) with quiet := ⟨fun _ => ?_, fun _ => quiet⟩ }
      refine Bool.eq_false_iff.mpr fun empty => more ?_
      exact Bool.and_eq_true_iff.mpr ⟨empty, decide_eq_true quiet⟩
  · exact h


end Sys2Proof.Proofs.Standing
end

section
/-! What the commands of the link do to what goes with it (O60). -/

set_option Elab.async false

namespace Sys2Proof.Proofs.Standing

open Sys2Proof Sys2Proof.Machine Sys2Proof.Proofs.Steps Sys2Proof.Proofs.Telling Sys2Proof.Proofs.Link Sys2Proof.Proofs.Start

variable {s0 s t u : State}

/-! ### The modifiers and what is told -/

section modifiers
variable (h : Linked s0 s)
include h

theorem Linked.onPins {f : Pins → Pins} : Linked s0 (s.onPins f) := h.trans ⟨⟨rfl, rfl, rfl, rfl⟩, id⟩
theorem Linked.onYbi {f : Ybi → Ybi} : Linked s0 (s.onYbi f) := h.trans ⟨⟨rfl, rfl, rfl, rfl⟩, id⟩
theorem Linked.onCfl {f : Cfl → Cfl} : Linked s0 (s.onCfl f) := h.trans ⟨⟨rfl, rfl, rfl, rfl⟩, id⟩
theorem Linked.onSup {f : Sup → Sup} : Linked s0 (s.onSup f) := h.trans ⟨⟨rfl, rfl, rfl, rfl⟩, id⟩
theorem Linked.onPlp {f : Plp → Plp} : Linked s0 (s.onPlp f) := h.trans ⟨⟨rfl, rfl, rfl, rfl⟩, id⟩
theorem Linked.onCtb {f : Ctb → Ctb} : Linked s0 (s.onCtb f) := h.trans ⟨⟨rfl, rfl, rfl, rfl⟩, id⟩

theorem Linked.onFlt {f : Flt → Flt} (table : Spared s.flt (f s.flt)) : Linked s0 (s.onFlt f) :=
  h.trans ⟨⟨rfl, rfl, rfl, rfl⟩, fun held => held.spared table⟩

theorem Linked.onLth {f : Lth → Lth} (stage : (f s.lth).stage = s.lth.stage := by rfl)
    (restore : (f s.lth).restoreTimer = s.lth.restoreTimer := by rfl) : Linked s0 (s.onLth f) :=
  h.trans ⟨⟨rfl, rfl, stage, restore⟩, id⟩

theorem Linked.raise {c : FaultCode} {x : FaultSource} (other : lockoutFault ≠ ⟨c, x⟩ := by nofun)
    (own : FaultKey.listed ⟨c, x⟩ = true := by rfl) : Linked s0 (s.raise c x) := h.tell (hushed_raise s other own)

theorem Linked.makeInactive {c : FaultCode} {x : FaultSource} (other : lockoutFault ≠ ⟨c, x⟩ := by nofun)
    (own : FaultKey.listed ⟨c, x⟩ = true := by rfl) : Linked s0 (s.makeInactive c x) :=
  h.tell (hushed_makeInactive s other own)

theorem Linked.raiseUnlessActive {c : FaultCode} {x : FaultSource} (other : lockoutFault ≠ ⟨c, x⟩ := by nofun)
    (own : FaultKey.listed ⟨c, x⟩ = true := by rfl) : Linked s0 (s.raiseUnlessActive c x) := .ite h (h.raise other own)

theorem Linked.sayFar {m : FarMessage} : Linked s0 (s.sayFar m) := h.onLle

/-- An operation of chapter 5 on a link that is in SHOWTIME. -/
theorem Linked.sync (g : Syncs s t) (showtime : LinkHeld s0.lle s0.flt → s.lle.link = .showtime) : Linked s0 t :=
  ⟨h.toAside.trans g.aside, fun start => ((h.link start).spared g.spared).staying g.staying fun away =>
    absurd (showtime start) away⟩

end modifiers

theorem reach_link (d : Nat) (s : State) : (s.reach d).lle.link = s.lle.link := ((Syncs.refl s).reach (d := d)).staying.link

theorem Linked.reach {d : Nat} (h : Linked s0 s) : Linked s0 (s.reach d) := by
  unfold State.reach
  split
  · exact h
  · refine h.trans ⟨⟨rfl, rfl, rfl, rfl⟩, fun held => ?_⟩
    show LinkHeld (if _ then _ else _) s.flt
    split
    · exact held.staying ⟨rfl, rfl, rfl, rfl, rfl, rfl, rfl, rfl⟩ fun away => absurd ‹_› away
    · exact held

theorem linked_onExpiry {d : Timer} {f : State → State} (hf : ∀ x, d = some x → Linked s (f (s.reach x))) :
    Linked s (s.onExpiry d f) := by
  cases d with
  | none => exact .refl s
  | some x => exact hf x rfl

/-! ### What tells that the link is in SHOWTIME -/

theorem LinkHeld.showtime_of_slot {l : Lle} {f : Flt} {o : Outstanding} (h : LinkHeld l f) (slot : l.slot = some o) :
    l.link = .showtime := Decidable.byContradiction fun away => by
  obtain ⟨-, none_, -⟩ := h.rest away
  rw [none_] at slot
  exact nomatch slot

theorem LinkHeld.showtime_of_sync {α : Type} {l : Lle} {f : Flt} {x : α} (g : Showtime → Option α) (h : LinkHeld l f)
    (runs : g l.sync = some x) (start : g Showtime.start = none := by rfl) : l.link = .showtime :=
  Decidable.byContradiction fun away => by
    obtain ⟨sync, -⟩ := h.rest away
    rw [sync, start] at runs
    exact nomatch runs

/-- The expiry of a timer of SHOWTIME. -/
theorem linked_onSyncExpiry {f : State → State} (g : Showtime → Timer)
    (hf : ∀ x, (LinkHeld s.lle s.flt → (s.reach x).lle.link = .showtime) → Linked s (f (s.reach x)))
    (start : g Showtime.start = none := by rfl) : Linked s (s.onExpiry (g s.lle.sync) f) :=
  linked_onExpiry fun x runs => hf x fun held => by
    rw [reach_link]
    exact held.showtime_of_sync g runs start

/-! ### SHOWTIME -/

section showtime
variable (h : Linked s0 s) (showtime : LinkHeld s0.lle s0.flt → s.lle.link = .showtime)
include h showtime

theorem Linked.dropped {reason : DropReason} (g : Syncs s t) : Linked s0 (t.drop reason) :=
  (h.sync g showtime).drop fun start => by
    rw [g.staying.link, showtime start]
    nofun

theorem Linked.swapAbandoned : Linked s0 s.swapAbandoned :=
  have abandoned : Syncs s ((s.signal .swapAbandoned).onSync fun y => { y.dropHead with swapAbandons := y.swapAbandons + 1 }) :=
    (Syncs.refl s).signal.onSync
  .ite (h.dropped showtime abandoned) (h.sync abandoned showtime)

theorem Linked.turnedDown {r : OverheadRequest} : Linked s0 (s.turnedDown r) := by
  have g := Syncs.refl s
  unfold State.turnedDown
  split
  · exact h.sync g.onSync.alignTable showtime
  · exact h.sync g.onSync.alignTable showtime
  · exact .ite h (h.dropped showtime g)
  · exact h.sync g.onLle showtime
  · exact h.sync g.onSync showtime
  · exact h

theorem Linked.declined {r : OverheadRequest} : Linked s0 (s.declined r) := by
  unfold State.declined
  split
  · exact h.sync (Syncs.refl s).onSync showtime
  · exact h.turnedDown showtime

theorem Linked.abandoned {r : OverheadRequest} : Linked s0 (s.abandoned r) := by
  unfold State.abandoned
  split
  · exact h.swapAbandoned showtime
  · exact h.turnedDown showtime

theorem Linked.agreed {r : OverheadRequest} : Linked s0 (s.agreed r) := h.sync (Syncs.refl s).agreed showtime

theorem Linked.endSecond : Linked s0 s.endSecond :=
  have g := Syncs.refl s
  have judged := Syncs.ite (Syncs.ite g.signal.signal g.signal).signal (Syncs.ite g.signal.signal g.signal)
  .ite (h.dropped showtime judged.onSync) (h.sync judged.onSync showtime)

/-- The slot becomes free, and the outcome follows (R57). -/
theorem Linked.endRequest {f : OverheadRequest → State → State} {o : Outstanding}
    (hf : ∀ t, Linked s0 t → (LinkHeld s0.lle s0.flt → t.lle.link = .showtime) → Linked s0 (f o.request t)) :
    Linked s0 (s.endRequest f o) :=
  hf _ (h.sync (Syncs.refl s).onLle showtime) showtime

end showtime

theorem linked_takeAnswer {n : Nat} {f : OverheadRequest → State → State}
    (hf : ∀ r t, Linked s t → (LinkHeld s.lle s.flt → t.lle.link = .showtime) → Linked s (f r t)) :
    Linked s (s.takeAnswer n f) := by
  unfold State.takeAnswer
  split
  · exact .refl s
  · rename_i o slot
    exact .ite ((Linked.refl s).endRequest (fun held => held.showtime_of_slot slot) (hf o.request)) (.refl s)

theorem linked_overheadExpires {o : Outstanding} (h : Linked s0 s)
    (showtime : LinkHeld s0.lle s0.flt → s.lle.link = .showtime) : Linked s0 (s.overheadExpires o) :=
  .ite (h.sync (Syncs.refl s).onLle.sayFar showtime) (h.endRequest showtime fun _ g stands => g.abandoned stands)

theorem linked_takeFar {n : Nat} {f : State → State} (hf : s.lle.link = .showtime → Linked s (f s)) :
    Linked s (s.takeFar n f) := by
  unfold State.takeFar
  split
  · split
    · exact .ite (Linked.refl s).sayFar (hf ‹_›)
    · exact hf ‹_›
  · exact .refl s

theorem Linked.answerFar {n : Nat} {a : FarAnswer} (h : Linked s0 s) : Linked s0 (s.answerFar n a) := h.sayFar.onLle

theorem Linked.farSwap {n g : Nat} {x : TableName} {b : List Nat} (h : Linked s0 s) : Linked s0 (s.farSwap n x g b) := by
  cases x <;> exact .ite h.onLle.answerFar h.answerFar

/-! ### Training (R42 to R46) -/

/-- From one state to another of DOWN, training and RETRAIN_WAIT, with what stands there. -/
structure Trains (l m : Lle) : Prop where
  away : l.link ≠ .showtime ∧ l.link ≠ .lockout ∧ l.link ≠ .quiet
  stays : m.link ≠ .showtime ∧ m.link ≠ .lockout ∧ m.link ≠ .quiet
  holders : m.holders = l.holders
  sync : m.sync = l.sync
  slot : m.slot = l.slot
  switchWaiting : m.switchWaiting = l.switchWaiting
  powerWaiting : m.powerWaiting = l.powerWaiting
  shieldWaiting : m.shieldWaiting = l.shieldWaiting
  wait : m.lockoutTimer = l.lockoutTimer
  held : m.attemptHeld = l.attemptHeld

theorem LinkHeld.trains {l m : Lle} {f : Flt} (h : LinkHeld l f) (g : Trains l m)
    (backoff : m.backoffTimer ≠ none → m.link = .retrainWait) (handshake : m.handshakeTimer ≠ none → m.link = .handshake)
    (probe : m.probeTimer ≠ none → m.link = .probe) (load : m.loadTimer ≠ none → m.link = .load) : LinkHeld m f := by
  obtain ⟨⟨showtime, lockout, quiet⟩, ⟨-, lockout', quiet'⟩, holders, sync, slot, switch, power, shield, wait, held⟩ := g
  obtain ⟨h1, h2, h3, h4, h5⟩ := h.rest showtime
  refine ⟨⟨⟨fun x => absurd x lockout', fun x => absurd (h.lockout.mpr x) lockout⟩, fun _ => ⟨sync.trans h1, slot.trans h2,
    switch.trans h3, power.trans h4, shield.trans h5⟩, backoff, fun x => ?_, fun x => ?_, handshake, probe, load, h.listed,
    h.fits⟩, ⟨fun x => absurd x quiet', fun x => ?_⟩⟩
  · exact absurd (h.wait_none lockout) (wait ▸ x)
  · exact absurd (h.toLinkTimed.unheld lockout) (by rw [← held, x]; nofun)
  · exact absurd (h.quiet.mpr (holders ▸ x)) quiet

theorem linked_beginHandshake (down : s.lle.link = .down) : Linked s s.beginHandshake := by
  refine ⟨⟨rfl, rfl, rfl, rfl⟩, fun held => ?_⟩
  have away {x : LinkState} (other : x ≠ .down) : s.lle.link ≠ x := by
    rw [down]
    exact other.symm
  refine held.trains (m := s.beginHandshake.lle) ⟨⟨away nofun, away nofun, away nofun⟩, ⟨nofun, nofun, nofun⟩, rfl, rfl, rfl,
    rfl, rfl, rfl, rfl, rfl⟩ (fun runs => ?_) (fun _ => rfl) (fun runs => ?_) (fun runs => ?_)
  · exact absurd (held.backoff_none (away nofun)) runs
  · exact absurd (held.probe_none (away nofun)) runs
  · exact absurd (held.load_none (away nofun)) runs

theorem linked_answered (handshake : s.lle.link = .handshake) : Linked s (s.onLle fun l =>
    { l with link := .probe, handshakeTimer := none, probeTimer := some (s.now + Config.probeMs) }) := by
  refine ⟨⟨rfl, rfl, rfl, rfl⟩, fun held => ?_⟩
  have away {x : LinkState} (other : x ≠ .handshake) : s.lle.link ≠ x := by
    rw [handshake]
    exact other.symm
  refine held.trains ⟨⟨away nofun, away nofun, away nofun⟩, ⟨nofun, nofun, nofun⟩, rfl, rfl, rfl, rfl, rfl, rfl, rfl, rfl⟩
    (fun runs => ?_) (fun runs => absurd rfl runs) (fun _ => rfl) (fun runs => ?_)
  · exact absurd (held.backoff_none (away nofun)) runs
  · exact absurd (held.load_none (away nofun)) runs

/-- PROBE ends: LOAD begins, with its timer, or the training fails (R44, R45). -/
theorem linked_endProbe {d : Nat} {m : List Int} (timer : s.lle.probeTimer = some d) :
    Linked s ((s.reach d).endProbe m) := by
  have probing (held : LinkHeld s.lle s.flt) : (s.reach d).lle.link = .probe := by
    rw [reach_link]
    exact held.probe (by rw [timer]; nofun)
  have reached := (Linked.refl s).reach (d := d)
  generalize s.reach d = u at probing reached ⊢
  have away (held : LinkHeld s.lle s.flt) {x : LinkState} (other : x ≠ .probe) : u.lle.link ≠ x := by
    rw [probing held]
    exact other.symm
  have loads (x : Timer) (l : Lle) (frame : l = { u.lle with
        link := .load, probeTimer := none, loadTimer := x, snr := l.snr
        loadE := l.loadE, normal := l.normal, guard := l.guard, farOut := l.farOut }) (held : LinkHeld s.lle s.flt) :
      LinkHeld l u.flt := by
    have later := reached.link held
    rw [frame]
    refine later.trains ⟨⟨away held nofun, away held nofun, away held nofun⟩, ⟨nofun, nofun, nofun⟩, rfl, rfl, rfl, rfl, rfl,
      rfl, rfl, rfl⟩ (fun runs => ?_) (fun runs => ?_) (fun runs => absurd rfl runs) (fun _ => rfl)
    · exact absurd (later.backoff_none (away held nofun)) runs
    · exact absurd (later.handshake_none (away held nofun)) runs
  have aside {t : State} (h : Aside u t) : Aside s t := reached.toAside.trans h
  have loading : Linked s (u.onLle fun l => { l with link := .load, probeTimer := none, snr := recordSnr m }) :=
    ⟨aside ⟨rfl, rfl, rfl, rfl⟩, loads u.lle.loadTimer _ rfl⟩
  refine .ite ⟨aside ⟨rfl, rfl, rfl, rfl⟩, loads (some (u.now + Config.loadMs)) _ rfl⟩
    (loading.trainingFailure fun _ => nofun)

/-- SHOWTIME is entered from LOAD (R46). -/
theorem Linked.enterShowtime (h : Linked s0 s) (load : s.lle.link = .load) : Linked s0 s.enterShowtime := by
  obtain ⟨first, isFirst⟩ : ∃ t, t = (s.onLle fun l =>
    { l with
      link := .showtime, retry := 0, loadTimer := none, e := l.loadE, d := min s.cfl.record.dInit s.cfl.record.dMax
      downInForce := .normal, upInForce := some .normal, restoreRefused := false, lastFar := none
      sync :=
        { Showtime.start with
          began := s.now
          refreshTimer := some (s.now + Config.refreshMs)
          secondTimer := some (s.now + Config.secondMs) } }) := ⟨_, rfl⟩
  have away {x : LinkState} (other : x ≠ .load) : s.lle.link ≠ x := by
    rw [load]
    exact other.symm
  have begun : Linked s first := by
    rw [isFirst]
    refine ⟨⟨rfl, rfl, rfl, rfl⟩, fun held => ⟨⟨⟨nofun, fun on => ?_⟩, fun x => absurd rfl x, fun runs => ?_, fun runs => ?_,
      fun on => ?_, fun runs => ?_, fun runs => ?_, fun runs => absurd rfl runs, held.listed, held.fits⟩, ⟨nofun, fun some => ?_⟩⟩⟩
    · exact absurd (held.lockout.mpr on) (away nofun)
    · exact absurd (held.backoff_none (away nofun)) runs
    · exact absurd (held.wait_none (away nofun)) runs
    · exact absurd (held.held on) (away nofun)
    · exact absurd (held.handshake_none (away nofun)) runs
    · exact absurd (held.probe_none (away nofun)) runs
    · exact absurd (held.quiet.mpr some) (away nofun)
  have ended : Linked first (first.makeInactive .linkRetrainLimit .line) := by
    obtain ⟨⟨q, frame⟩, inactive, listed, fits⟩ := lockout_ended first
    refine ⟨.of_told ⟨q, frame⟩, fun held => ?_⟩
    have lle : (first.makeInactive .linkRetrainLimit .line).lle = first.lle := by rw [frame]; rfl
    have link : first.lle.link ≠ .lockout := by rw [isFirst]; nofun
    rw [lle]
    exact { held with
      lockout := ⟨fun x => absurd x link, fun on => absurd on (by rw [inactive]; nofun)⟩
      listed := listed held.listed
      fits := fits held.fits }
  have whole := ((h.trans (begun.trans ended)).onPlp (f := fun p => { p with
    ready := decide (p.queue.length < Config.payloadCapacity), downstreamAborted := false })).tell (hushed_lineStatus _)
  rw [isFirst] at whole
  exact whole

theorem linked_takeTables {a b : List Nat} (load : s.lle.link = .load) : Linked s (s.takeTables a b) :=
  .ite ((Linked.refl s).trainingFailure fun _ => by rw [load]; nofun) ((Linked.refl s).onLle.enterShowtime load)

/-- LOCKOUT ends, or its attempt is held back (R49). -/
theorem Linked.lockoutEnds (h : Linked s0 s) (lockout : LinkHeld s0.lle s0.flt → s.lle.link = .lockout) :
    Linked s0 s.lockoutEnds := by
  refine .ite ⟨h.toAside.trans ⟨rfl, rfl, rfl, rfl⟩, fun start => ?_⟩ (h.enterDown fun start => by rw [lockout start]; nofun)
  exact { h.link start with wait := fun runs => absurd rfl runs, held := fun _ => lockout start }

theorem Linked.heldAttempt (h : Linked s0 s) : Linked s0 s.heldAttempt := by
  unfold State.heldAttempt
  split
  · rename_i both
    obtain ⟨-, lockout⟩ := Bool.and_eq_true_iff.mp both
    exact h.enterDown fun _ => by rw [of_decide_eq_true lockout]; nofun
  · exact h

/-! ### The supply and the survey (R34, R60, R171) -/

theorem Linked.deriveSupply (h : Linked s0 s) : Linked s0 s.deriveSupply := by
  unfold State.deriveSupply
  dsimp only
  split
  · exact h
  · have faults {t : State} (g : Linked s0 t) (x y : SupplyState) : Linked s0 (t.supplyFaults x y) :=
      have low := Linked.ite (Linked.ite g g.raise) g.makeInactive
      .ite low.makeInactive (.ite low.raise low)
    have followed (x y : SupplyState) := faults (h.onSup (f := fun p => { p with supply := y, converter := p.converter.shed y })) x y
    have holder {t : State} (g : Linked s0 t) (y : SupplyState) : Linked s0 (t.supplyHolder y) := .ite g.addHolder g.removeHolder
    have holds := holder (followed s.sup.supply (supplyOf s.sup.mainsOk s.sup.battLow)) (supplyOf s.sup.mainsOk s.sup.battLow)
    unfold State.abandonForCeiling
    split
    · rename_i training
      obtain ⟨-, -, training, -⟩ := training
      refine holds.enterDown fun _ quiet => ?_
      rw [quiet] at training
      exact nomatch training
    · exact holds

theorem Linked.keepFault {c : FaultCode} {b : Bool} (h : Linked s0 s) (other : lockoutFault ≠ ⟨c, .line⟩ := by nofun)
    (own : FaultKey.listed ⟨c, .line⟩ = true := by rfl) : Linked s0 (s.keepFault c b) :=
  .ite (h.raiseUnlessActive other own) (h.makeInactive other own)

theorem Linked.judgeHigh {b : Bool} (h : Linked s0 s) : Linked s0 (s.judgeHigh b) := by
  unfold State.judgeHigh
  dsimp only
  split
  · exact h.keepFault.onLth.addHolder
  · exact h.keepFault.onLth.removeHolder
  · exact h.keepFault

theorem Linked.judgeItem {i : Item} {r : LoopReadings} (h : Linked s0 s) : Linked s0 (s.judgeItem i r) := by
  unfold State.judgeItem
  split
  · exact h.keepFault.judgeHigh
  · exact h.keepFault
  · exact h.keepFault
  · exact h

/-! ### What settles of the link -/

theorem Linked.settleGuard {before : State} (h : Linked s0 s) : Linked s0 (s.settleGuard before) := by
  unfold State.settleGuard
  split
  · rename_i judged
    exact h.sync (Syncs.refl s).judgeGuard fun _ => judged.1
  · exact h

theorem Linked.settleLink {before : State} (h : Linked s0 s) : Linked s0 (s.settleLink before) := by
  have follows := (linkFollows_settleLink s before).frame
  refine h.trans ⟨?_, fun held => ?_⟩
  · rw [follows]
    exact ⟨rfl, rfl, rfl, rfl⟩
  · by_cases showtime : s.lle.link = .showtime
    · rw [follows]
      exact held.staying ⟨rfl, rfl, rfl, rfl, rfl, rfl, rfl, rfl⟩ fun away => absurd showtime away
    · obtain ⟨sync, -⟩ := held.rest showtime
      obtain ⟨p, rail⟩ := settleLink_away (before := before) showtime (by rw [sync]; rfl)
      rw [rail]
      exact held

/-! ### Management (R53, R54) -/

theorem Linked.controlHold {d : Delivered} (h : Linked s0 s) : Linked s0 (s.controlHold d) :=
  .ite (h.tell (hushed_handRoutine _ s)).addHolder (h.tell (hushed_handCall _ s))

theorem Linked.controlRetrain {d : Delivered} (h : Linked s0 s) : Linked s0 (s.controlRetrain d) := by
  have done : Linked s0 (s.done d.src .linkControl) := h.tell (hushed_handRoutine _ s)
  have link : (s.done d.src .linkControl).lle.link = s.lle.link := by
    obtain ⟨q, frame⟩ := (hushed_handRoutine (doneFrame d.src .linkControl) s).frame
    exact (congrArg (fun t : State => t.lle.link) frame :)
  unfold State.controlRetrain
  split
  · exact h.tell (hushed_handCall _ s)
  · exact done
  · rename_i quiet _
    exact done.enterDown fun _ => by
      rw [link]
      exact quiet

theorem Linked.clearRetry {d : Delivered} (h : Linked s0 s) : Linked s0 (s.clearRetry d) := by
  have done : Linked s0 ((s.onLle fun l => { l with retry := 0 }).done d.src .clearRetry) :=
    h.onLle.tell (hushed_handRoutine _ _)
  unfold State.clearRetry
  dsimp only
  split
  · rename_i wait
    exact done.enterDown fun _ => by rw [wait]; nofun
  · rename_i lockout
    exact done.enterDown fun _ => by rw [lockout]; nofun
  · exact done

end Sys2Proof.Proofs.Standing
end

section
/-! The outside line in step with the call table: what is kept, and what the modifiers leave of it (O60). -/

set_option Elab.async false

namespace Sys2Proof.Proofs.Standing

open Sys2Proof Sys2Proof.Machine Sys2Proof.Proofs.Steps Sys2Proof.Proofs.Telling

variable {s0 s t u : State}

/-! ### What is kept -/

/-- What `State.lineKept` says of the call table alone, with its capacity. -/
structure TableHeld (c : Cct) : Prop where
  ids : (c.calls.map (·.id)).Nodup
  kept : ∀ r ∈ c.calls, r.kept = true
  next : 1 ≤ c.nextCallId ∧ c.nextCallId ≤ 255
  room : c.calls.length ≤ 4

/-- Each timer of the line runs in the states it is for. -/
structure LineTimed (v : Vsw) : Prop where
  offHook : v.offHookBandTimer ≠ none → v.line = .idle ∨ v.line = .ringIn
  onHook : v.onHookBandTimer ≠ none → v.line = .parallel
  ringEnd : v.ringEndTimer ≠ none → v.line = .ringIn
  burstOff : v.burstOffTimer ≠ none → v.line = .ringIn
  burst : v.inBurst = true → v.line = .ringIn
  release : v.releaseTimer ≠ none → v.line = .releasing

/-- The calls that have the line, and those that ring on it, are as the state of the line has it. -/
structure Serves (c : Cct) (x : LineState) : Prop where
  holding : c.calls.countP CallRec.hasLine = if x = .seized then 1 else 0
  ringing : c.calls.countP CallRec.unanswered ≤ if x = .ringIn then 1 else 0

/-- What `State.lineKept` says of the call table and the outside line, but for the episodes and the survey. -/
structure LineHeld (c : Cct) (v : Vsw) : Prop where
  table : TableHeld c
  timed : LineTimed v
  serves : Serves c v.line

/-- TEST lasts while an item or the restore time runs (R164, R166). -/
structure Tested (l : Lth) (x : LineState) : Prop where
  restore : l.restoreTimer ≠ none → x = .test
  item : ∀ i, l.stage = .item i → x = .test

/-- What an episode rings for. -/
def Episode.key (e : Episode) : Nat × EpisodeKind := (e.callId, e.kind)

theorem runsOnly_iff {x : Timer} {p : Prop} [Decidable p] : (x.isNone || decide p) = true ↔ (x ≠ none → p) := by
  cases x <;> simp

theorem runsInEither_iff {x : Timer} {p q : Prop} [Decidable p] [Decidable q] :
    (x.isNone || decide p || decide q) = true ↔ (x ≠ none → p ∨ q) := by
  cases x <;> simp

theorem tested_iff (l : Lth) (x : LineState) :
    ((l.restoreTimer.isNone && (match l.stage with | .item _ => false | _ => true)) || decide (x = .test)) = true ↔
      Tested l x := by
  have stage : (match l.stage with | .item _ => false | _ => true) = true ↔ ∀ i, l.stage ≠ .item i := by
    cases l.stage <;> simp
  rw [Bool.or_eq_true, Bool.and_eq_true, stage, decide_eq_true_eq, Option.isNone_iff_eq_none]
  constructor
  · rintro (⟨stopped, none⟩ | test)
    · exact ⟨fun runs => absurd stopped runs, fun i item => absurd item (none i)⟩
    · exact ⟨fun _ => test, fun _ _ => test⟩
  · intro h
    by_cases test : x = .test
    · exact .inr test
    · exact .inl ⟨Decidable.not_not.mp fun runs => test (h.restore runs), fun i item => test (h.item i item)⟩

theorem lineKept_iff (s : State) : s.lineKept = true ∧ s.cct.calls.length ≤ 4 ↔
    LineHeld s.cct s.vsw ∧ Tested s.lth s.vsw.line ∧ s.ringsAsCalled = true := by
  simp only [State.lineKept, Bool.and_eq_true, decide_eq_true_eq, List.all_eq_true, ← List.countP_eq_length_filter]
  constructor
  · rintro ⟨⟨⟨⟨⟨⟨⟨⟨⟨⟨⟨⟨ids, kept⟩, low⟩, high⟩, rings⟩, holding⟩, ringing⟩, offHook⟩, onHook⟩, ringIn⟩, release⟩, tested⟩,
      room⟩
    have started : s.vsw.ringEndTimer ≠ none ∨ s.vsw.burstOffTimer ≠ none ∨ s.vsw.inBurst = true → s.vsw.line = .ringIn := by
      rcases (Bool.or_eq_true _ _).mp ringIn with quiet | line
      · simp only [Bool.and_eq_true, Option.isNone_iff_eq_none, Bool.not_eq_true'] at quiet
        simp [quiet]
      · exact fun _ => of_decide_eq_true line
    exact ⟨⟨⟨ids, kept, ⟨low, high⟩, room⟩, ⟨runsInEither_iff.mp offHook, runsOnly_iff.mp onHook, fun h => started (.inl h),
      fun h => started (.inr (.inl h)), fun h => started (.inr (.inr h)), runsOnly_iff.mp release⟩,
      ⟨holding, ringing⟩⟩, (tested_iff _ _).mp tested, rings⟩
  · rintro ⟨⟨⟨ids, kept, ⟨low, high⟩, room⟩, ⟨offHook, onHook, ringEnd, burstOff, burst, release⟩, ⟨holding, ringing⟩⟩, tested,
      rings⟩
    refine ⟨⟨⟨⟨⟨⟨⟨⟨⟨⟨⟨⟨ids, kept⟩, low⟩, high⟩, rings⟩, holding⟩, ringing⟩, runsInEither_iff.mpr offHook⟩, runsOnly_iff.mpr onHook⟩, ?_⟩,
      runsOnly_iff.mpr release⟩, (tested_iff _ _).mpr tested⟩, room⟩
    by_cases line : s.vsw.line = .ringIn
    · simp [line]
    · have quiet : s.vsw.ringEndTimer = none ∧ s.vsw.burstOffTimer = none ∧ s.vsw.inBurst = false :=
        ⟨Decidable.not_not.mp fun h => line (ringEnd h), Decidable.not_not.mp fun h => line (burstOff h),
          Bool.eq_false_iff.mpr fun h => line (burst h)⟩
      simp [quiet]

/-- From one state to a later one the link and the outside line are kept in step, and the episodes ring for the same
calls. -/
structure InStep (s t : State) : Prop where
  link : LinkHeld s.lle s.flt → LinkHeld t.lle t.flt
  line : LineHeld s.cct s.vsw → LineHeld t.cct t.vsw
  tested : LineHeld s.cct s.vsw → Tested s.lth s.vsw.line → Tested t.lth t.vsw.line
  rings : t.vsw.episodes.map Episode.key = s.vsw.episodes.map Episode.key

theorem InStep.refl (s : State) : InStep s s := ⟨id, id, fun _ => id, rfl⟩

theorem InStep.trans (h : InStep s t) (g : InStep t u) : InStep s u :=
  ⟨fun x => g.link (h.link x), fun x => g.line (h.line x), fun x y => g.tested (h.line x) (h.tested x y), g.rings.trans h.rings⟩

theorem InStep.ite {c : Prop} [Decidable c] (h : InStep s0 s) (g : InStep s0 t) : InStep s0 (if c then s else t) := by
  split
  · exact h
  · exact g

theorem InStep.foldl {α : Type} {f : State → α → State} (hf : ∀ s a, InStep s0 s → InStep s0 (f s a)) (l : List α)
    (h : InStep s0 s) : InStep s0 (l.foldl f s) := by
  induction l generalizing s with
  | nil => exact h
  | cons a l ih => exact ih (hf s a h)

theorem Tested.of_same {l m : Lth} {x : LineState} (h : Tested l x) (stage : m.stage = l.stage)
    (restore : m.restoreTimer = l.restoreTimer) : Tested m x :=
  ⟨by rw [restore]; exact h.restore, by rw [stage]; exact h.item⟩

theorem Linked.inStep (h : Linked s t) : InStep s t where
  link := h.link
  line held := by rwa [h.cct, h.vsw]
  tested _ held := by
    rw [h.vsw]
    exact held.of_same h.stage h.restore
  rings := by rw [h.vsw]

theorem InStep.linked (h : InStep s0 s) (g : Linked s t) : InStep s0 t := h.trans g.inStep

theorem InStep.tell (h : InStep s0 s) (w : Hushed s t) : InStep s0 t := h.linked ((Linked.refl s).tell w)

/-! ### The modifiers -/

/-- What `State.lineKept` looks at in the voice switch stands. -/
structure SameLine (v w : Vsw) : Prop where
  line : w.line = v.line
  offHook : w.offHookBandTimer = v.offHookBandTimer
  onHook : w.onHookBandTimer = v.onHookBandTimer
  ringEnd : w.ringEndTimer = v.ringEndTimer
  burstOff : w.burstOffTimer = v.burstOffTimer
  burst : w.inBurst = v.inBurst
  release : w.releaseTimer = v.releaseTimer

theorem LineTimed.same {v w : Vsw} (h : LineTimed v) (same : SameLine v w) : LineTimed w := by
  obtain ⟨line, offHook, onHook, ringEnd, burstOff, burst, release⟩ := same
  constructor
  · rw [line, offHook]; exact h.offHook
  · rw [line, onHook]; exact h.onHook
  · rw [line, ringEnd]; exact h.ringEnd
  · rw [line, burstOff]; exact h.burstOff
  · rw [line, burst]; exact h.burst
  · rw [line, release]; exact h.release

theorem LineHeld.sameLine {c : Cct} {v w : Vsw} (h : LineHeld c v) (same : SameLine v w) : LineHeld c w :=
  ⟨h.table, h.timed.same same, same.line ▸ h.serves⟩

theorem LineHeld.sameCalls {c d : Cct} {v : Vsw} (h : LineHeld c v) (calls : d.calls = c.calls)
    (next : d.nextCallId = c.nextCallId) : LineHeld d v where
  table := ⟨by rw [calls]; exact h.table.ids, by rw [calls]; exact h.table.kept, by rw [next]; exact h.table.next,
    by rw [calls]; exact h.table.room⟩
  timed := h.timed
  serves := ⟨by rw [calls]; exact h.serves.holding, by rw [calls]; exact h.serves.ringing⟩

section modifiers
variable (h : InStep s0 s)
include h

theorem InStep.onPins {f : Pins → Pins} : InStep s0 (s.onPins f) := h.linked (Linked.refl s).onPins
theorem InStep.onYbi {f : Ybi → Ybi} : InStep s0 (s.onYbi f) := h.linked (Linked.refl s).onYbi
theorem InStep.onCfl {f : Cfl → Cfl} : InStep s0 (s.onCfl f) := h.linked (Linked.refl s).onCfl
theorem InStep.onSup {f : Sup → Sup} : InStep s0 (s.onSup f) := h.linked (Linked.refl s).onSup
theorem InStep.onPlp {f : Plp → Plp} : InStep s0 (s.onPlp f) := h.linked (Linked.refl s).onPlp
theorem InStep.onCtb {f : Ctb → Ctb} : InStep s0 (s.onCtb f) := h.linked (Linked.refl s).onCtb

theorem InStep.onFlt {f : Flt → Flt} (table : Spared s.flt (f s.flt)) : InStep s0 (s.onFlt f) :=
  h.linked ((Linked.refl s).onFlt table)

theorem InStep.onLth {f : Lth → Lth} (stage : (f s.lth).stage = s.lth.stage := by rfl)
    (restore : (f s.lth).restoreTimer = s.lth.restoreTimer := by rfl) : InStep s0 (s.onLth f) :=
  h.linked ((Linked.refl s).onLth stage restore)

theorem InStep.onVsw {f : Vsw → Vsw} (same : SameLine s.vsw (f s.vsw) := by exact ⟨rfl, rfl, rfl, rfl, rfl, rfl, rfl⟩)
    (episodes : (f s.vsw).episodes.map Episode.key = s.vsw.episodes.map Episode.key := by rfl) : InStep s0 (s.onVsw f) :=
  h.trans ⟨id, fun held => held.sameLine same, fun _ held => by rw [State.onVsw_vsw, same.line]; exact held, episodes⟩

theorem InStep.onPort {p : Port} {f : PortRec → PortRec} : InStep s0 (s.onPort p f) := by
  cases p
  · exact h.onVsw (f := fun v => { v with portA := f v.portA })
  · exact h.onVsw (f := fun v => { v with portB := f v.portB })

theorem InStep.onCct {f : Cct → Cct} (calls : (f s.cct).calls = s.cct.calls := by rfl)
    (next : (f s.cct).nextCallId = s.cct.nextCallId := by rfl) : InStep s0 (s.onCct f) :=
  h.trans ⟨id, fun held => held.sameCalls calls next, fun _ => id, rfl⟩

theorem InStep.reach {d : Nat} : InStep s0 (s.reach d) := h.linked (Linked.refl s).reach

theorem InStep.onEntry {n : Nat} {g : PresenceEntry → PresenceEntry} : InStep s0 (s.onEntry n g) := h.onYbi
theorem InStep.clearExpectation {n : Nat} : InStep s0 (s.clearExpectation n) := h.onEntry
theorem InStep.popRequest : InStep s0 s.popRequest := h.onYbi
theorem InStep.signal {e : Event} : InStep s0 (s.signal e) := h.tell (hushed_signal e s)
theorem InStep.frameDropped : InStep s0 s.frameDropped := h.tell (hushed_frameDropped s)
theorem InStep.noticeRoutine {e : FaultEntry} : InStep s0 (s.noticeRoutine e) := h.tell (hushed_noticeRoutine e s)
theorem InStep.handCall {f : TxFrame} : InStep s0 (s.handCall f) := h.tell (hushed_handCall f s)
theorem InStep.handRoutine {f : TxFrame} : InStep s0 (s.handRoutine f) := h.tell (hushed_handRoutine f s)
theorem InStep.protocolFault {n : Nat} : InStep s0 (s.protocolFault n) := h.tell (hushed_protocolFault n s)
theorem InStep.refuse {n : Nat} {k : Kind} {r : RefuseReason} {tag : Nat} : InStep s0 (s.refuse n k r tag) := h.handCall
theorem InStep.done {n : Nat} {k : Kind} : InStep s0 (s.done n k) := h.handRoutine
theorem InStep.report {n : Nat} {b : List Byte} : InStep s0 (s.report n b) := h.handRoutine
theorem InStep.lineStatus : InStep s0 s.lineStatus := h.handRoutine

theorem InStep.raise {c : FaultCode} {x : FaultSource} (other : lockoutFault ≠ ⟨c, x⟩ := by nofun)
    (own : FaultKey.listed ⟨c, x⟩ = true := by rfl) : InStep s0 (s.raise c x) := h.tell (hushed_raise s other own)

theorem InStep.makeInactive {c : FaultCode} {x : FaultSource} (other : lockoutFault ≠ ⟨c, x⟩ := by nofun)
    (own : FaultKey.listed ⟨c, x⟩ = true := by rfl) : InStep s0 (s.makeInactive c x) :=
  h.tell (hushed_makeInactive s other own)

theorem InStep.raiseUnlessActive {c : FaultCode} {x : FaultSource} (other : lockoutFault ≠ ⟨c, x⟩ := by nofun)
    (own : FaultKey.listed ⟨c, x⟩ = true := by rfl) : InStep s0 (s.raiseUnlessActive c x) := .ite h (h.raise other own)

theorem InStep.pumpStream : InStep s0 s.pumpStream := by
  unfold State.pumpStream
  split
  · exact h
  · split
    · exact h
    · exact h.onYbi
    · exact .ite h.onYbi h

theorem InStep.startStream {l : List TxFrame} : InStep s0 (s.startStream l) := .ite h h.onYbi.pumpStream

theorem InStep.handOwed : InStep s0 s.handOwed := by
  unfold State.handOwed
  split
  · exact h
  · split
    · have owed {o : List FaultKey} : InStep s0 (s.onFlt fun f => { f with owed := o }) := h.onFlt (.of_entries rfl id)
      dsimp only
      split
      · exact owed
      · exact owed.noticeRoutine
    · exact h

theorem InStep.onExpiry {d : Timer} {f : State → State} (hf : ∀ s, InStep s0 s → InStep s0 (f s)) :
    InStep s0 (s.onExpiry d f) := by
  cases d with
  | none => exact h
  | some x => exact hf _ h.reach

end modifiers

end Sys2Proof.Proofs.Standing
end

section
/-! The outside line and the call table move together: the line enters a state, and records join, change and leave
(O60). -/

set_option Elab.async false

namespace Sys2Proof.Proofs.Standing

open Sys2Proof Sys2Proof.Machine Sys2Proof.Proofs.Steps Sys2Proof.Proofs.Telling Sys2Proof.Proofs.Calls

variable {s0 s t u : State} {x : LineState}

/-! ### The line enters another state -/

theorem holdTimer_runs {b : Bool} {now ms : Nat} {t : Timer} (runs : holdTimer b now ms t ≠ none) : b = true := by
  unfold holdTimer at runs
  split at runs
  · assumption
  · exact absurd rfl runs

/-- R119, R120: the timers are those of the state that the line enters. -/
theorem LineTimed.relined (x : LineState) (h : LineTimed s.vsw) : LineTimed (relined x s).vsw := by
  by_cases same : s.vsw.line = x
  · rw [Calls.relined, if_pos same]
    exact h
  · rw [Calls.relined, if_neg same]
    constructor
    · intro runs
      have judged := holdTimer_runs runs
      simp only [Bool.and_eq_true, Bool.or_eq_true, decide_eq_true_eq] at judged
      exact judged.1.2
    · intro runs
      have judged := holdTimer_runs runs
      simp only [Bool.and_eq_true, decide_eq_true_eq] at judged
      exact judged.1.2
    · exact fun runs => absurd rfl runs
    · exact fun runs => absurd rfl runs
    · exact fun burst => absurd burst Bool.false_ne_true
    · intro runs
      by_cases releasing : x = .releasing
      · exact releasing
      · exact absurd (if_neg releasing) runs

theorem LineTimed.setLine (x : LineState) (h : LineTimed s.vsw) : LineTimed (s.setLine x).vsw := by
  have told := (mutters_setLine x s).frame
  have vsw : (s.setLine x).vsw = (Calls.relined x s).vsw := by
    rw [told]
    rfl
  rw [vsw]
  exact h.relined x

theorem LinkHeld.setLine (x : LineState) (h : LinkHeld s.lle s.flt) : LinkHeld (s.setLine x).lle (s.setLine x).flt := by
  unfold State.setLine
  split
  · exact h
  · exact ((Linked.refl _).tell (hushed_lineStatus _)).link h

theorem setLine_cct (x : LineState) (s : State) : (s.setLine x).cct = s.cct := by
  rw [(relines_setLine x s).frame]

theorem setLine_line (x : LineState) (s : State) : (s.setLine x).vsw.line = x := (relines_setLine x s).line

theorem Tested.setLine (h : Tested s.lth x) : Tested (s.setLine x).lth x := by
  have survey := (relines_setLine x s).survey
  exact h.of_same (by rw [survey]) (by rw [survey])

/-- The call table changes, and the line goes with it into the state that serves it. -/
theorem InStep.lineTaken {f : Cct → Cct} (h : InStep s0 s) (table : LineHeld s0.cct s0.vsw → TableHeld (f s.cct))
    (serves : LineHeld s0.cct s0.vsw → Serves (f s.cct) x)
    (tested : LineHeld s0.cct s0.vsw → Tested s.lth s.vsw.line → Tested s.lth x) :
    InStep s0 ((s.onCct f).setLine x) where
  link held := (h.link held).setLine (s := s.onCct f) x
  line held := by
    refine ⟨?_, (h.line held).timed.setLine (s := s.onCct f) x, ?_⟩
    · rw [setLine_cct]
      exact table held
    · rw [setLine_cct, setLine_line]
      exact serves held
  tested held tests := by
    rw [setLine_line]
    exact Tested.setLine (s := s.onCct f) (tested held (h.tested held tests))
  rings := by
    rw [(relines_setLine x (s.onCct f)).episodes]
    exact h.rings

/-- The line changes, and the call table stands. -/
theorem InStep.setLine (h : InStep s0 s) (serves : LineHeld s0.cct s0.vsw → Serves s.cct x)
    (tested : LineHeld s0.cct s0.vsw → Tested s.lth s.vsw.line → Tested s.lth x) : InStep s0 (s.setLine x) :=
  h.lineTaken (f := id) (fun held => (h.line held).table) serves tested

/-- Nothing runs in TEST when the line is in another state. -/
theorem Tested.elsewhere {l : Lth} {x y : LineState} (h : Tested l x) (away : x ≠ .test) : Tested l y :=
  ⟨fun runs => absurd (h.restore runs) away, fun i item => absurd (h.item i item) away⟩

/-- A line that no call has or rings on serves the same table in every state but SEIZED. -/
theorem Serves.unclaimed {c : Cct} {x y : LineState} (h : Serves c x) (seized : x ≠ .seized) (ringIn : x ≠ .ringIn)
    (other : y ≠ .seized) : Serves c y where
  holding := by
    rw [if_neg other, h.holding, if_neg seized]
  ringing := by
    have none := h.ringing
    rw [if_neg ringIn] at none
    exact none.trans (Nat.zero_le _)

/-- The line goes from a state in which no call has it or rings on it, TEST excepted, to another one. -/
theorem InStep.setUnclaimed (h : InStep s0 s)
    (line : LineHeld s0.cct s0.vsw → s.vsw.line ≠ .seized ∧ s.vsw.line ≠ .ringIn ∧ s.vsw.line ≠ .test)
    (other : x ≠ .seized := by nofun) : InStep s0 (s.setLine x) := by
  refine h.setLine (fun held => ?_) fun held tests => tests.elsewhere (line held).2.2
  obtain ⟨seized, ringIn, -⟩ := line held
  exact (h.line held).serves.unclaimed seized ringIn other

/-! ### The records of the table -/

theorem mem_of_callOf {id : Nat} {r : CallRec} (h : s.callOf id = some r) : r ∈ s.cct.calls ∧ r.id = id :=
  ⟨List.mem_of_find?_eq_some h, by simpa using List.find?_some h⟩

theorem TableHeld.unique {c : Cct} {r q : CallRec} (h : TableHeld c) (hr : r ∈ c.calls) (hq : q ∈ c.calls)
    (same : r.id = q.id) : r = q := List.inj_on_of_nodup_map h.ids hr hq same

/-- R131: the ids being different, a record stands apart from the others. -/
theorem TableHeld.apart {c : Cct} {r : CallRec} (h : TableHeld c) (mem : r ∈ c.calls) :
    ∃ a b, c.calls = a ++ r :: b ∧ (∀ q ∈ a, q.id ≠ r.id) ∧ ∀ q ∈ b, q.id ≠ r.id := by
  obtain ⟨a, b, parts⟩ := List.append_of_mem mem
  have ids := h.ids
  rw [parts, List.map_append, List.map_cons, List.nodup_append] at ids
  obtain ⟨-, rest, before⟩ := ids
  refine ⟨a, b, parts, fun q hq same => ?_, fun q hq same => ?_⟩
  · exact before q.id (List.mem_map_of_mem hq) r.id List.mem_cons_self same
  · exact (List.nodup_cons.mp rest).1 (same ▸ List.mem_map_of_mem hq)

theorem map_apart {l : List CallRec} {id : Nat} (f : CallRec → CallRec) (other : ∀ q ∈ l, q.id ≠ id) :
    l.map (fun q => if q.id = id then f q else q) = l := by
  conv_rhs => rw [← List.map_id l]
  exact List.map_congr_left fun q hq => if_neg (other q hq)

/-- The record of a call is edited, its id standing. -/
theorem TableHeld.edit {c : Cct} {r : CallRec} {f : CallRec → CallRec} (h : TableHeld c) (mem : r ∈ c.calls)
    (id : (f r).id = r.id) (kept : (f r).kept = true) :
    TableHeld { c with calls := c.calls.map fun q => if q.id = r.id then f q else q } := by
  have at_ (q : CallRec) (hq : q ∈ c.calls) (same : q.id = r.id) : f q = f r := by rw [h.unique hq mem same]
  refine ⟨?_, fun q hq => ?_, h.next, by simpa using h.room⟩
  · have same : (c.calls.map fun q => if q.id = r.id then f q else q).map (·.id) = c.calls.map (·.id) := by
      rw [List.map_map]
      refine List.map_congr_left fun q hq => ?_
      simp only [Function.comp_apply]
      split
      · rename_i own
        rw [at_ q hq own, id, own]
      · rfl
    exact same ▸ h.ids
  · obtain ⟨p, hp, rfl⟩ := List.mem_map.mp hq
    split
    · rename_i own
      rw [at_ p hp own]
      exact kept
    · exact h.kept p hp

theorem TableHeld.countP_edit {c : Cct} {r : CallRec} (h : TableHeld c) (mem : r ∈ c.calls) (f : CallRec → CallRec)
    (p : CallRec → Bool) :
    (c.calls.map fun q => if q.id = r.id then f q else q).countP p + (if p r then 1 else 0) =
      c.calls.countP p + if p (f r) then 1 else 0 := by
  obtain ⟨a, b, parts, before, after⟩ := h.apart mem
  rw [parts, List.map_append, List.map_cons, map_apart f before, map_apart f after, if_pos rfl]
  simp only [List.countP_append, List.countP_cons]
  omega

theorem TableHeld.countP_removed {c : Cct} {r : CallRec} (h : TableHeld c) (mem : r ∈ c.calls) (p : CallRec → Bool) :
    (c.calls.filter fun q => q.id != r.id).countP p + (if p r then 1 else 0) = c.calls.countP p := by
  obtain ⟨a, b, parts, before, after⟩ := h.apart mem
  have stays (l : List CallRec) (other : ∀ q ∈ l, q.id ≠ r.id) : l.filter (fun q => q.id != r.id) = l :=
    List.filter_eq_self.mpr fun q hq => by simpa using other q hq
  rw [parts, List.filter_append, List.filter_cons, stays a before, stays b after]
  simp only [bne_self_eq_false, Bool.false_eq_true, ↓reduceIte, List.countP_append, List.countP_cons]
  omega

theorem TableHeld.filter {c : Cct} (h : TableHeld c) (p : CallRec → Bool) : TableHeld { c with calls := c.calls.filter p } :=
  ⟨h.ids.sublist (List.filter_sublist.map _), fun q hq => h.kept q (List.mem_of_mem_filter hq), h.next,
    (List.length_filter_le _ _).trans h.room⟩

/-! ### A record changes within its class -/

/-- A record becomes another one of the same id and class. -/
structure Seated (r q : CallRec) : Prop where
  id : q.id = r.id
  kept : r.kept = true → q.kept = true
  hasLine : q.hasLine = r.hasLine
  unanswered : q.unanswered = r.unanswered

theorem InStep.onCall {id : Nat} {f : CallRec → CallRec} (h : InStep s0 s)
    (seated : LineHeld s0.cct s0.vsw → ∀ r ∈ s.cct.calls, r.id = id → Seated r (f r) := by
      exact fun _ _ _ _ => ⟨rfl, fun x => x, rfl, rfl⟩) : InStep s0 (s.onCall id f) := by
  refine ⟨h.link, fun held => ?_, h.tested, h.rings⟩
  have before := h.line held
  have at_ (q : CallRec) (hq : q ∈ s.cct.calls) : Seated q (if q.id = id then f q else q) := by
    split
    · exact seated held q hq ‹_›
    · exact ⟨rfl, fun x => x, rfl, rfl⟩
  have count (p : CallRec → Bool) (same : ∀ r q, Seated r q → p q = p r) :
      (s.cct.calls.map fun q => if q.id = id then f q else q).countP p = s.cct.calls.countP p := by
    rw [List.countP_map]
    exact List.countP_congr fun q hq => by rw [Function.comp_apply, same _ _ (at_ q hq)]
  refine ⟨⟨?_, fun q hq => ?_, before.table.next, (List.length_map _).trans_le before.table.room⟩, before.timed, ?_⟩
  · have same : (s.cct.calls.map fun q => if q.id = id then f q else q).map (·.id) = s.cct.calls.map (·.id) := by
      rw [List.map_map]
      exact List.map_congr_left fun q hq => (at_ q hq).id
    exact same ▸ before.table.ids
  · obtain ⟨p, hp, rfl⟩ := List.mem_map.mp hq
    exact (at_ p hp).kept (before.table.kept p hp)
  · exact ⟨(count _ fun _ _ => Seated.hasLine).trans before.serves.holding,
      (count _ fun _ _ => Seated.unanswered).trans_le before.serves.ringing⟩

end Sys2Proof.Proofs.Standing
end

section
/-! The line and the call table stay in step as parties leave, and as calls end, are held and are given on (O60). -/

set_option Elab.async false

namespace Sys2Proof.Proofs.Standing

open Sys2Proof Sys2Proof.Machine Sys2Proof.Proofs.Steps Sys2Proof.Proofs.Telling Sys2Proof.Proofs.Calls

variable {s0 s t u : State} {x : LineState} {id : Nat} {r c : CallRec}

/-! ### What a record says of the line -/

section held
variable (held : LineHeld s.cct s.vsw)
include held

theorem LineHeld.seized (mem : r ∈ s.cct.calls) (line : r.hasLine = true) : s.vsw.line = .seized := by
  have one := held.serves.holding
  have some := List.countP_pos_iff.mpr ⟨r, mem, line⟩
  split at one
  · assumption
  · omega

theorem LineHeld.ringIn (mem : r ∈ s.cct.calls) (rings : r.unanswered = true) : s.vsw.line = .ringIn := by
  have one := held.serves.ringing
  have some := List.countP_pos_iff.mpr ⟨r, mem, rings⟩
  split at one
  · assumption
  · omega

/-- R119: no two calls have the line. -/
theorem LineHeld.one_line (hr : r ∈ s.cct.calls) (hc : c ∈ s.cct.calls) (line : r.hasLine = true)
    (other : c.hasLine = true) : r = c := by
  by_contra apart
  have count := held.table.countP_removed hr CallRec.hasLine
  rw [held.serves.holding, if_pos (held.seized hr line), if_pos line] at count
  have stays : c ∈ s.cct.calls.filter fun q => q.id != r.id :=
    List.mem_filter.mpr ⟨hc, by simpa using fun same : c.id = r.id => apart (held.table.unique hr hc same.symm)⟩
  have some := List.countP_pos_iff.mpr ⟨c, stays, other⟩
  omega

/-- R131: what is true of one record is true of all with its id. -/
theorem LineHeld.only {p : CallRec → Prop} (mem : c ∈ s.cct.calls) (own : p c) :
    ∀ r ∈ s.cct.calls, r.id = c.id → p r := fun _ hr same => held.table.unique hr mem same ▸ own

end held

theorem hasLine_iff : r.hasLine = true ↔ r.kind = .outside ∧ (r.state = .active ∨ r.state = .held) := by
  simp [CallRec.hasLine]

theorem unanswered_iff : r.unanswered = true ↔ r.kind = .outside ∧ r.state = .setup := by
  simp [CallRec.unanswered]

theorem not_hasLine_intercom (intercom : r.kind = .intercom) : r.hasLine = false := by
  simp [CallRec.hasLine, intercom]

theorem not_unanswered (line : r.hasLine = true) : r.unanswered = false := by
  obtain ⟨-, active | held⟩ := hasLine_iff.mp line
  · simp [CallRec.unanswered, active]
  · simp [CallRec.unanswered, held]

theorem kept_held (kept : r.kept = true) (state : r.state = .held) : r.kind = .outside := by
  simp only [CallRec.kept, Bool.and_eq_true, state] at kept
  simpa using kept.1.1.1.1.1.1.2

/-! ### A call is removed -/

theorem InStep.dropDigits {p : Port} (h : InStep s0 s) : InStep s0 (s.onVsw (Vsw.dropDigits p)) := h.onVsw

theorem InStep.portReleased {p : Port} (h : InStep s0 s) : InStep s0 (s.portReleased p) :=
  .ite h.dropDigits.onPort h.dropDigits

theorem InStep.dismiss {e : Endpoint} (h : InStep s0 s) : InStep s0 (s.dismiss id e) := by
  cases e with
  | station n =>
    unfold State.dismiss
    dsimp only
    split
    · exact (InStep.ite h.clearExpectation h).handCall
    · exact h.handCall
  | port p => exact h.portReleased

theorem handCall_cct (f : TxFrame) (s : State) : (s.handCall f).cct = s.cct := by
  obtain ⟨q, frame⟩ := (hushed_handCall f s).frame
  rw [frame]
  rfl

theorem dismiss_cct (id : Nat) (e : Endpoint) (s : State) : (s.dismiss id e).cct = s.cct := by
  cases e with
  | station n =>
    unfold State.dismiss
    dsimp only
    rw [handCall_cct]
    split
    · split <;> rfl
    · rfl
  | port p =>
    unfold State.dismiss State.portReleased
    dsimp only
    split
    · cases p <;> rfl
    · rfl

theorem dismissAll_cct (id : Nat) (l : List Party) (s : State) :
    (l.foldl (fun s p => s.dismiss id p.who) s).cct = s.cct := by
  induction l generalizing s with
  | nil => rfl
  | cons p l ih => exact (ih _).trans (dismiss_cct _ _ _)

theorem InStep.dismissAll {l : List Party} (h : InStep s0 s) : InStep s0 (l.foldl (fun s p => s.dismiss id p.who) s) :=
  .foldl (fun _ _ hs => hs.dismiss) l h

theorem removeCall_calls (id : Nat) (s : State) : (s.removeCall id).cct.calls = s.cct.calls.filter fun r => r.id != id := by
  unfold State.removeCall
  split
  · rename_i none
    exact (List.filter_eq_self.mpr fun r hr => by simpa using List.find?_eq_none.mp none r hr).symm
  · rw [dismissAll_cct]
    rfl

/-- A call that has not the line is removed. -/
theorem InStep.removeCall (h : InStep s0 s)
    (free : LineHeld s0.cct s0.vsw → ∀ r, s.callOf id = some r → r.hasLine = false) : InStep s0 (s.removeCall id) := by
  unfold State.removeCall
  split
  · exact h
  · rename_i r found
    refine InStep.dismissAll ⟨h.link, fun held => ?_, h.tested, h.rings⟩
    obtain ⟨mem, rfl⟩ := mem_of_callOf found
    have before := h.line held
    have holding := before.table.countP_removed mem CallRec.hasLine
    have ringing := before.table.countP_removed mem CallRec.unanswered
    rw [free held r found] at holding
    exact ⟨before.table.filter _, before.timed, ⟨holding.trans before.serves.holding,
      ((Nat.le_add_right _ _).trans_eq ringing).trans before.serves.ringing⟩⟩

theorem cleared_kept (kept : r.kept = true) (line : r.hasLine = true) (now : Nat) : (clearingOf r now).kept = true := by
  obtain ⟨outside, -⟩ := hasLine_iff.mp line
  simp_all [CallRec.kept, CallRec.unanswered]

theorem cleared_unanswered (r : CallRec) (now : Nat) : (clearingOf r now).unanswered = false := by
  simp [CallRec.unanswered]

theorem cleared_hasLine (r : CallRec) (now : Nat) : (clearingOf r now).hasLine = false := by
  simp [CallRec.hasLine]

/-- R153: a call that has the line goes to CLEARING, and the line opens. -/
theorem InStep.toClearing (h : InStep s0 s)
    (line : LineHeld s0.cct s0.vsw → ∀ r, s.callOf id = some r → r.hasLine = true) : InStep s0 (s.toClearing id) := by
  unfold State.toClearing
  split
  · exact h
  · rename_i r found
    obtain ⟨mem, rfl⟩ := mem_of_callOf found
    have moved : InStep s0 ((s.onCall r.id (clearingOf · s.now)).setLine .releasing) := by
      refine h.lineTaken (fun held => ?_) (fun held => ?_) fun held tests => ?_
      · exact (h.line held).table.edit mem rfl (cleared_kept ((h.line held).table.kept r mem) (line held r found) _)
      · have before := h.line held
        have holding := before.table.countP_edit mem (clearingOf · s.now) CallRec.hasLine
        have ringing := before.table.countP_edit mem (clearingOf · s.now) CallRec.unanswered
        have seized := before.seized mem (line held r found)
        have none := before.serves.ringing
        rw [cleared_hasLine, line held r found, before.serves.holding, seized] at holding
        rw [cleared_unanswered, not_unanswered (line held r found)] at ringing
        rw [seized] at none
        exact ⟨Nat.succ.inj holding, ringing.trans_le none⟩
      · exact tests.elsewhere (by rw [(h.line held).seized mem (line held r found)]; nofun)
    exact .ite moved.signal moved

/-! ### A party leaves -/

theorem callOf_onCall {f : CallRec → CallRec} (same : ∀ r, (f r).id = r.id := by exact fun _ => rfl) :
    (s.onCall id f).callOf id = (s.callOf id).map f := by
  unfold State.callOf State.onCall
  rw [State.onCct_cct, List.find?_map]
  have pred : ((fun c : CallRec => c.id == id) ∘ fun r => if r.id = id then f r else r) = fun c => c.id == id := by
    funext r
    simp only [Function.comp_apply]
    split
    · rw [same]
    · rfl
  rw [pred]
  cases found : s.cct.calls.find? (fun c => c.id == id) with
  | none => rfl
  | some r => simp [show r.id = id by simpa using List.find?_some found]

/-- A call without the line ends with one of its parties leaving it. -/
theorem InStep.leaveAndEnd {e : Endpoint} (h : InStep s0 s)
    (free : LineHeld s0.cct s0.vsw → ∀ r, s.callOf id = some r → r.hasLine = false) : InStep s0 (s.leaveAndEnd id e) := by
  unfold State.leaveAndEnd
  refine h.onCall.removeCall fun held r found => ?_
  rw [callOf_onCall] at found
  obtain ⟨q, own, rfl⟩ := Option.map_eq_some_iff.mp found
  exact free held q own

theorem mem_leaveAndEnd {e : Endpoint} (mem : r ∈ (s.leaveAndEnd id e).cct.calls) : r ∈ s.cct.calls := by
  unfold State.leaveAndEnd at mem
  rw [removeCall_calls] at mem
  obtain ⟨edited, other⟩ := List.mem_filter.mp mem
  obtain ⟨q, hq, rfl⟩ := List.mem_map.mp edited
  by_cases own : q.id = id
  · simp [own] at other
  · rwa [if_neg own]

/-- R153: the call of which a party has left, judged as it was before. -/
def leftBy (id : Nat) (rest : List Party) (c : CallRec) (s : State) : State :=
  match c.kind, c.state with
  | .outside, .active => if rest.isEmpty then s.toClearing id else s
  | .intercom, .setup => s.removeCall id
  | .intercom, .active => if rest.length < 2 then s.removeCall id else s
  | _, _ => s

/-- A record that an endpoint has left, with the parties who stay. -/
def CallRec.leftTo (rest : List Party) (e : Endpoint) (r : CallRec) : CallRec :=
  { r with parties := rest, originator := if r.originator = some e then none else r.originator }

theorem seated_leftTo (rest : List Party) (e : Endpoint) (r : CallRec) : Seated r (CallRec.leftTo rest e r) := by
  refine ⟨rfl, fun kept => ?_, rfl, rfl⟩
  by_cases own : r.originator = some e
  · simp only [CallRec.kept, Bool.and_eq_true] at kept ⊢
    obtain ⟨⟨⟨record, -⟩, guard⟩, incoming⟩ := kept
    exact ⟨⟨⟨record, by rw [CallRec.leftTo, if_pos own]; rfl⟩, guard⟩, incoming⟩
  · simpa [CallRec.kept, CallRec.unanswered, CallRec.leftTo, own] using kept

/-- The parties of a call but one. -/
def others (e : Endpoint) (c : CallRec) : List Party := c.parties.filter fun p => !decide (p.who = e)

theorem leave_station (n : Nat) (found : s.callOf id = some c) : s.leave id (.station n) =
    leftBy id (others (.station n) c) c (s.onCall id (CallRec.leftTo (others (.station n) c) (.station n))) := by
  unfold State.leave
  rw [found]
  rfl

theorem leave_port (p : Port) (found : s.callOf id = some c) : s.leave id (.port p) =
    leftBy id (others (.port p) c) c
      ((s.onCall id (CallRec.leftTo (others (.port p) c) (.port p))).onVsw (Vsw.dropDigits p)) := by
  unfold State.leave
  rw [found]
  rfl

theorem InStep.leftBy {rest : List Party} (h : InStep s0 s)
    (called : ∀ r, s.callOf id = some r → r.kind = c.kind ∧ r.state = c.state) : InStep s0 (leftBy id rest c s) := by
  unfold Standing.leftBy
  split
  · rename_i outside active
    refine .ite (h.toClearing fun _ r found => ?_) h
    obtain ⟨kind, state⟩ := called r found
    exact hasLine_iff.mpr ⟨kind.trans outside, .inl (state.trans active)⟩
  · rename_i intercom setup
    exact h.removeCall fun _ r found => not_hasLine_intercom ((called r found).1.trans intercom)
  · rename_i intercom active
    exact .ite (h.removeCall fun _ r found => not_hasLine_intercom ((called r found).1.trans intercom)) h
  · exact h

theorem InStep.leave {e : Endpoint} (h : InStep s0 s) : InStep s0 (s.leave id e) := by
  cases found : s.callOf id with
  | none =>
    unfold State.leave
    rw [found]
    exact h
  | some c =>
    have seated := h.onCall (id := id) (f := CallRec.leftTo (others e c) e) fun _ r _ _ => seated_leftTo _ e r
    have called (r : CallRec) (own : (s.onCall id (CallRec.leftTo (others e c) e)).callOf id = some r) :
        r.kind = c.kind ∧ r.state = c.state := by
      rw [callOf_onCall, found] at own
      cases own
      exact ⟨rfl, rfl⟩
    cases e with
    | station n =>
      rw [leave_station n found]
      exact seated.leftBy called
    | port p =>
      rw [leave_port p found]
      exact seated.dropDigits.leftBy called

/-! ### A call is held and given on -/

theorem InStep.portHeld {p : Port} (h : InStep s0 s) : InStep s0 (s.portHeld p) := h.onPort
theorem InStep.portConnected {p : Port} {x : Tone} (h : InStep s0 s) : InStep s0 (s.portConnected p x) := h.onPort

/-- R147: an OUTSIDE call that has the line is held. -/
theorem InStep.makeHeld (h : InStep s0 s)
    (line : LineHeld s0.cct s0.vsw → ∀ r ∈ s.cct.calls, r.id = id → r.hasLine = true) : InStep s0 (s.makeHeld id) := by
  unfold State.makeHeld
  split
  · exact h
  · split
    · exact h
    · rename_i o rest _
      have held {t : State} (k : Hold) (ht : InStep s0 t) (same : t.cct.calls = s.cct.calls) : InStep s0 (t.onCall id fun r =>
          { r with
            state := .held, parties := [{ who := o.who, mark := .holder }], rung := none, hold := some k, saved := none }) :=
        ht.onCall fun held r mem own => by
          have had := line held r (same ▸ mem) own
          obtain ⟨outside, state⟩ := hasLine_iff.mp had
          refine ⟨rfl, fun kept => ?_, Eq.trans (hasLine_iff.mpr ⟨outside, .inr rfl⟩) had.symm,
            Eq.trans ?_ (not_unanswered had).symm⟩
          · rcases state with state | state <;> simp_all [CallRec.kept, CallRec.unanswered]
          · simp [CallRec.unanswered]
      have emptied {t : State} (ht : InStep s0 t) :
          InStep s0 (t.onVsw fun v => { v with repeatQueue := [], outpulse := v.outpulse.map (Outpulse.cut t.now) }) :=
        ht.onVsw
      have counted : InStep s0 (s.onCct fun t => { t with nextToken := nextToken s.cct.nextToken }) := h.onCct
      dsimp only
      split
      · exact (emptied (held _ counted rfl).dismissAll).handCall
      · exact (emptied (held _ counted rfl).dismissAll).portHeld

/-- R150: a call that has the line is given to an endpoint. -/
theorem InStep.giveHeld {e : Endpoint} (h : InStep s0 s)
    (line : LineHeld s0.cct s0.vsw → ∀ r ∈ s.cct.calls, r.id = id → r.hasLine = true) : InStep s0 (s.giveHeld id e) := by
  have given : InStep s0 (s.onCall id fun r =>
      { r with
        state := .active, parties := [{ who := e, mark := .connected }], rung := none, hold := none, saved := none
        everConnected := true }) :=
    h.onCall fun held r mem own => by
      have had := line held r mem own
      obtain ⟨outside, state⟩ := hasLine_iff.mp had
      refine ⟨rfl, fun kept => ?_, Eq.trans (hasLine_iff.mpr ⟨outside, .inl rfl⟩) had.symm,
        Eq.trans ?_ (not_unanswered had).symm⟩
      · rcases state with state | state <;> simp_all [CallRec.kept, CallRec.unanswered]
      · simp [CallRec.unanswered]
  unfold State.giveHeld
  cases e with
  | station n => exact given
  | port p => exact given.portConnected.onPort

theorem heldBy_spec {e : Endpoint} (h : s.heldBy e = some c) : c ∈ s.cct.calls ∧ c.state = .held := by
  have spec := List.find?_some h
  simp only [Bool.and_eq_true, decide_eq_true_eq] at spec
  exact ⟨List.mem_of_find?_eq_some h, spec.1⟩

theorem liveCallOf_spec {e : Endpoint} (h : s.liveCallOf e = some c) :
    c ∈ s.cct.calls ∧ (c.state = .setup ∨ c.state = .active) := by
  have spec := List.find?_some h
  simp only [CallRec.isLive, Bool.and_eq_true, Bool.or_eq_true, decide_eq_true_eq] at spec
  exact ⟨List.mem_of_find?_eq_some h, spec.1⟩

/-- R119, R130: a HELD call has the line. -/
theorem LineHeld.held_hasLine (held : LineHeld s.cct s.vsw) (mem : c ∈ s.cct.calls) (state : c.state = .held) :
    c.hasLine = true := hasLine_iff.mpr ⟨kept_held (held.table.kept c mem) state, .inr state⟩

/-- R119: while a call is HELD no other one has the line. -/
theorem LineHeld.live_free (held : LineHeld s.cct s.vsw) (hc : c ∈ s.cct.calls) (state : c.state = .held)
    (hr : r ∈ s.cct.calls) (live : r.state = .setup ∨ r.state = .active) : r.hasLine = false := by
  by_contra line
  rw [Bool.not_eq_false] at line
  have same := held.one_line hc hr (held.held_hasLine hc state) line
  rw [same] at state
  rw [state] at live
  rcases live with live | live <;> exact absurd live (by decide)

theorem LineHeld.of_callOf {p : CallRec → Prop} (held : LineHeld s.cct s.vsw) (mem : c ∈ s.cct.calls) (own : p c) :
    ∀ r, s.callOf c.id = some r → p r := fun r found =>
  held.only mem own r (mem_of_callOf found).1 (mem_of_callOf found).2

theorem InStep.retrieveForPort {p : Port} (h : InStep s0 s) : InStep s0 (s.retrieveForPort p) := by
  unfold State.retrieveForPort
  split
  · rename_i c found
    obtain ⟨mem, state⟩ := heldBy_spec found
    have line (held : LineHeld s0.cct s0.vsw) : ∀ r ∈ s.cct.calls, r.id = c.id → r.hasLine = true :=
      (h.line held).only mem ((h.line held).held_hasLine mem state)
    dsimp only
    split
    · rename_i leg live
      obtain ⟨legMem, legState⟩ := liveCallOf_spec live
      have ended := h.leaveAndEnd (id := leg.id) (e := .port p) fun held =>
        (h.line held).of_callOf legMem ((h.line held).live_free mem state legMem legState)
      exact ended.giveHeld fun held r hr own => line held r (mem_leaveAndEnd hr) own
    · exact h.giveHeld line
  · exact .ite h.onPort h.onPort

theorem transferOf_spec {e : Endpoint} {k : Nat} {p : Party} (h : s.transferOf c e = some (k, p)) :
    c.kind = .intercom ∧ ∃ d, s.heldBy e = some d ∧ d.id = k := by
  unfold State.transferOf at h
  split at h
  · split at h
    · rename_i terms
      obtain ⟨intercom, -, -, offered⟩ := terms
      obtain ⟨q, -, pair⟩ := Option.map_eq_some_iff.mp h
      cases pair
      cases found : s.heldBy e with
      | none =>
        rw [found] at offered
        cases offered
      | some d =>
        rw [found] at offered
        exact ⟨intercom, d, rfl, by simpa using offered⟩
    · cases h
  · cases h

theorem InStep.depart {e : Endpoint} (h : InStep s0 s) : InStep s0 (s.depart id e) := by
  unfold State.depart
  split
  · exact h
  · rename_i c found
    split
    · exact h.leave
    · rename_i k t transfer
      obtain ⟨intercom, d, holds, rfl⟩ := transferOf_spec transfer
      obtain ⟨mem, state⟩ := heldBy_spec holds
      have free (held : LineHeld s0.cct s0.vsw) (r : CallRec) (own : s.callOf id = some r) : r.hasLine = false := by
        cases found.symm.trans own
        exact not_hasLine_intercom intercom
      refine .ite (InStep.giveHeld (InStep.removeCall h.onCall fun held r own => ?_) fun held r hr own => ?_) (h.leaveAndEnd free)
      · rw [callOf_onCall] at own
        obtain ⟨q, found, rfl⟩ := Option.map_eq_some_iff.mp own
        exact free held q found
      · have before := h.line held
        refine before.only (p := fun r => r.hasLine = true) mem (before.held_hasLine mem state) r ?_ own
        rw [removeCall_calls] at hr
        obtain ⟨edited, other⟩ := List.mem_filter.mp hr
        obtain ⟨q, hq, rfl⟩ := List.mem_map.mp edited
        by_cases same : q.id = id
        · simp [same] at other
        · rwa [if_neg same]

/-! ### The recall, and what a grant has set is undone -/

theorem seated_onHold (f : Hold → Hold) (r : CallRec) : Seated r (r.onHold f) := by
  have kept : (r.onHold f).kept = r.kept := by
    rcases r with ⟨_, _, _, _, _, _, _, hold, _, _, _, _, _, _⟩
    cases hold <;> rfl
  exact ⟨rfl, fun x => kept.trans x, rfl, rfl⟩

theorem Seated.trans {q : CallRec} (h : Seated r q) (g : Seated q c) : Seated r c :=
  ⟨g.id.trans h.id, fun x => g.kept (h.kept x), g.hasLine.trans h.hasLine, g.unanswered.trans h.unanswered⟩

theorem seated_rung (e : Option Endpoint) (r : CallRec) : Seated r { r with rung := e } := ⟨rfl, fun x => x, rfl, rfl⟩

theorem InStep.onHold {f : Hold → Hold} (h : InStep s0 s) : InStep s0 (s.onCall id (CallRec.onHold f)) :=
  h.onCall fun _ r _ _ => seated_onHold f r

theorem InStep.recallWaits (h : InStep s0 s) : InStep s0 (s.recallWaits id) :=
  h.onCall fun _ r _ _ => (seated_onHold _ r).trans (seated_rung none _)

theorem InStep.attemptRecall (h : InStep s0 s) : InStep s0 (s.attemptRecall c) := by
  unfold State.attemptRecall
  split
  · exact h
  · exact .ite h.recallWaits (h.onCall fun _ r _ _ => (seated_onHold _ r).trans (seated_rung _ _))

theorem InStep.grant {n tag sent : Nat} (h : InStep s0 s) : InStep s0 (s.grant n tag id sent) := h.onEntry.handCall

theorem InStep.letIn {k : Claimant} {x : Tone} (h : InStep s0 s) : InStep s0 (s.letIn k id x) := by
  cases k with
  | station n tag sent => exact h.grant
  | port p => exact h.portConnected

theorem InStep.portRefused {p : Port} {x : RefuseReason} (h : InStep s0 s) : InStep s0 (s.portRefused p x) := h.onPort

theorem InStep.refuseClaim {k : Claimant} {x : RefuseReason} (h : InStep s0 s) : InStep s0 (s.refuseClaim k x) := by
  cases k with
  | station n tag sent => exact h.refuse
  | port p => exact h.portRefused

/-- R138: what a RETRIEVE kept gives the call back to its holder. -/
theorem InStep.giveBack {f : CallRec → CallRec} (h : InStep s0 s) (found : s.callOf id = some c) (saved : c.saved ≠ none)
    (own : ∀ r, (f r).id = r.id ∧ (f r).kind = r.kind ∧ (f r).state = .held ∧ (f r).saved = none ∧
      (f r).ringTimer = r.ringTimer ∧ (f r).guardTimer = r.guardTimer ∧ (f r).originator = r.originator) :
    InStep s0 (s.onCall id f) :=
  h.onCall fun held r mem same => by
    obtain ⟨place, rfl⟩ := mem_of_callOf found
    cases (h.line held).table.unique mem place same
    have kept := (h.line held).table.kept c mem
    obtain ⟨id, kind, state, unsaved, ring, guard, originator⟩ := own c
    have active : c.kind = .outside ∧ c.state = .active := by
      simp only [CallRec.kept, Bool.and_eq_true] at kept
      obtain ⟨⟨⟨⟨⟨-, stands⟩, -⟩, -⟩, -⟩, -⟩ := kept
      simpa [saved] using stands
    obtain ⟨outside, active⟩ := active
    refine ⟨id, fun kept => ?_, ?_, ?_⟩ <;>
      simp_all [CallRec.kept, CallRec.unanswered, CallRec.hasLine]

theorem InStep.undoGrant {n : Nat} (h : InStep s0 s) : InStep s0 (s.undoGrant n id) := by
  unfold State.undoGrant
  split
  · exact h
  · rename_i c found
    split
    · rename_i k saved
      refine InStep.dismissAll (h.giveBack found (fun none => ?_) fun r => ⟨rfl, rfl, rfl, rfl, rfl, rfl, rfl⟩)
      rw [none] at saved
      split at saved <;> cases saved
    · split
      · rename_i own
        refine h.leaveAndEnd fun _ r same => ?_
        cases found.symm.trans same
        exact not_hasLine_intercom own.1
      · exact h.leave

theorem InStep.withdraw {n : Nat} {a b : Bool} (h : InStep s0 s) : InStep s0 (s.withdraw n a b) := by
  unfold State.withdraw
  split
  · exact h
  · exact
      have released := InStep.ite h.clearExpectation.handCall h.clearExpectation
      (InStep.ite released.protocolFault released).undoGrant

theorem InStep.dropDeferred {n : Nat} (h : InStep s0 s) : InStep s0 (s.dropDeferred n) := h.onCct
theorem InStep.withdrawPortClaim {p : Port} (h : InStep s0 s) : InStep s0 (s.withdrawPortClaim p) := h.onCct.onPort
theorem InStep.takeFrame {n : Nat} (h : InStep s0 s) : InStep s0 (s.takeFrame n) := h.withdraw.dropDeferred

end Sys2Proof.Proofs.Standing
end

section
/-! The survey takes the line and gives it back, and claims take it: what both leave in step (O60). -/

set_option Elab.async false

namespace Sys2Proof.Proofs.Standing

open Sys2Proof Sys2Proof.Machine Sys2Proof.Proofs.Steps Sys2Proof.Proofs.Telling Sys2Proof.Proofs.Calls

variable {s0 s t u : State} {x : LineState} {id : Nat} {r c : CallRec} {k : Claimant}

/-! ### The line is sensed -/

/-- The voice switch changes but for the state of the line. -/
theorem InStep.onLine {f : Vsw → Vsw} (h : InStep s0 s) (timed : LineHeld s0.cct s0.vsw → LineTimed (f s.vsw))
    (line : (f s.vsw).line = s.vsw.line := by rfl) (episodes : (f s.vsw).episodes = s.vsw.episodes := by rfl) :
    InStep s0 (s.onVsw f) where
  link := h.link
  line held := ⟨(h.line held).table, timed held, by rw [State.onVsw_vsw, line]; exact (h.line held).serves⟩
  tested held tests := by
    rw [State.onVsw_vsw, line]
    exact h.tested held tests
  rings := by
    rw [State.onVsw_vsw, episodes]
    exact h.rings

theorem InStep.senseVoltage (h : InStep s0 s) : InStep s0 s.senseVoltage := by
  unfold State.senseVoltage
  refine h.onLine fun held => ?_
  obtain ⟨-, -, ringEnd, burstOff, burst, release⟩ := (h.line held).timed
  refine ⟨fun runs => ?_, fun runs => ?_, ringEnd, burstOff, burst, release⟩
  · have judged := holdTimer_runs runs
    simp only [Bool.and_eq_true, Bool.or_eq_true, decide_eq_true_eq] at judged
    exact judged.1.2
  · have judged := holdTimer_runs runs
    simp only [Bool.and_eq_true, decide_eq_true_eq] at judged
    exact judged.1.2

theorem InStep.senseRinging (h : InStep s0 s) : InStep s0 s.senseRinging := by
  unfold State.senseRinging
  refine h.onLine fun held => ?_
  obtain ⟨offHook, onHook, ringEnd, -, burst, release⟩ := (h.line held).timed
  exact ⟨offHook, onHook, ringEnd, fun runs => burst ((Bool.and_eq_true _ _).mp (holdTimer_runs runs)).1, burst, release⟩

/-! ### The survey -/

/-- The survey changes its stage or its restore time. -/
theorem InStep.onStage {f : Lth → Lth} (h : InStep s0 s)
    (tested : LineHeld s0.cct s0.vsw → Tested s0.lth s0.vsw.line → Tested (f s.lth) s.vsw.line) :
    InStep s0 (s.onLth f) := ⟨h.link, h.line, tested, h.rings⟩

/-- The survey goes to a stage in which no item runs. -/
theorem InStep.idles {f : Lth → Lth} (h : InStep s0 s) (stage : ∀ i, (f s.lth).stage ≠ .item i)
    (restore : (f s.lth).restoreTimer = s.lth.restoreTimer := by rfl) : InStep s0 (s.onLth f) :=
  h.onStage fun held tests =>
    ⟨by rw [restore]; exact (h.tested held tests).restore, fun i item => absurd item (stage i)⟩

theorem Linked.writeEntry {i : Item} {y : ItemStatus} {z : Option ItemResult} (h : Linked s0 s) :
    Linked s0 (s.writeEntry i y z) := h.onLth (by cases i <;> rfl) (by cases i <;> rfl)

theorem Linked.onRunning {f : Survey → Survey} (h : Linked s0 s) : Linked s0 (s.onRunning f) := h.onLth

theorem InStep.writeEntry {i : Item} {y : ItemStatus} {z : Option ItemResult} (h : InStep s0 s) :
    InStep s0 (s.writeEntry i y z) := h.linked (Linked.refl s).writeEntry

theorem InStep.onRunning {f : Survey → Survey} (h : InStep s0 s) : InStep s0 (s.onRunning f) := h.onLth

theorem hushed_answerSurvey (r : Survey) (s : State) : Hushed s (s.answerSurvey r) := by
  have first : Hushed s (match r.originator with
      | some n => s.handRoutine (r.originatorFrame n)
      | none => s) := by
    split
    · exact hushed_handRoutine _ s
    · exact .refl s
  exact first.trans (.foldl (fun _ _ => hushed_handRoutine _ _) _ _)

theorem InStep.startSurvey {r : Survey} (h : InStep s0 s) : InStep s0 (s.startSurvey r) :=
  .ite h.onLth.writeEntry.onRunning h.onLth

theorem InStep.finishSurvey {r : Survey} (h : InStep s0 s) : InStep s0 (s.finishSurvey r) :=
  (h.idles (f := fun l => { l with running := none, stage := .none, waitTimer := none }) nofun).tell (hushed_answerSurvey _ _)

theorem InStep.continueSurvey (fuel : Nat) (h : InStep s0 s) : InStep s0 (State.continueSurvey fuel s) := by
  induction fuel generalizing s with
  | zero => exact h
  | succ fuel ih =>
    unfold State.continueSurvey
    split
    · exact h.idles nofun
    · refine .ite (h.idles nofun) (.ite (h.idles nofun) ?_)
      dsimp only
      split
      · exact h.finishSurvey
      · exact ih h.finishSurvey.onLth.startSurvey

/-- Neither an item nor the restore time runs. -/
structure AtRest (l : Lth) : Prop where
  restore : l.restoreTimer = none
  stage : ∀ i, l.stage ≠ .item i

theorem AtRest.tested {l : Lth} (h : AtRest l) (x : LineState) : Tested l x :=
  ⟨fun runs => absurd h.restore runs, fun i item => absurd item (h.stage i)⟩

theorem startSurvey_rest (r : Survey) (h : AtRest s.lth) : AtRest (s.startSurvey r).lth := by
  unfold State.startSurvey
  dsimp only
  split <;> exact ⟨h.restore, h.stage⟩

theorem finishSurvey_rest (r : Survey) (h : s.lth.restoreTimer = none) : AtRest (s.finishSurvey r).lth := by
  have told := Aside.of_told (hushed_answerSurvey r
    (s.onLth fun l => { l with running := none, stage := .none, waitTimer := none })).frame
  exact ⟨told.restore.trans h, fun i item => nomatch told.stage.symm.trans item⟩

theorem continueSurvey_stays (fuel : Nat) (h : AtRest s.lth) : AtRest (State.continueSurvey fuel s).lth := by
  induction fuel generalizing s with
  | zero => exact h
  | succ fuel ih =>
    unfold State.continueSurvey
    split
    · exact ⟨h.restore, nofun⟩
    · split
      · exact ⟨h.restore, nofun⟩
      · split
        · exact ⟨h.restore, nofun⟩
        · dsimp only
          have ended := finishSurvey_rest (Survey.endAll (Survey.remaining ‹Survey›) ‹Survey›) h.restore
          split
          · exact ended
          · exact ih (startSurvey_rest _ ⟨ended.restore, ended.stage⟩)

/-- Where the survey goes on once the restore time is over, no item runs. -/
theorem continueSurvey_rest (fuel : Nat) (h : s.lth.restoreTimer = none) :
    AtRest (State.continueSurvey (fuel + 1) s).lth := by
  unfold State.continueSurvey
  split
  · exact ⟨h, nofun⟩
  · split
    · exact ⟨h, nofun⟩
    · split
      · exact ⟨h, nofun⟩
      · dsimp only
        have ended := finishSurvey_rest (Survey.endAll (Survey.remaining ‹Survey›) ‹Survey›) h
        split
        · exact ended
        · exact continueSurvey_stays _ (startSurvey_rest _ ⟨ended.restore, ended.stage⟩)

theorem InStep.beginItem {i : Item} (h : InStep s0 s)
    (test : LineHeld s0.cct s0.vsw → Tested s0.lth s0.vsw.line → s.vsw.line = .test) : InStep s0 (s.beginItem i) :=
  h.onStage fun held tests => ⟨fun _ => test held tests, fun _ _ => test held tests⟩

/-- R164: a phase takes an IDLE or an OUT line. -/
theorem InStep.beginVoltage {i : Item} (h : InStep s0 s) (free : s.vsw.line = .idle ∨ s.vsw.line = .out) :
    InStep s0 (s.beginVoltage i) :=
  (h.onLth.setUnclaimed (x := .test) fun _ => by rcases free with line | line <;> rw [State.onLth_vsw, line] <;> decide).beginItem
    fun _ _ => setLine_line _ _

theorem InStep.beginMetallic {b : Bool} {i : Item} (h : InStep s0 s) (free : s.vsw.line = .idle ∨ s.vsw.line = .out) :
    InStep s0 (s.beginMetallic b i) := by
  have held : Linked s (if b then (s.addHolder .survey).onLth fun l => { l with holderAdded := true } else s) :=
    .ite (Linked.refl s).addHolder.onLth (Linked.refl s)
  refine ((h.linked held).onLth.setUnclaimed (x := .test) fun _ => ?_).beginItem fun _ _ => setLine_line _ _
  rw [State.onLth_vsw, held.vsw]
  rcases free with line | line <;> rw [line] <;> decide

theorem InStep.endPhase (h : InStep s0 s) (item : ∃ i, s.lth.stage = .item i) : InStep s0 s.endPhase := by
  obtain ⟨i, item⟩ := item
  have ended : InStep s0 (s.onLth fun l =>
      { l with stage := .restoring, relay := .rest, itemTimer := none, restoreTimer := some (s.now + Config.restoreMs) }) :=
    h.onStage fun held tests => ⟨fun _ => (h.tested held tests).item i item, nofun⟩
  refine .ite ?_ ended
  have attempted := ended.linked (Linked.refl _).heldAttempt
  exact .ite (attempted.linked (Linked.refl _).removeHolder).onLth attempted

theorem InStep.nextInPhase {i : Item} (h : InStep s0 s) (item : s.lth.stage = .item i) : InStep s0 (s.nextInPhase i) := by
  unfold State.nextInPhase
  split
  · exact h.beginItem fun held tests => (h.tested held tests).item i item
  · exact h.endPhase ⟨i, item⟩

theorem InStep.abortSurvey (h : InStep s0 s) : InStep s0 s.abortSurvey := by
  unfold State.abortSurvey
  split
  · rename_i i item
    have written := (Linked.refl s).writeEntry (i := i) (y := .aborted) (z := none)
    exact (h.writeEntry.onRunning.endPhase ⟨i, written.stage.trans item⟩).onLth
  · exact h

theorem InStep.completeItem {i : Item} {y : LoopReadings} (h : InStep s0 s) (item : s.lth.stage = .item i) :
    InStep s0 (s.completeItem i y) := by
  have due (l : Lth) : (Lth.clearDue i l).stage = l.stage ∧ (Lth.clearDue i l).restoreTimer = l.restoreTimer := by
    cases i <;> exact ⟨rfl, rfl⟩
  have cleared : Linked s (((s.writeEntry i (measure i y).1 (measure i y).2).onRunning
      (Survey.endItem i (measure i y).1)).onLth (Lth.clearDue i)) :=
    (Linked.refl s).writeEntry.onRunning.onLth (due _).1 (due _).2
  exact (h.linked cleared.judgeItem).nextInPhase (cleared.judgeItem.stage.trans item)

theorem InStep.takeTest {n : Nat} {l : List Item} {b : Bool} (h : InStep s0 s) : InStep s0 (s.takeTest n l b) := by
  unfold State.takeTest
  refine .ite h.refuse (.ite h.writeEntry.handRoutine (.ite h ?_))
  split
  · exact h.startSurvey.continueSurvey 2
  · refine .ite h.onRunning ?_
    split
    · exact h.onLth
    · exact .ite h.onLth h.refuse

/-! ### Grants -/

theorem freeCallId_range (used : List Nat) (fuel : Nat) {n : Nat} (range : 1 ≤ n ∧ n ≤ 255) :
    1 ≤ freeCallId used fuel n ∧ freeCallId used fuel n ≤ 255 := by
  induction fuel generalizing n with
  | zero => exact range
  | succ fuel ih =>
    unfold freeCallId
    split
    · exact ih (by unfold nextCallId; split <;> omega)
    · exact range

theorem nextCallId_range {n : Nat} (range : 1 ≤ n ∧ n ≤ 255) : 1 ≤ nextCallId n ∧ nextCallId n ≤ 255 := by
  unfold nextCallId
  split <;> omega

theorem TableHeld.newId {c : Cct} (h : TableHeld c) : 1 ≤ c.newId ∧ c.newId ≤ 255 := freeCallId_range _ _ h.next

/-- R131: a record under the new id joins the table. -/
theorem TableHeld.add {c : Cct} (h : TableHeld c) (room : c.calls.length < 4) (own : r.id = c.newId)
    (kept : 1 ≤ r.id ∧ r.id ≤ 255 → r.kept = true) :
    TableHeld { c with calls := c.calls ++ [r], nextCallId := nextCallId r.id } := by
  have range : 1 ≤ r.id ∧ r.id ≤ 255 := own ▸ h.newId
  refine ⟨?_, fun q hq => ?_, nextCallId_range range, by simpa using room⟩
  · have fresh := Rules.newCallIdIsFree c h.room
    rw [List.map_append, List.map_singleton, List.nodup_append]
    refine ⟨h.ids, List.nodup_singleton _, fun a ha b hb same => fresh ?_⟩
    rw [← own, ← List.mem_singleton.mp hb, ← same]
    exact ha
  · rcases List.mem_append.mp hq with old | new
    · exact h.kept q old
    · rw [List.mem_singleton.mp new]
      exact kept range

theorem room_of_tableFull (room : s.tableFull = false) : s.cct.calls.length < 4 := Nat.not_le.mp (of_decide_eq_false room)

/-- R131: a record is created that the state of the line allows. -/
theorem InStep.addCall (h : InStep s0 s) (room : s.tableFull = false) (own : r.id = s.cct.newId)
    (kept : 1 ≤ r.id ∧ r.id ≤ 255 → r.kept = true)
    (serves : LineHeld s0.cct s0.vsw → r.hasLine = false ∧ (r.unanswered = true → s.vsw.line = .ringIn ∧
      s.cct.calls.countP CallRec.unanswered = 0)) : InStep s0 (s.addCall r) := by
  refine ⟨h.link, fun held => ?_, h.tested, h.rings⟩
  have before := h.line held
  obtain ⟨free, rings⟩ := serves held
  refine ⟨before.table.add (room_of_tableFull room) own kept, before.timed, ?_, ?_⟩
  · show (s.cct.calls ++ [r]).countP _ = _
    rw [List.countP_append, List.countP_singleton, free]
    exact before.serves.holding
  · show (s.cct.calls ++ [r]).countP _ ≤ _
    rw [List.countP_append, List.countP_singleton]
    cases unanswered : r.unanswered with
    | false => exact before.serves.ringing
    | true =>
      obtain ⟨line, none⟩ := rings unanswered
      rw [none]
      exact (if_pos line).ge

theorem fresh_kept {n : Nat} {o : CallOrigin} {a : CallState} {l : List Party} (state : a = .active ∨ a = .setup)
    (origin : a = .setup → o = .incoming) (range : 1 ≤ n ∧ n ≤ 255) : (CallRec.fresh n .outside o a l).kept = true := by
  rcases state with rfl | rfl <;> simp_all [CallRec.kept, CallRec.fresh, CallRec.unanswered]

/-- R139: the call that is granted has the line from the start. -/
theorem InStep.grantOutside (h : InStep s0 s) (line : s.vsw.line = .idle) (free : s.outsideTest k = none) :
    InStep s0 (s.grantOutside k) := by
  have room := tableFull_of_outsideTest free
  refine InStep.letIn (h.lineTaken (fun held => ?_) (fun held => ?_) fun held tests => tests.elsewhere (by rw [line]; nofun))
  · exact (h.line held).table.add (room_of_tableFull room) rfl (fresh_kept (.inl rfl) nofun)
  · have before := (h.line held).serves
    rw [line] at before
    refine ⟨?_, ?_⟩
    · simpa [CallRec.fresh, CallRec.hasLine] using before.holding
    · simpa [CallRec.fresh, CallRec.unanswered] using before.ringing

theorem InStep.markCoAnswer {p : Port} (h : InStep s0 s) : InStep s0 (s.markCoAnswer p id) := h.onVsw

/-- R141: the incoming call is answered, and has the line from then on. -/
theorem InStep.answered {f : CallRec → CallRec} (h : InStep s0 s) (mem : r ∈ s.cct.calls) (rings : r.unanswered = true)
    (own : (f r).id = r.id) (answered : (f r).hasLine = true) (kept : r.kept = true → (f r).kept = true) :
    InStep s0 ((s.onCall r.id f).setLine .seized) := by
  refine h.lineTaken (fun held => ?_) (fun held => ?_) fun held tests => ?_
  · exact (h.line held).table.edit mem own (kept ((h.line held).table.kept r mem))
  · have before := h.line held
    have holding := before.table.countP_edit mem f CallRec.hasLine
    have ringing := before.table.countP_edit mem f CallRec.unanswered
    have one := before.serves.ringing
    have line := before.ringIn mem rings
    have apart : r.hasLine = false := by
      by_contra has
      rw [not_unanswered (Bool.not_eq_false _ ▸ has)] at rings
      cases rings
    rw [answered, apart, before.serves.holding, line] at holding
    rw [not_unanswered answered, rings] at ringing
    rw [line] at one
    exact ⟨holding, Nat.le_of_succ_le_succ (ringing.trans_le one)⟩
  · exact tests.elsewhere (by rw [(h.line held).ringIn mem rings]; nofun)

/-- The incoming call as its answer makes it. -/
def answeredBy (k : Claimant) (r : CallRec) : CallRec :=
  { r with
    state := .active, parties := [k.party], everConnected := r.everConnected || decide (k.party.mark = .connected) }

theorem InStep.grantAnswer (h : InStep s0 s) (mem : r ∈ s.cct.calls) (rings : r.unanswered = true) :
    InStep s0 (s.grantAnswer k r.id) := by
  obtain ⟨outside, setup⟩ := unanswered_iff.mp rings
  have line : (answeredBy k r).hasLine = true := hasLine_iff.mpr ⟨outside, .inl rfl⟩
  have kept (was : r.kept = true) : (answeredBy k r).kept = true := by
    simp_all [CallRec.kept, CallRec.unanswered, answeredBy]
  unfold State.grantAnswer
  cases k with
  | station n tag sent => exact InStep.letIn (h.answered mem rings rfl line kept)
  | port p => exact InStep.letIn (h.markCoAnswer.answered mem rings rfl line kept)

theorem InStep.answerIncoming (h : InStep s0 s) (mem : r ∈ s.cct.calls) (rings : r.unanswered = true) :
    InStep s0 (s.answerIncoming k r.id) := by
  unfold State.answerIncoming
  split
  · exact h.refuseClaim
  · exact h.grantAnswer mem rings

theorem incomingCall_spec (h : s.incomingCall = some r) : r ∈ s.cct.calls ∧ r.unanswered = true := by
  have spec := List.find?_some h
  simp only [Bool.and_eq_true, decide_eq_true_eq] at spec
  exact ⟨List.mem_of_find?_eq_some h, unanswered_iff.mpr ⟨spec.1.1, spec.2⟩⟩

theorem InStep.grantJoin (h : InStep s0 s) : InStep s0 (s.grantJoin k id) := by
  unfold State.grantJoin
  exact h.onCall.letIn

theorem InStep.joinCall (h : InStep s0 s) (mem : r ∈ s.cct.calls) : InStep s0 (s.joinCall k r) := by
  unfold State.joinCall
  split
  · exact h.refuseClaim
  · split
    · rename_i ringing
      simp only [Bool.and_eq_true, decide_eq_true_eq] at ringing
      exact h.answerIncoming mem (unanswered_iff.mpr ⟨ringing.1.2, ringing.2⟩)
    · split
      · exact h.refuseClaim
      · exact h.grantJoin

theorem InStep.decideJoin (h : InStep s0 s) : InStep s0 (s.decideJoin k id) := by
  unfold State.decideJoin
  dsimp only
  split
  · exact h.refuseClaim
  · rename_i r named
    refine h.joinCall ?_
    split at named
    · exact List.mem_of_find?_eq_some named
    · exact (mem_of_callOf named).1

theorem InStep.answerIntercom (h : InStep s0 s) (mem : r ∈ s.cct.calls) (intercom : r.kind = .intercom)
    (setup : r.state = .setup) : InStep s0 (s.answerIntercom k r) := by
  have answered : InStep s0 (s.onCall r.id fun r =>
      { r with
        state := .active, parties := r.parties ++ [k.party], rung := none, ringTimer := none
        everConnected := r.everConnected || decide (k.party.mark = .connected) }) :=
    h.onCall fun held q hq own => by
      cases (h.line held).table.unique hq mem own
      refine ⟨rfl, fun kept => ?_, ?_, ?_⟩ <;> simp_all [CallRec.kept, CallRec.unanswered, CallRec.hasLine]
  unfold State.answerIntercom
  refine .ite h.refuseClaim ?_
  dsimp only
  split
  · exact answered.letIn.onPort
  · exact answered.letIn

theorem InStep.answerCall (h : InStep s0 s) (mem : r ∈ s.cct.calls) : InStep s0 (s.answerCall k r) := by
  unfold State.answerCall
  split
  · exact h.refuseClaim
  · rename_i outside setup
    exact h.answerIncoming mem (unanswered_iff.mpr ⟨outside, setup⟩)
  · exact h.joinCall mem
  · rename_i intercom setup
    exact .ite (h.answerIntercom mem intercom setup) h.refuseClaim
  · rename_i outside held
    have line : r.hasLine = true := hasLine_iff.mpr ⟨outside, .inr held⟩
    cases k with
    | station n tag sent => exact h.refuseClaim
    | port p => exact .ite (h.giveHeld fun held => (h.line held).only mem line) h.refuseClaim
  · exact h.refuseClaim

theorem InStep.decideAnswer (h : InStep s0 s) : InStep s0 (s.decideAnswer k id) := by
  unfold State.decideAnswer
  split
  · split
    · rename_i r incoming
      obtain ⟨mem, rings⟩ := incomingCall_spec incoming
      exact h.answerIncoming mem rings
    · refine .ite h.refuseClaim ?_
      split
      · rename_i r found
        exact h.joinCall (List.mem_of_find?_eq_some found)
      · exact h.refuseClaim
  · split
    · exact h.refuseClaim
    · rename_i r found
      exact h.answerCall (mem_of_callOf found).1

theorem InStep.defer140 (h : InStep s0 s) : InStep s0 (s.defer140 k) := .ite h.abortSurvey.onCct h.abortSurvey.refuseClaim

theorem InStep.decideOutside (h : InStep s0 s) : InStep s0 (s.decideOutside k) := by
  unfold State.decideOutside
  split
  · split
    · exact h.refuseClaim
    · exact h.grantOutside ‹_› ‹_›
  · split
    · rename_i r incoming
      obtain ⟨mem, rings⟩ := incomingCall_spec incoming
      exact h.answerIncoming mem rings
    · exact h.refuseClaim
  · exact h.defer140
  · exact h.refuseClaim
  · exact h.refuseClaim

theorem InStep.placeIntercom {e : Endpoint} (h : InStep s0 s) (free : s.intercomTest k e = none) :
    InStep s0 (s.placeIntercom k e) := by
  have placed {o : Option Nat} : InStep s0 (s.addCall
      { CallRec.fresh s.cct.newId .intercom .outgoing .setup [k.party] with
        rung := some e, offer := o, ringTimer := some (s.now + Config.intercomRingMs)
        originator := some k.endpoint, target := some e }) := by
    refine h.addCall (tableFull_of_intercomTest free) rfl (fun range => ?_) fun _ => ⟨rfl, nofun⟩
    simpa [CallRec.kept, CallRec.fresh, CallRec.unanswered] using range
  unfold State.placeIntercom
  dsimp only
  split
  · exact placed.letIn
  · split
    · exact placed.letIn.onHold.handCall
    · exact placed.letIn.onHold

theorem InStep.decideIntercom {e : Endpoint} (h : InStep s0 s) : InStep s0 (s.decideIntercom k e) := by
  unfold State.decideIntercom
  split
  · exact h.refuseClaim
  · exact h.placeIntercom ‹_›

theorem retrieveTest_held {n token : Nat} (free : s.retrieveTest n token r = none) : r.state = .held := by
  unfold State.retrieveTest at free
  split at free
  · cases free
  · rename_i terms
    exact Decidable.not_not.mp fun other => terms (.inl other)

theorem InStep.decideRetrieve {n tag token : Nat} (h : InStep s0 s) : InStep s0 (s.decideRetrieve n tag id token) := by
  unfold State.decideRetrieve
  split
  · exact h.refuse
  · rename_i c found
    refine .ite h.refuse ?_
    split
    · exact h.refuse
    · rename_i free
      obtain ⟨mem, rfl⟩ := mem_of_callOf found
      have state := retrieveTest_held free
      refine InStep.grant (h.onCall fun held q hq own => ?_)
      cases (h.line held).table.unique hq mem own
      have outside := kept_held ((h.line held).table.kept _ mem) state
      refine ⟨rfl, fun kept => ?_, ?_, ?_⟩ <;> simp_all [CallRec.kept, CallRec.unanswered, CallRec.hasLine]

theorem InStep.decideDeferred (h : InStep s0 s) : InStep s0 s.decideDeferred :=
  InStep.foldl (fun _ _ hs => hs.decideOutside) _ h.onCct

end Sys2Proof.Proofs.Standing
end

section
/-! The line and the call table stay in step as ringing comes and goes, as the feed goes and returns, as stations fall
silent, and over all that the house ports do (O60). -/

set_option Elab.async false

namespace Sys2Proof.Proofs.Standing

open Sys2Proof Sys2Proof.Machine Sys2Proof.Proofs.Steps Sys2Proof.Proofs.Telling Sys2Proof.Proofs.Calls

variable {s0 s t u : State} {x : LineState} {id : Nat} {r c : CallRec} {k : Claimant}

/-! ### Ringing on the line -/

theorem InStep.ringStart (h : InStep s0 s)
    (quiet : LineHeld s0.cct s0.vsw → s.vsw.line = .ringIn ∧ s.cct.calls.countP CallRec.unanswered = 0) :
    InStep s0 s.ringStart := by
  unfold State.ringStart
  split
  · exact h.signal
  · rename_i room
    exact h.addCall (by simpa only [Bool.not_eq_true] using room) rfl (fresh_kept (.inr rfl) fun _ => rfl) fun held =>
      ⟨rfl, fun _ => quiet held⟩

theorem InStep.burstBegins (h : InStep s0 s) (line : LineHeld s0.cct s0.vsw → s.vsw.line = .ringIn) :
    InStep s0 s.burstBegins := by
  refine InStep.senseRinging (h.onLine fun held => ?_)
  have timed := (h.line held).timed
  exact { timed with ringEnd := fun runs => absurd rfl runs, burst := fun _ => line held }

theorem InStep.takeBurst (h : InStep s0 s) : InStep s0 s.takeBurst := by
  unfold State.takeBurst
  split
  · rename_i idle
    have entered := h.setUnclaimed (x := .ringIn) fun _ => by rw [idle]; decide
    refine (entered.burstBegins fun _ => setLine_line _ _).ringStart fun held => ⟨setLine_line _ _, ?_⟩
    have none := (h.line held).serves.ringing
    rw [idle] at none
    show (s.setLine .ringIn).cct.calls.countP _ = 0
    rw [setLine_cct]
    exact Nat.le_zero.mp none
  · rename_i ringIn
    exact h.burstBegins fun _ => ringIn
  · exact h

theorem callOf_of_mem (mem : r ∈ s.cct.calls) : s.callOf r.id ≠ none := fun none => by
  simpa using List.find?_eq_none.mp none r mem

/-- R154: an unanswered call is an incoming one, so that a table without an incoming call has none. -/
theorem LineHeld.none_unanswered (held : LineHeld s.cct s.vsw) (none : s.incomingCall = none) :
    s.cct.calls.countP CallRec.unanswered = 0 := by
  refine List.countP_eq_zero.mpr fun r mem rings => ?_
  have kept := held.table.kept r mem
  obtain ⟨outside, setup⟩ := unanswered_iff.mp rings
  simp only [CallRec.kept, Bool.and_eq_true] at kept
  have incoming := kept.2
  rw [rings] at incoming
  have found := List.find?_eq_none.mp none r mem
  simp_all

/-- The line leaves RING_IN, and the call that rang is gone with it. -/
theorem InStep.ringLost (h : InStep s0 s) (ringIn : s.vsw.line = .ringIn) (seized : x ≠ .seized) (mem : c ∈ s.cct.calls)
    (rings : c.unanswered = true) :
    InStep s0 ((s.setLine x).onCct fun t => { t with calls := t.calls.filter fun r => r.id != c.id }) where
  link held := (h.link held).setLine x
  line held := by
    have before := h.line held
    have holding := before.table.countP_removed mem CallRec.hasLine
    have ringing := before.table.countP_removed mem CallRec.unanswered
    have one := before.serves.ringing
    rw [before.serves.holding, ringIn] at holding
    rw [rings] at ringing
    rw [ringIn] at one
    refine ⟨?_, before.timed.setLine x, ?_, ?_⟩
    · rw [State.onCct_cct, setLine_cct]
      exact before.table.filter _
    · rw [State.onCct_cct, setLine_cct, State.onCct_vsw, setLine_line, if_neg seized]
      exact Nat.eq_zero_of_add_eq_zero_right holding
    · rw [State.onCct_cct, setLine_cct]
      have none := Nat.le_of_succ_le_succ (ringing.trans_le one)
      exact none.trans (Nat.zero_le _)
  tested held tests := by
    rw [State.onCct_vsw, setLine_line]
    exact Tested.setLine ((h.tested held tests).elsewhere (by rw [ringIn]; nofun))
  rings := by
    rw [State.onCct_vsw, (relines_setLine x s).episodes]
    exact h.rings

/-- R122: RING_IN ends without an answer. -/
theorem InStep.endRinging (h : InStep s0 s) (line : LineHeld s0.cct s0.vsw → s.vsw.line ≠ .seized ∧ s.vsw.line ≠ .test)
    (other : x ≠ .seized := by nofun) : InStep s0 (s.endRinging x) := by
  unfold State.endRinging
  split
  · rename_i ringIn
    have same : (s.setLine x).incomingCall = s.incomingCall := by
      unfold State.incomingCall
      rw [setLine_cct]
    unfold State.ringEnd
    rw [same]
    split
    · rename_i none
      refine h.setLine (fun held => ⟨?_, ?_⟩) fun held tests => tests.elsewhere (line held).2
      · rw [if_neg other, (h.line held).serves.holding, if_neg (line held).1]
      · rw [(h.line held).none_unanswered none]
        exact Nat.zero_le _
    · rename_i c incoming
      obtain ⟨mem, rings⟩ := incomingCall_spec incoming
      unfold State.removeCall
      split
      · rename_i none
        exact absurd none (callOf_of_mem (by rw [setLine_cct]; exact mem))
      · exact (InStep.dismissAll (h.ringLost ringIn other mem rings)).signal
  · rename_i away
    exact h.setUnclaimed (fun held => ⟨(line held).1, away, (line held).2⟩) other

theorem restingLine_ne (s : State) : s.restingLine ≠ .seized := by
  unfold State.restingLine
  split <;> nofun

theorem InStep.handOverLine (h : InStep s0 s) : InStep s0 s.handOverLine := by
  unfold State.handOverLine
  split
  · rename_i line _
    exact h.setUnclaimed fun _ => by rw [line]; decide
  · rename_i line _
    exact h.setUnclaimed fun _ => by rw [line]; decide
  · rename_i line _
    exact h.endRinging fun _ => by rw [line]; decide
  · rename_i line _
    exact h.setUnclaimed fun _ => by rw [line]; decide
  · exact h

theorem InStep.feedStands (h : InStep s0 s) : InStep s0 s.feedStands := .ite h.onVsw h.onVsw.makeInactive.handOverLine

/-! ### A station falls silent -/

/-- Calls without the line are removed one after the other. -/
theorem InStep.removeCalls {l : List CallRec} (h : InStep s0 s)
    (free : LineHeld s0.cct s0.vsw → ∀ c ∈ l, ∀ r ∈ s.cct.calls, r.id = c.id → r.hasLine = false) :
    InStep s0 (l.foldl (fun s c => s.removeCall c.id) s) := by
  induction l generalizing s with
  | nil => exact h
  | cons c l ih =>
    refine ih (h.removeCall fun held r found => ?_) fun held d mem r hr => ?_
    · obtain ⟨place, same⟩ := mem_of_callOf found
      exact free held c List.mem_cons_self r place same
    · rw [removeCall_calls] at hr
      exact free held d (List.mem_cons_of_mem _ mem) r (List.mem_of_mem_filter hr)

/-- R155: the intercoms that ring a station end. -/
theorem InStep.ringsEnd {p : CallRec → Bool} (h : InStep s0 s) (intercom : ∀ r, p r = true → r.kind = .intercom) :
    InStep s0 ((s.cct.calls.filter p).foldl (fun s c => s.removeCall c.id) s) :=
  h.removeCalls fun held c mem r hr same => by
    obtain ⟨place, rings⟩ := List.mem_filter.mp mem
    exact (h.line held).only (p := fun r => r.hasLine = false) place (not_hasLine_intercom (intercom c rings)) r hr same

theorem InStep.stationGone {n : Nat} {x : Option GrantExpectation} (h : InStep s0 s) :
    InStep s0 (s.stationGone n x) := by
  have undone : InStep s0 (match x with | some g => s.undoGrant n g.callId | none => s) := by
    cases x with
    | some g => exact h.undoGrant
    | none => exact h
  unfold State.stationGone
  dsimp only
  refine InStep.ringsEnd ?_ fun r rings => ?_
  rotate_left
  · simp only [Bool.and_eq_true, decide_eq_true_eq] at rings
    exact rings.1.1
  split
  · exact undone.dropDeferred.onCct.leave
  · exact undone.dropDeferred.onCct

theorem InStep.portClaim {p : Port} {f : State → State} (h : InStep s0 s) (hf : InStep s0 (f s)) :
    InStep s0 (s.portClaim p f) :=
  InStep.ite h hf

theorem InStep.portOutside {p : Port} (h : InStep s0 s) : InStep s0 (s.portOutside p) :=
  h.onPort.portClaim h.onPort.decideOutside

theorem InStep.awaitDecision {p : Port} (h : InStep s0 s) : InStep s0 (s.awaitDecision p) := h.onPort

theorem InStep.offHookCases {p : Port} {b : Bool} (h : InStep s0 s) : InStep s0 (s.offHookCases p b) := by
  have awaiting := h.awaitDecision (p := p)
  unfold State.offHookCases
  split
  · rename_i c target
    have mem : c ∈ (s.awaitDecision p).cct.calls := by
      cases p <;> exact List.mem_of_find?_eq_some target
    exact InStep.ite (awaiting.answerCall mem) (awaiting.portClaim (awaiting.answerCall mem))
  · exact InStep.ite (awaiting.portClaim awaiting.decideAnswer) <|
      InStep.ite (awaiting.portClaim awaiting.decideAnswer) <|
        InStep.ite (awaiting.portClaim awaiting.decideOutside) (h.onPort)

theorem InStep.watchCurrent {p : Port} (h : InStep s0 s) : InStep s0 (s.watchCurrent p) := by
  unfold State.watchCurrent
  exact h.onPort

theorem InStep.takeOffHook {p : Port} (h : InStep s0 s) : InStep s0 (s.takeOffHook p) :=
  h.abortSurvey.onPort.offHookCases.watchCurrent

theorem InStep.lapseWindow {p : Port} (h : InStep s0 s) : InStep s0 (s.lapseWindow p) := by
  unfold State.lapseWindow
  split
  · exact h
  · exact InStep.ite h h.onPort
  · exact InStep.ite h h.onPort.retrieveForPort

theorem InStep.firstDigit {p : Port} {d : Option Nat} (h : InStep s0 s) : InStep s0 (s.firstDigit p d) := by
  unfold State.firstDigit
  split
  · exact h
  · exact InStep.ite (h.onPort.onPort) <| InStep.ite h.onPort.retrieveForPort <|
      InStep.ite h.onPort.portOutside h.onPort.onPort

theorem InStep.collectDigit {p : Port} {d : Option Nat} (h : InStep s0 s) : InStep s0 (s.collectDigit p d) := by
  unfold State.collectDigit
  refine InStep.ite h ?_
  split
  · exact h.onPort
  · exact h.onPort
  · split
    · exact h.onPort
    · exact h.onPort.portClaim h.onPort.decideIntercom

theorem InStep.takeDigit {p : Port} {d : Option Nat} (h : InStep s0 s) : InStep s0 (s.takeDigit p d) := by
  unfold State.takeDigit
  split
  · exact h.firstDigit
  · exact h.collectDigit
  · exact h

theorem InStep.beginOutpulse {f : Vsw → Vsw} {now : Nat} (h : InStep s0 s) (same : SameLine s.vsw (f s.vsw))
    (episodes : (f s.vsw).episodes = s.vsw.episodes) : InStep s0 (s.onVsw fun v => (f v).beginOutpulse now) := by
  obtain ⟨o, begun⟩ := beginOutpulse_frame now (f s.vsw)
  refine h.onVsw ?_ ?_
  · rw [begun]
    exact ⟨same.line, same.offHook, same.onHook, same.ringEnd, same.burstOff, same.burst, same.release⟩
  · rw [begun, episodes]

theorem InStep.repeatDigit {p : Port} {d : Nat} (h : InStep s0 s) : InStep s0 (s.repeatDigit p d) := by
  unfold State.repeatDigit
  split
  · exact h.beginOutpulse (f := fun v => { v with repeatQueue := v.repeatQueue ++ [{ port := p, digit := d }] })
      ⟨rfl, rfl, rfl, rfl, rfl, rfl, rfl⟩ rfl
  · exact h

theorem InStep.advanceOutpulse {o : Outpulse} (h : InStep s0 s) : InStep s0 (s.onVsw (Vsw.advanceOutpulse o)) := by
  unfold Vsw.advanceOutpulse
  split
  · exact h.onVsw
  · split <;> exact h.onVsw
  · exact h.beginOutpulse ⟨rfl, rfl, rfl, rfl, rfl, rfl, rfl⟩ rfl

theorem InStep.endPulses {p : Port} (h : InStep s0 s) : InStep s0 (s.endPulses p) := by
  unfold State.endPulses
  refine InStep.ite h.onPort (InStep.ite h.onPort.lapseWindow ?_)
  dsimp only
  split
  · split
    · exact InStep.ite h.onPort.repeatDigit h.onPort
    · exact h.onPort
  · exact h.onPort.takeDigit

theorem InStep.flashConnected {p : Port} (h : InStep s0 s) : InStep s0 (s.flashConnected p) := by
  unfold State.flashConnected
  split
  · exact h
  · rename_i c live
    split
    · rename_i terms
      obtain ⟨outside, active, -⟩ := terms
      exact h.makeHeld fun held => (h.line held).only (liveCallOf_spec live).1 (hasLine_iff.mpr ⟨outside, .inl active⟩)
    · exact h

theorem InStep.takeFlash {p : Port} (h : InStep s0 s) : InStep s0 (s.takeFlash p) := by
  unfold State.takeFlash
  dsimp only
  split
  · exact InStep.ite h.onPort.retrieveForPort h.onPort.flashConnected
  · split
    · exact InStep.ite h.onPort.retrieveForPort h.onPort
    · exact h.onPort.lapseWindow
  · exact InStep.ite h.onPort.withdrawPortClaim.retrieveForPort h.onPort
  · exact h.onPort

theorem InStep.closeBreak {p : Port} {n : Nat} (h : InStep s0 s) : InStep s0 (s.closeBreak p n) :=
  have closed := h.onPort
  InStep.ite (InStep.ite closed.onPort closed) <| InStep.ite closed.takeFlash <|
    InStep.ite closed.onPort closed.lapseWindow

theorem InStep.takeOnHook {p : Port} (h : InStep s0 s) : InStep s0 (s.takeOnHook p) := by
  have idle : InStep s0 ((s.withdrawPortClaim p).onPort p fun _ => PortRec.onHookAt (s.withdrawPortClaim p).now) :=
    h.withdrawPortClaim.onPort
  unfold State.takeOnHook
  dsimp only
  split
  · exact idle.depart.makeInactive.makeInactive
  · exact idle.makeInactive.makeInactive

theorem InStep.enterHowler {p : Port} (h : InStep s0 s) : InStep s0 (s.enterHowler p) := by
  unfold State.enterHowler
  exact h.withdrawPortClaim.onPort

theorem InStep.firstWindowEnds {p : Port} (h : InStep s0 s) : InStep s0 (s.firstWindowEnds p) := by
  unfold State.firstWindowEnds
  exact h.onPort

theorem InStep.postFlashEnds {p : Port} (h : InStep s0 s) : InStep s0 (s.postFlashEnds p) :=
  InStep.ite h.onPort.lapseWindow h.onPort

theorem InStep.portOut (h : InStep s0 s) : InStep s0 s.portOut :=
  (h.withdrawPortClaim.onPort).makeInactive.makeInactive

theorem InStep.servePortB (h : InStep s0 s) : InStep s0 s.servePortB :=
  InStep.ite (InStep.ite (InStep.ite h h.portOut) (InStep.ite (h.onPort) h)) h

theorem InStep.beginCheck {p : Port} (h : InStep s0 s) : InStep s0 (s.beginCheck p) := h.onPort

theorem InStep.endCheck {p : Port} {b : Bool} (h : InStep s0 s) : InStep s0 (s.endCheck p b) :=
  InStep.ite h.onPort.makeInactive h.onPort.raiseUnlessActive

theorem InStep.loopClosed {p : Port} (h : InStep s0 s) : InStep s0 (s.loopClosed p) := by
  unfold State.loopClosed
  split
  · exact h.takeOffHook
  · exact h.takeOffHook
  · exact h
  · split
    · exact h
    · exact h.closeBreak

end Sys2Proof.Proofs.Standing
end

section
/-! The link, the line and the call table stay in step over what stations ask for, and over all that is heard and sent
(O60). -/

set_option Elab.async false

namespace Sys2Proof.Proofs.Standing

open Sys2Proof Sys2Proof.Machine Sys2Proof.Proofs.Steps Sys2Proof.Proofs.Telling Sys2Proof.Proofs.Calls Sys2Proof.Proofs

variable {s0 s t u : State} {x : LineState} {id : Nat} {r c : CallRec} {k : Claimant}

theorem InStep.serve {pick : Delivered → Bool} {f : Delivered → State → State} (h : InStep s0 s)
    (hf : ∀ d s, InStep s0 s → InStep s0 (f d s)) : InStep s0 (s.serve pick f) := by
  unfold State.serve
  split
  · exact h
  · exact hf _ _ h.popRequest.takeFrame

theorem InStep.asManager {d : Delivered} {f : State → State} (h : InStep s0 s) (hf : InStep s0 (f s)) :
    InStep s0 (s.asManager d f) :=
  InStep.ite hf h.refuse

theorem InStep.withTag {d : Delivered} {f : State → State} (h : InStep s0 s) (hf : InStep s0 (f s)) :
    InStep s0 (s.withTag d f) :=
  InStep.ite h.refuse hf

theorem InStep.hookOn {d : Delivered} (h : InStep s0 s) : InStep s0 (s.hookOn d) := by
  unfold State.hookOn
  refine InStep.ite ?_ h.refuse
  split
  · exact h.depart
  · exact h

theorem InStep.hookFlash {d : Delivered} (h : InStep s0 s) : InStep s0 (s.hookFlash d) := by
  unfold State.hookFlash
  dsimp only
  split
  · exact h
  · rename_i c live
    obtain ⟨mem, -⟩ := liveCallOf_spec live
    split
    · rename_i terms
      obtain ⟨outside, active, -⟩ := terms
      exact h.makeHeld fun held => (h.line held).only mem (hasLine_iff.mpr ⟨outside, .inl active⟩)
    · split
      · rename_i k holds
        obtain ⟨place, state⟩ := heldBy_spec holds
        split
        · rename_i terms
          have ended := h.leaveAndEnd (id := c.id) (e := .station d.src) fun held =>
            (h.line held).of_callOf mem (not_hasLine_intercom terms.1)
          exact ended.giveHeld fun held r hr own =>
            (h.line held).only (p := fun r => r.hasLine = true) place ((h.line held).held_hasLine place state) r
              (mem_leaveAndEnd hr) own
        · exact h
      · exact h

theorem InStep.claimAny {d : Delivered} (h : InStep s0 s) : InStep s0 (s.claimAny d) :=
  InStep.ite (InStep.ite h.decideOutside h.onCct) h

theorem InStep.claimIntercom {d : Delivered} (h : InStep s0 s) : InStep s0 (s.claimIntercom d) := by
  unfold State.claimIntercom
  split
  · exact h.refuse
  · exact h.decideIntercom

theorem seated_connected (n : Nat) (r : CallRec) : Seated r
    { r with
      parties := r.parties.map (fun p => if p.who = .station n then { p with mark := .connected } else p)
      everConnected := true
      saved := if r.owner = some (.station n) then none else r.saved } := by
  refine ⟨rfl, fun kept => ?_, rfl, rfl⟩
  simp only [CallRec.kept, Bool.and_eq_true] at kept ⊢
  obtain ⟨⟨⟨⟨⟨record, saved⟩, ring⟩, originator⟩, guard⟩, incoming⟩ := kept
  refine ⟨⟨⟨⟨⟨record, ?_⟩, ring⟩, originator⟩, guard⟩, incoming⟩
  split
  · rfl
  · exact saved

theorem InStep.connectStation {n : Nat} {x : GrantExpectation} (h : InStep s0 s) : InStep s0 (s.connectStation n x) := by
  have connected : InStep s0 ((s.clearExpectation n).onCall x.callId fun r =>
      { r with
        parties := r.parties.map (fun p => if p.who = .station n then { p with mark := .connected } else p)
        everConnected := true
        saved := if r.owner = some (.station n) then none else r.saved }) :=
    h.clearExpectation.onCall fun _ r _ _ => seated_connected n r
  unfold State.connectStation
  dsimp only
  split
  · split
    · exact .ite connected.onPort connected
    · exact connected
  · exact connected

theorem InStep.takeUp {d : Delivered} (h : InStep s0 s) : InStep s0 (s.takeUp d) := by
  have taken := h.popRequest.dropDeferred (n := d.src)
  unfold State.takeUp
  dsimp only
  split
  · exact taken.refuse
  · exact InStep.ite taken.connectStation taken.withdraw.refuse

theorem InStep.holdCall {n : Nat} (h : InStep s0 s) (mem : c ∈ s.cct.calls) (stands : c.state ≠ .clearing) :
    InStep s0 (s.holdCall n c) := by
  unfold State.holdCall
  split
  · exact h.refuse
  · rename_i outside
    split
    · exact h.refuse
    · rename_i answered
      refine .ite h.refuse ?_
      split
      · exact h.handCall
      · refine h.makeHeld fun held => (h.line held).only mem (hasLine_iff.mpr ⟨?_, ?_⟩)
        · cases kind : c.kind with
          | outside => rfl
          | intercom => exact absurd kind outside
        · cases state : c.state with
          | setup => exact absurd state answered
          | active => exact .inl rfl
          | held => exact .inr rfl
          | clearing => exact absurd state stands

theorem InStep.takeHold {d : Delivered} (h : InStep s0 s) : InStep s0 (s.takeHold d) := by
  unfold State.takeHold
  split
  · exact h.refuse
  · rename_i c found
    split
    · exact h.refuse
    · exact h.holdCall (mem_of_callOf found).1 ‹_›

theorem InStep.releaseCall {n : Nat} (h : InStep s0 s) (mem : c ∈ s.cct.calls)
    (released : s.releaseCall n c = some t) : InStep s0 t := by
  unfold State.releaseCall at released
  dsimp only at released
  split at released
  · cases released
    exact h.depart
  · split at released
    · rename_i terms
      cases released
      exact h.toClearing fun held => (h.line held).of_callOf mem ((h.line held).held_hasLine mem terms.1)
    · split at released
      · rename_i terms
        cases released
        exact h.removeCall fun held => (h.line held).of_callOf mem (not_hasLine_intercom terms.1)
      · cases released

theorem InStep.takeRelease {d : Delivered} (h : InStep s0 s) : InStep s0 (s.takeRelease d) := by
  unfold State.takeRelease
  split
  · exact h.refuse
  · rename_i c found
    refine .ite h.refuse ?_
    split
    · exact (h.releaseCall (mem_of_callOf found).1 ‹_›).handCall
    · exact h.refuse

theorem InStep.hearGrant {d : Delivered} {tag : Nat} (h : InStep s0 s) : InStep s0 (s.hearGrant d tag) :=
  have heard := InStep.ite h.popRequest.takeFrame h.popRequest.dropDeferred
  InStep.ite heard.onCct heard

theorem InStep.hearTake {d : Delivered} {tag : Nat} (h : InStep s0 s) : InStep s0 (s.hearTake d tag) := by
  have heard : InStep s0 (((s.popRequest).dropDeferred d.src).dropPending d.src tag) := h.popRequest.dropDeferred.onCct
  unfold State.hearTake
  dsimp only
  split
  · exact InStep.ite heard.withdraw heard
  · exact heard

theorem InStep.anyExpires {p : PendingAny} (h : InStep s0 s) : InStep s0 (s.anyExpires p) :=
  InStep.ite h.onCct.decideOutside h.onCct

theorem InStep.recallDue (h : InStep s0 s) : InStep s0 (s.recallDue id) := by
  unfold State.recallDue
  dsimp only
  split
  · exact .ite h.onHold h.onHold.attemptRecall
  · exact h.onHold

theorem InStep.recallAgain (h : InStep s0 s) : InStep s0 (s.recallAgain id) := by
  unfold State.recallAgain
  dsimp only
  split
  · exact h.onHold.attemptRecall
  · exact h.onHold

theorem InStep.queryLoop {d : Delivered} (h : InStep s0 s) : InStep s0 (s.queryLoop d) := by
  unfold State.queryLoop
  split
  · split
    · exact h.refuse
    · exact InStep.ite h.refuse h.report
  · exact h

theorem InStep.querySummary {d : Delivered} (h : InStep s0 s) : InStep s0 (s.querySummary d) :=
  InStep.ite h.report h.refuse

theorem InStep.queryFaults {pick : FaultEntry → Bool} {d : Delivered} (h : InStep s0 s) :
    InStep s0 (s.queryFaults pick d) :=
  InStep.ite h.refuse (InStep.ite h.report h.startStream)

theorem InStep.queryPresence {d : Delivered} (h : InStep s0 s) : InStep s0 (s.queryPresence d) :=
  InStep.ite h.report (InStep.ite h.refuse h.startStream)

theorem InStep.queryConfiguration {d : Delivered} (h : InStep s0 s) : InStep s0 (s.queryConfiguration d) := by
  unfold State.queryConfiguration
  split
  · exact InStep.ite h.refuse h.report
  · exact h

theorem InStep.testRequest {n bits : Nat} {b : Bool} (h : InStep s0 s) : InStep s0 (s.testRequest n bits b) :=
  InStep.ite h.takeTest (InStep.ite h.takeTest (InStep.ite h h.takeTest))

theorem InStep.readCounter {m n : Nat} (h : InStep s0 s) : InStep s0 (s.readCounter m n) := by
  unfold State.readCounter
  split
  · exact h.refuse
  · exact h.report

theorem InStep.clearCounter {m n : Nat} (h : InStep s0 s) : InStep s0 (s.clearCounter m n) := by
  unfold State.clearCounter
  split
  · exact h.refuse
  · exact InStep.ite h.onCtb.report h.refuse

theorem InStep.setCounter {m n : Nat} {x : Option Nat} {b : Option Bool} (h : InStep s0 s) :
    InStep s0 (s.setCounter m n x b) := by
  unfold State.setCounter
  split
  · exact InStep.ite h.refuse h
  · exact InStep.ite h.onCtb.done h

theorem InStep.delegateCounter {m n a : Nat} (h : InStep s0 s) : InStep s0 (s.delegateCounter m n a) :=
  .ite h.refuse (.ite h.onCtb.done (.ite h.onCtb.done h.refuse))

theorem InStep.refreshSender {n : Nat} {x : Option (Role × Bool × RingMode × Nat)} (h : InStep s0 s) :
    InStep s0 (s.refreshSender n x) := by
  unfold State.refreshSender
  split
  · exact InStep.ite h.onEntry h.onEntry.makeInactive
  · split
    · exact h
    · exact h.onYbi

theorem InStep.takePresence {n : Nat} {x : Option (Role × Bool × RingMode × Nat)} (h : InStep s0 s) :
    InStep s0 (s.takePresence n x) := by
  unfold State.takePresence
  split
  · exact h
  · exact h.onEntry

theorem InStep.takeLineStatus {n : Nat} {b : List Byte} (h : InStep s0 s) : InStep s0 (s.takeLineStatus n b) := by
  unfold State.takeLineStatus
  split
  · exact h.onEntry
  · exact h

theorem InStep.deliver {f : RxFrame} {k : Kind} (h : InStep s0 s) : InStep s0 (s.deliver f k) := by
  unfold State.deliver
  split
  · exact InStep.ite h.takeFrame.refuse h
  · split
    · exact h.frameDropped
    · exact h.onYbi

theorem InStep.routeFrame {f : RxFrame} (h : InStep s0 s) : InStep s0 (s.routeFrame f) := by
  unfold State.routeFrame
  split
  · exact h.signal
  · exact h
  · exact h
  · exact InStep.ite h.deliver h

theorem InStep.takeValid {f : RxFrame} (h : InStep s0 s) : InStep s0 (s.takeValid f) :=
  have known := InStep.ite h.refreshSender.takePresence.takeLineStatus h.refreshSender.takePresence
  InStep.ite known.routeFrame known

theorem InStep.judge {b : List Byte} {x y : Bool} (h : InStep s0 s) : InStep s0 (s.judge b x y) := by
  unfold State.judge
  split
  · exact InStep.ite h.signal h
  · exact h.takeValid

theorem InStep.ownSlot {c : UrgencyClass} (h : InStep s0 s) : InStep s0 (s.ownSlot c) := by
  unfold State.ownSlot
  have counted (n : Nat) (b : Bool) : InStep s0 (s.onYbi fun y => { y with bus := .idle, slot := n, yielding := b }) :=
    h.onYbi
  dsimp only
  split
  · exact counted _ _
  · exact InStep.ite (counted _ _).onYbi (counted _ _)

theorem InStep.headLeaves {c : UrgencyClass} {b : BusState} {n : Nat} (h : InStep s0 s) :
    InStep s0 (s.headLeaves c b n) := h.onYbi

theorem InStep.afterLeaving {c : UrgencyClass} {f : Option TxFrame} (h : InStep s0 s) :
    InStep s0 (s.afterLeaving c f) := by
  unfold State.afterLeaving
  split
  · exact (InStep.ite h.onYbi h).handOwed.pumpStream
  · exact h

/-- R187: a mark of a report leaves what is ACTIVE. -/
theorem spared_reportedBy (x : FaultTag) (f : Flt) : Spared f (f.reportedBy x) :=
  ⟨Timers.reportedBy_isActive x f lockoutFault, listed_update fun e => by split <;> rfl, reportedBy_fits⟩

theorem InStep.markReported {f : Option TxFrame} (h : InStep s0 s) : InStep s0 (s.markReported f) := by
  unfold State.markReported
  split
  · exact h.onFlt (spared_reportedBy _ _)
  · exact h

theorem InStep.enterListenOnly (h : InStep s0 s) : InStep s0 s.enterListenOnly :=
  h.onYbi.onFlt (f := fun f => { f with owed := [] }) (.of_entries rfl fun x => x)

theorem InStep.goAbsent {n : Nat} (h : InStep s0 s) : InStep s0 (s.goAbsent n) :=
  InStep.stationGone (h.onEntry.raise (c := .stationLost) (x := .station n)).onCtb

/-! ### The survey begins a phase, and gives the line back -/

theorem voltageReady_line (ready : s.voltageReady = true) : s.vsw.line = .idle ∨ s.vsw.line = .out := by
  simp only [State.voltageReady, Bool.and_eq_true, Bool.or_eq_true, decide_eq_true_eq] at ready
  exact ready.1.1.2

theorem phaseReady_line (ready : s.phaseReady = true) : s.vsw.line = .idle ∨ s.vsw.line = .out := by
  unfold State.phaseReady at ready
  split at ready
  · exact voltageReady_line ready
  · simp only [State.metallicReady, Bool.and_eq_true] at ready
    exact voltageReady_line ready.1.1.1
  · cases ready

theorem InStep.beginPhase (h : InStep s0 s) (ready : s.phaseReady = true) : InStep s0 s.beginPhase := by
  have free := phaseReady_line ready
  unfold State.beginPhase
  split
  · split
    · exact h.beginVoltage free
    · exact h
  · split
    · exact h.beginMetallic free
    · exact h
  · exact h

theorem linked_startSurvey (r : Survey) (s : State) : Linked s (s.startSurvey r) :=
  .ite (Linked.refl s).onLth.writeEntry.onRunning (Linked.refl s).onLth

theorem InStep.startCheck {i : Item} {l : List Item} (h : InStep s0 s) (ready : s.voltageReady = true) :
    InStep s0 (s.startCheck i l) :=
  (h.linked (linked_startSurvey _ s)).beginVoltage (by rw [(linked_startSurvey _ s).vsw]; exact voltageReady_line ready)

end Sys2Proof.Proofs.Standing
end

section
/-! The line leaves TEST at the end of the restore time: what a command brings about before the ringing follows it
(O60). -/

set_option Elab.async false

namespace Sys2Proof.Proofs.Standing

open Sys2Proof Sys2Proof.Machine Sys2Proof.Proofs.Steps Sys2Proof.Proofs.Telling Sys2Proof.Proofs.Calls

variable {s0 s t u : State} {x : LineState} {k : Claimant}

/-- Of a claim that is decided on a line that is not in TEST: no item begins, nor does the restore time. -/
structure Untouched (s t : State) : Prop where
  away : t.vsw.line ≠ .test
  restore : t.lth.restoreTimer = s.lth.restoreTimer

theorem untouched_tell (away : s.vsw.line ≠ .test) (w : Hushed s t) : Untouched s t := by
  have aside := Aside.of_told w.frame
  exact ⟨by rw [aside.vsw]; exact away, aside.restore⟩

theorem untouched_onPort (p : Port) (f : PortRec → PortRec) (away : s.vsw.line ≠ .test) : Untouched s (s.onPort p f) := by
  cases p <;> exact ⟨away, rfl⟩

theorem untouched_refuseClaim (x : RefuseReason) (away : s.vsw.line ≠ .test) : Untouched s (s.refuseClaim k x) := by
  cases k with
  | station n tag sent => exact untouched_tell away (hushed_handCall _ s)
  | port p => exact untouched_onPort p _ away

theorem untouched_letIn (id : Nat) (x : Tone) (away : s.vsw.line ≠ .test) : Untouched s (s.letIn k id x) := by
  unfold State.letIn
  cases k with
  | station n tag sent =>
    have told := untouched_tell (s := s.onEntry n fun e =>
      { e with grant := some { tag := tag, callId := id, deadline := s.now + Config.grantMs } }) away
      (hushed_handCall (grantFrame n tag id sent.code) _)
    exact ⟨told.away, told.restore⟩
  | port p => exact untouched_onPort p _ away

theorem untouched_setLine (away : x ≠ .test) : Untouched s (s.setLine x) :=
  ⟨by rw [setLine_line]; exact away, by rw [(relines_setLine x s).survey]⟩

theorem Untouched.trans (h : Untouched s t) (g : Untouched t u) : Untouched s u := ⟨g.away, g.restore.trans h.restore⟩

theorem untouched_grantAnswer (id : Nat) : Untouched s (s.grantAnswer k id) := by
  have granted {u : State} (same : u.lth = s.lth) : Untouched s ((u.setLine .seized).letIn k id .none) := by
    have line := untouched_setLine (s := u) (x := .seized) (by decide)
    have told := untouched_letIn (k := k) id .none line.away
    exact ⟨told.away, told.restore.trans (line.restore.trans (by rw [same]))⟩
  unfold State.grantAnswer
  cases k with
  | station n tag sent => exact granted rfl
  | port p => exact granted rfl

theorem untouched_decideOutside (away : s.vsw.line ≠ .test) : Untouched s (s.decideOutside k) := by
  unfold State.decideOutside
  split
  · split
    · exact untouched_refuseClaim _ away
    · have seized := untouched_setLine (s := s.addCall (CallRec.fresh s.cct.newId .outside .outgoing .active [k.party]))
        (x := .seized) (by decide)
      exact Untouched.trans (s := s) ⟨seized.away, seized.restore⟩ (untouched_letIn _ _ seized.away)
  · split
    · unfold State.answerIncoming
      split
      · exact untouched_refuseClaim _ away
      · exact untouched_grantAnswer _
    · exact untouched_refuseClaim _ away
  · exact absurd ‹_› away
  · exact untouched_refuseClaim _ away
  · exact untouched_refuseClaim _ away

theorem untouched_decideOutsides (l : List Claimant) (away : s.vsw.line ≠ .test) :
    Untouched s (l.foldl (fun s c => s.decideOutside c) s) := by
  induction l generalizing s with
  | nil => exact ⟨away, rfl⟩
  | cons c l ih =>
    have first := untouched_decideOutside (k := c) away
    exact first.trans (ih first.away)

theorem untouched_decideDeferred (away : s.vsw.line ≠ .test) : Untouched s s.decideDeferred := by
  have decided := untouched_decideOutsides (s := s.onCct fun c => { c with deferred := [] }) s.cct.deferred away
  exact ⟨decided.away, decided.restore⟩

theorem restingLine_away (s : State) : s.restingLine ≠ .test := by
  unfold State.restingLine
  split <;> nofun

/-- What a command has brought about, before the ringing follows it. -/
structure Brings (s t : State) : Prop where
  link : LinkHeld s.lle s.flt → LinkHeld t.lle t.flt
  line : LineHeld s.cct s.vsw → Tested s.lth s.vsw.line → LineHeld t.cct t.vsw ∧ Tested t.lth t.vsw.line
  rings : t.vsw.episodes.map Episode.key = s.vsw.episodes.map Episode.key

theorem InStep.brings (h : InStep s t) : Brings s t :=
  ⟨h.link, fun held tests => ⟨h.line held, h.tested held tests⟩, h.rings⟩

theorem Brings.trans (h : Brings s t) (g : Brings t u) : Brings s u :=
  ⟨fun x => g.link (h.link x), fun held tests => (h.line held tests).elim g.line, g.rings.trans h.rings⟩

/-- R166, R140: the restore time is over, the line leaves TEST and the survey goes on. -/
theorem brings_restored (runs : s.lth.restoreTimer ≠ none) : Brings s s.restored := by
  have later {v : State} : InStep v (State.continueSurvey 2 v.decideDeferred) := (InStep.refl v).decideDeferred.continueSurvey 2
  refine ⟨fun held => later.link (LinkHeld.setLine (s := s.onLth _) _ held), fun held tests => ?_, ?_⟩
  · have test := tests.restore runs
    refine ⟨later.line ⟨?_, held.timed.setLine (s := s.onLth _) _, ?_⟩, AtRest.tested (continueSurvey_rest 1 ?_) _⟩
    · rw [setLine_cct]
      exact held.table
    · rw [setLine_cct, setLine_line]
      exact held.serves.unclaimed (by rw [test]; decide) (by rw [test]; decide) (restingLine_ne _)
    · have line := untouched_setLine (s := s.onLth fun l => { l with restoreTimer := none })
        (restingLine_away (s.onLth fun l => { l with restoreTimer := none }))
      exact (untouched_decideDeferred line.away).restore.trans line.restore
  · exact later.rings.trans (by rw [(relines_setLine _ _).episodes]; rfl)

end Sys2Proof.Proofs.Standing
end

section
/-! What follows a command: the episodes follow the call table, the ring plan follows the episodes, and the link, the
line and the table stay in step (O60). -/

set_option Elab.async false

namespace Sys2Proof.Proofs.Standing

open Sys2Proof Sys2Proof.Machine Sys2Proof.Proofs.Steps Sys2Proof.Proofs.Telling Sys2Proof.Proofs.Calls

variable {s0 s t u before : State}

/-! ### The episodes are those the call table calls for -/

theorem ringsAsCalled_of (h : s.ringsAsCalled = true) (rings : t.vsw.episodes.map Episode.key = s.vsw.episodes.map Episode.key)
    (calls : t.cct.calls = s.cct.calls) : t.ringsAsCalled = true := by
  have keyed (v : State) : v.ringsAsCalled =
      ((v.vsw.episodes.map Episode.key).all v.cct.episodes.contains &&
        v.cct.episodes.all (fun w => (v.vsw.episodes.map Episode.key).any fun x => decide (x = w))) := by
    simp only [State.ringsAsCalled, List.all_map, List.any_map]
    rfl
  have wanted : t.cct.episodes = s.cct.episodes := by rw [Cct.episodes, calls, ← Cct.episodes]
  rw [keyed, rings, wanted, ← keyed]
  exact h

/-- Section 6.4: the episodes follow the call table. -/
theorem ringsAsCalled_followed (s : State) : State.ringsAsCalled (s.onVsw fun v =>
    { v with
      episodes := v.episodes.filter (fun e => s.cct.episodes.contains (e.callId, e.kind)) ++
        (s.cct.episodes.filter (fun w => !s.vsw.episodes.any (fun e => decide ((e.callId, e.kind) = w)))).map
          (Episode.start s.cfl.record.cadence s.now) }) = true := by
  simp only [State.ringsAsCalled, State.onVsw_vsw, State.onVsw_cct, Bool.and_eq_true, List.all_eq_true]
  constructor
  · intro e mem
    rcases List.mem_append.mp mem with old | new
    · exact (List.mem_filter.mp old).2
    · obtain ⟨w, wanted, rfl⟩ := List.mem_map.mp new
      exact List.contains_iff_mem.mpr (List.mem_of_mem_filter wanted)
  · intro w wanted
    rw [List.any_append, Bool.or_eq_true]
    by_cases rings : s.vsw.episodes.any (fun e => decide ((e.callId, e.kind) = w)) = true
    · obtain ⟨e, mem, same⟩ := List.any_eq_true.mp rings
      refine .inl (List.any_eq_true.mpr ⟨e, List.mem_filter.mpr ⟨mem, ?_⟩, same⟩)
      rw [of_decide_eq_true same]
      exact List.contains_iff_mem.mpr wanted
    · refine .inr (List.any_eq_true.mpr ⟨_, List.mem_map_of_mem (List.mem_filter.mpr ⟨wanted, ?_⟩), decide_eq_true rfl⟩)
      rw [Bool.not_eq_true] at rings
      rw [rings]
      rfl

/-! ### The ring plan -/

/-- From one state to a later one all stays in step, and the call table stands. -/
structure Follows (s t : State) : Prop where
  steps : InStep s t
  cct : t.cct = s.cct

theorem Follows.refl (s : State) : Follows s s := ⟨.refl s, rfl⟩

theorem Follows.trans (h : Follows s t) (g : Follows t u) : Follows s u := ⟨h.steps.trans g.steps, g.cct.trans h.cct⟩

theorem Follows.ite {c : Prop} [Decidable c] (h : Follows s0 s) (g : Follows s0 t) : Follows s0 (if c then s else t) := by
  split
  · exact h
  · exact g

theorem Follows.foldl {α : Type} {f : State → α → State} (hf : ∀ s a, Follows s0 s → Follows s0 (f s a)) (l : List α)
    (h : Follows s0 s) : Follows s0 (l.foldl f s) := by
  induction l generalizing s with
  | nil => exact h
  | cons a l ih => exact ih (hf s a h)

theorem Linked.follows (h : Linked s t) : Follows s t := ⟨h.inStep, h.cct⟩

section follows
variable (h : Follows s0 s)
include h

theorem Follows.linked (g : Linked s t) : Follows s0 t := h.trans g.follows
theorem Follows.tell (w : Hushed s t) : Follows s0 t := h.linked ((Linked.refl s).tell w)
theorem Follows.onSup {f : Sup → Sup} : Follows s0 (s.onSup f) := h.linked (Linked.refl s).onSup
theorem Follows.onPort {p : Port} {f : PortRec → PortRec} : Follows s0 (s.onPort p f) :=
  ⟨h.steps.onPort, (by cases p <;> rfl : (s.onPort p f).cct = s.cct).trans h.cct⟩
theorem Follows.onVsw {f : Vsw → Vsw} (same : SameLine s.vsw (f s.vsw) := by exact ⟨rfl, rfl, rfl, rfl, rfl, rfl, rfl⟩)
    (episodes : (f s.vsw).episodes.map Episode.key = s.vsw.episodes.map Episode.key := by rfl) : Follows s0 (s.onVsw f) :=
  ⟨h.steps.onVsw same episodes, h.cct⟩

theorem Follows.followPlan {p : Port} : Follows s0 (s.followPlan p) := by
  unfold State.followPlan
  split
  · exact h.onPort
  · exact h.onPort
  · exact h

theorem Follows.demandRing : Follows s0 s.demandRing := by
  unfold State.demandRing
  exact h.onSup

theorem Follows.judgePlan {old : RingPlan} : Follows s0 (s.judgePlan old) := by
  have counted := h.tell (hushed_signalTimes (s.vsw.plan.skipped.filter fun x => !old.skipped.contains x).length .ringShortfall s)
  exact .ite (counted.linked (Linked.refl _).makeInactive) (counted.linked (Linked.refl _).raiseUnlessActive)

theorem Follows.planOnce {began : List Episode} : Follows s0 (s.planOnce began) := by
  have planned : Follows s0 (s.onVsw fun v => { v with plan := s.computePlan }) := h.onVsw
  exact (Follows.foldl (fun s e hs => .ite (hs.tell (hushed_handCall _ _)) hs) _
    planned.judgePlan.followPlan.followPlan).demandRing

theorem Follows.planUntil {n : Nat} {began : List Episode} : Follows s0 (State.planUntil n began s) := by
  induction n generalizing s began with
  | zero => exact h.planOnce
  | succ n ih => exact .ite h.planOnce (ih h.planOnce)

theorem Follows.settlePair : Follows s0 (s.settlePair before) :=
  have paired := Follows.ite h h.onVsw
  Follows.ite paired paired.onVsw

theorem Follows.settleWait : Follows s0 (s.settleWait before) := by
  have timed : Follows s0 (s.onLth fun l => { l with waitTimer := some (s.now + Config.surveyWaitMs) }) :=
    h.linked (Linked.refl s).onLth
  unfold State.settleWait
  split
  · exact .ite h timed
  · exact .ite h timed
  · exact h

end follows

/-! ### The ringing and the rest follow -/

theorem InStep.settlePortB (h : InStep s0 s) : InStep s0 (s.settlePortB before) := .ite h h.servePortB

theorem InStep.settleRecall (h : InStep s0 s) : InStep s0 (s.settleRecall before) := by
  refine .ite h (InStep.foldl (fun s c hs => ?_) _ h)
  split
  · exact .ite hs.recallWaits hs
  · exact hs

/-- What has been brought about keeps the link and the line in step, whatever rings. -/
structure Carries (s t : State) : Prop where
  link : LinkHeld s.lle s.flt → LinkHeld t.lle t.flt
  line : LineHeld s.cct s.vsw → Tested s.lth s.vsw.line → LineHeld t.cct t.vsw ∧ Tested t.lth t.vsw.line

theorem Brings.carries (h : Brings s t) : Carries s t := ⟨h.link, h.line⟩

theorem Carries.trans (h : Carries s t) (g : Carries t u) : Carries s u :=
  ⟨fun x => g.link (h.link x), fun held tests => (h.line held tests).elim g.line⟩

theorem InStep.carries (h : InStep s t) : Carries s t := h.brings.carries

/-- Section 6.4: the episodes that have ended are told of. -/
theorem hushed_ringsEnded (l : List Episode) (s : State) : Hushed s (l.foldl
    (fun s e => s.handCall (ringEndFrame e.callId ((s.callOf e.callId).any (fun c => decide (c.state = .active))))) s) :=
  .foldl (fun _ _ => hushed_handCall _ _) l s

/-- After the episodes have followed the call table they are those it calls for. -/
theorem syncEpisodes_carries (s : State) : Carries s s.syncEpisodes.1 ∧ s.syncEpisodes.1.ringsAsCalled = true := by
  have told := ((Linked.refl _).tell (hushed_ringsEnded (s.vsw.episodes.filter fun e =>
    !s.cct.episodes.contains (e.callId, e.kind)) (s.onVsw fun v =>
    { v with
      episodes := v.episodes.filter (fun e => s.cct.episodes.contains (e.callId, e.kind)) ++
        (s.cct.episodes.filter (fun w => !s.vsw.episodes.any (fun e => decide ((e.callId, e.kind) = w)))).map
          (Episode.start s.cfl.record.cadence s.now) }))).follows
  refine ⟨⟨told.steps.link, fun held tests => ?_⟩,
    ringsAsCalled_of (ringsAsCalled_followed s) told.steps.rings (congrArg Cct.calls told.cct)⟩
  exact told.steps.brings.line (held.sameLine ⟨rfl, rfl, rfl, rfl, rfl, rfl, rfl⟩) tests

/-- The ringing follows: the episodes are those the call table calls for, where it has changed and where they were so
before. -/
theorem settleRinging_carries (s before : State) : Carries s (s.settleRinging before) ∧
    ((s.cct.calls = before.cct.calls → s.ringsAsCalled = true) → (s.settleRinging before).ringsAsCalled = true) := by
  have rest {r : State × List Episode} (carried : Carries s r.1 ∧
        ((s.cct.calls = before.cct.calls → s.ringsAsCalled = true) → r.1.ringsAsCalled = true)) {t : State}
      (later : Follows r.1 t) : Carries s t ∧
        ((s.cct.calls = before.cct.calls → s.ringsAsCalled = true) → t.ringsAsCalled = true) :=
    ⟨carried.1.trans later.steps.carries, fun same =>
      ringsAsCalled_of (carried.2 same) later.steps.rings (congrArg Cct.calls later.cct)⟩
  have synced : Carries s (if s.cct.calls = before.cct.calls then (s, []) else s.syncEpisodes).1 ∧
      ((s.cct.calls = before.cct.calls → s.ringsAsCalled = true) →
        (if s.cct.calls = before.cct.calls then (s, []) else s.syncEpisodes).1.ringsAsCalled = true) := by
    split
    · exact ⟨(InStep.refl s).carries, fun same => same ‹_›⟩
    · exact ⟨(syncEpisodes_carries s).1, fun _ => (syncEpisodes_carries s).2⟩
  unfold State.settleRinging
  exact rest synced (.ite (Follows.refl _).planUntil (.ite (Follows.refl _) (.ite (Follows.refl _) (Follows.refl _).demandRing)))

theorem settlePortB_calls (s before : State) : (s.settlePortB before).cct.calls = s.cct.calls := by
  have out : s.portOut.cct.calls = s.cct.calls := by
    have told := ((Follows.refl ((s.withdrawPortClaim .b).onPort .b fun _ => { PortRec.reset with state := .outOfService })).linked
      (((Linked.refl _).makeInactive (c := .portOffhookLock) (x := .port .b)).makeInactive (c := .portLowCurrent)
        (x := .port .b))).cct
    exact (congrArg Cct.calls told).trans rfl
  have served : s.servePortB.cct.calls = s.cct.calls := by
    unfold State.servePortB
    split
    · split
      · split
        · rfl
        · exact out
      · split <;> rfl
    · rfl
  unfold State.settlePortB
  split
  · rfl
  · exact served

/-- All that follows a command. -/
theorem settle_carries (s before : State) : Carries s (s.settle before) ∧
    ((((s.settlePortB before).settleRecall before).cct.calls = before.cct.calls →
      ((s.settlePortB before).settleRecall before).ringsAsCalled = true) → (s.settle before).ringsAsCalled = true) := by
  have ports : InStep s ((s.settlePortB before).settleRecall before) := (InStep.refl s).settlePortB.settleRecall
  obtain ⟨rung, rings⟩ := settleRinging_carries ((s.settlePortB before).settleRecall before) before
  have rest : Follows (((s.settlePortB before).settleRecall before).settleRinging before) (s.settle before) :=
    ((Follows.refl _).settlePair.linked ((Linked.refl _).settleGuard.settleLink)).settleWait
  exact ⟨(ports.carries.trans rung).trans rest.steps.carries, fun same =>
    ringsAsCalled_of (rings same) rest.steps.rings (congrArg Cct.calls rest.cct)⟩

/-- What a command leaves in step, the episodes with the calls that ring among it. -/
structure Stands (s t : State) : Prop where
  link : LinkHeld s.lle s.flt → LinkHeld t.lle t.flt
  line : LineHeld s.cct s.vsw → Tested s.lth s.vsw.line → s.ringsAsCalled = true →
    LineHeld t.cct t.vsw ∧ Tested t.lth t.vsw.line ∧ t.ringsAsCalled = true

theorem Stands.refl (s : State) : Stands s s := ⟨id, fun held tests rings => ⟨held, tests, rings⟩⟩

theorem Stands.trans (h : Stands s t) (g : Stands t u) : Stands s u :=
  ⟨fun x => g.link (h.link x), fun held tests rings => by
    obtain ⟨held, tests, rings⟩ := h.line held tests rings
    exact g.line held tests rings⟩

theorem Brings.settle (h : Brings s t) : Stands s (t.settle s) := by
  obtain ⟨carried, rings⟩ := settle_carries t s
  have ports : InStep t ((t.settlePortB s).settleRecall s) := (InStep.refl t).settlePortB.settleRecall
  have all := h.carries.trans carried
  refine ⟨all.link, fun held tests called => ?_⟩
  obtain ⟨line, tested⟩ := all.line held tests
  exact ⟨line, tested, rings fun same => ringsAsCalled_of called (ports.rings.trans h.rings) same⟩

end Sys2Proof.Proofs.Standing
end

section
/-! Every command leaves the link, the line and the call table in step (O60). -/

set_option Elab.async false

namespace Sys2Proof.Proofs.Standing

open Sys2Proof Sys2Proof.Machine Sys2Proof.Proofs.Steps Sys2Proof.Proofs.Telling Sys2Proof.Proofs.Calls

variable {s0 s t u : State} {id : Nat} {r : CallRec}

/-! ### From the effect of a command to its next state -/

/-- The outcome is a next state, in which all stands in step as it did before. -/
def Stays (s : State) (o : Host.Outcome State Fault Refusal) : Prop := ∀ t, o = .next t → Stands s t

theorem stays_next (h : Stands s t) : Stays s (.next t) := fun _ e => by
  cases e
  exact h

theorem stays_brings (h : Brings s t) : Stays s (finish s t) := stays_next h.settle
theorem stays_finish (h : InStep s t) : Stays s (finish s t) := stays_brings h.brings
theorem stays_linked (h : Linked s t) : Stays s (finish s t) := stays_finish h.inStep

theorem stays_ite {c : Prop} [Decidable c] (h : InStep s t) : Stays s (finish s (if c then t else s)) :=
  stays_finish (.ite h (.refl s))

/-- A command that acts in one circumstance, and changes nothing otherwise. -/
theorem stays_when {c : Prop} [Decidable c] (h : c → Linked s t) : Stays s (finish s (if c then t else s)) := by
  split
  · exact stays_linked (h ‹_›)
  · exact stays_finish (.refl s)

theorem inStep_onExpiry {d : Timer} {f : State → State} (hf : ∀ x, d = some x → InStep s (f (s.reach x))) :
    InStep s (s.onExpiry d f) := by
  cases d with
  | none => exact .refl s
  | some x => exact hf x rfl

/-- A command that is only the expiry of a timer. -/
theorem stays_onExpiry {d : Timer} {f : State → State} (hf : ∀ t, InStep s t → InStep s (f t)) :
    Stays s (finish s (s.onExpiry d f)) := stays_finish (inStep_onExpiry fun _ _ => hf _ (InStep.refl s).reach)

/-- The expiry of a timer of the link. -/
theorem stays_onLinkExpiry {d : Timer} {f : State → State} (hf : ∀ x, d = some x → Linked s (f (s.reach x))) :
    Stays s (finish s (s.onExpiry d f)) := stays_linked (linked_onExpiry hf)

/-- A command that takes the request at the head of the receive buffer. -/
theorem stays_serve {pick : Delivered → Bool} {f : Delivered → State → State}
    (hf : ∀ d t, InStep s t → InStep s (f d t)) : Stays s (finish s (s.serve pick f)) :=
  stays_finish ((InStep.refl s).serve hf)

/-! ### The expiries that the state of a call or of the line tells of -/

theorem reach_cct (d : Nat) (s : State) : (s.reach d).cct = s.cct := ((Linked.refl s).reach (d := d)).cct
theorem reach_vsw (d : Nat) (s : State) : (s.reach d).vsw = s.vsw := ((Linked.refl s).reach (d := d)).vsw
theorem reach_stage (d : Nat) (s : State) : (s.reach d).lth.stage = s.lth.stage := ((Linked.refl s).reach (d := d)).stage

theorem reach_restore (d : Nat) (s : State) : (s.reach d).lth.restoreTimer = s.lth.restoreTimer :=
  ((Linked.refl s).reach (d := d)).restore

theorem reach_callOf (d id : Nat) (s : State) : (s.reach d).callOf id = s.callOf id := by
  unfold State.callOf
  rw [reach_cct]

/-- The timer of a call runs of a call that is not on the line. -/
theorem inStep_callEnds {g : CallRec → Timer}
    (free : ∀ r, r.kept = true → g r ≠ none → r.hasLine = false) :
    InStep s (s.onExpiry ((s.callOf id).bind g) (State.removeCall id)) :=
  inStep_onExpiry fun d runs => (InStep.refl s).reach.removeCall fun held r found => by
    rw [reach_callOf] at found
    rw [found] at runs
    refine free r (held.table.kept r (mem_of_callOf found).1) ?_
    rw [show g r = some d from runs]
    nofun

theorem ringTimer_free (kept : r.kept = true) (runs : r.ringTimer ≠ none) : r.hasLine = false := by
  simp only [CallRec.kept, Bool.and_eq_true] at kept
  obtain ⟨⟨⟨⟨-, ring⟩, -⟩, -⟩, -⟩ := kept
  exact not_hasLine_intercom (runsOnly_iff.mp ring runs)

theorem guardTimer_free (kept : r.kept = true) (runs : r.guardTimer ≠ none) : r.hasLine = false := by
  simp only [CallRec.kept, Bool.and_eq_true] at kept
  obtain ⟨⟨-, guard⟩, -⟩ := kept
  have clearing := runsOnly_iff.mp guard runs
  simp [CallRec.hasLine, clearing]

theorem hold_hasLine {k : Hold} (kept : r.kept = true) (holds : r.hold = some k) : r.hasLine = true := by
  simp only [CallRec.kept, Bool.and_eq_true] at kept
  obtain ⟨⟨⟨⟨⟨⟨-, hold⟩, -⟩, -⟩, -⟩, -⟩, -⟩ := kept
  rw [holds] at hold
  simp only [Option.isNone_some, Bool.false_or, Bool.and_eq_true, decide_eq_true_eq] at hold
  exact hasLine_iff.mpr ⟨hold.1, .inr hold.2⟩

theorem inStep_holdEnds : InStep s (s.onExpiry (s.holdTimerOf id (·.releaseTimer)) (State.toClearing id)) :=
  inStep_onExpiry fun d runs => (InStep.refl s).reach.toClearing fun held r found => by
    rw [reach_callOf] at found
    unfold State.holdTimerOf at runs
    rw [found] at runs
    cases holds : r.hold with
    | none =>
      rw [Option.bind_some, holds] at runs
      cases runs
    | some k => exact hold_hasLine (held.table.kept r (mem_of_callOf found).1) holds

/-- A timer of the line runs out, and the line leaves the state it is for. -/
theorem inStep_lineExpiry {g : Vsw → Timer} {f : State → State}
    (hf : ∀ t, InStep s t → (LineHeld s.cct s.vsw → g t.vsw ≠ none) → InStep s (f t)) :
    InStep s (s.onExpiry (g s.vsw) f) :=
  inStep_onExpiry fun d runs => hf _ (InStep.refl s).reach fun _ => by
    rw [reach_vsw, runs]
    nofun

theorem inStep_offHookBand : InStep s (s.onExpiry s.vsw.offHookBandTimer (State.endRinging .parallel)) :=
  inStep_lineExpiry fun t h runs => h.endRinging fun held => by
    rcases (h.line held).timed.offHook (runs held) with line | line <;> rw [line] <;> decide

theorem inStep_onHookBand : InStep s (s.onExpiry s.vsw.onHookBandTimer (State.setLine .idle)) :=
  inStep_lineExpiry fun t h runs => h.setUnclaimed fun held => by
    rw [(h.line held).timed.onHook (runs held)]
    decide

theorem inStep_ringEnd : InStep s (s.onExpiry s.vsw.ringEndTimer (State.endRinging .idle)) :=
  inStep_lineExpiry fun t h runs => h.endRinging fun held => by
    rw [(h.line held).timed.ringEnd (runs held)]
    decide

theorem inStep_released : InStep s (s.onExpiry s.vsw.releaseTimer fun s => s.setLine s.restingLine) :=
  inStep_lineExpiry fun t h runs => h.setUnclaimed (fun held => by
    rw [(h.line held).timed.release (runs held)]
    decide) (restingLine_ne _)

theorem inStep_burstEnds : InStep s (s.onExpiry s.vsw.burstOffTimer fun s =>
    (s.onVsw fun v =>
      { v with inBurst := false, burstOffTimer := none, ringEndTimer := some (s.now + Config.ringEndMs) }).senseRinging) :=
  inStep_lineExpiry fun t h runs => InStep.senseRinging <| h.onLine fun held =>
    have timed := (h.line held).timed
    { timed with
      ringEnd := fun _ => timed.burstOff (runs held)
      burstOff := fun x => absurd rfl x
      burst := nofun }

/-- R127: a phase of a cadence goes on, and no episode begins or ends. -/
theorem inStep_nextPhase : InStep s (s.onExpiry
    ((s.vsw.episodes.find? (fun e => e.callId == id && e.timer.isSome)).bind (·.timer)) fun s =>
      s.onVsw fun v =>
        { v with
          episodes := v.episodes.map (fun e =>
            if e.callId = id ∧ e.timer.isSome then e.next s.cfl.record.cadence else e) }) :=
  inStep_onExpiry fun d _ => (InStep.refl s).reach.onVsw ⟨rfl, rfl, rfl, rfl, rfl, rfl, rfl⟩ <| by
    rw [List.map_map]
    refine List.map_congr_left fun e _ => ?_
    rw [Function.comp_apply]
    split <;> rfl

/-! ### The commands -/

theorem InStep.beginReady (h : InStep s0 s) : InStep s0 s.beginReady :=
  (InStep.handRoutine h.onCfl).lineStatus.onYbi.beginCheck.beginCheck.senseVoltage.senseRinging

theorem InStep.takeCurrent (p : Port) (n : Nat) (s : State) : InStep s (s.takeCurrent p n) := by
  have set : InStep s (s.onPins (Pins.setCurrent p n)) := (InStep.refl s).onPins
  unfold State.takeCurrent
  dsimp only
  split
  · exact set.watchCurrent
  · exact set

/-- A frame that has been heard, with what follows its idle point. -/
theorem Stands.hear (f : List Byte × Bool) (s : State) : Stands s (s.hear f) := by
  have h := InStep.refl s
  exact (InStep.ite h (InStep.ite h.onYbi h.onYbi.judge)).brings.settle

theorem Stands.hears (l : List (List Byte × Bool)) (s : State) : Stands s (l.foldl State.hear s) := by
  induction l generalizing s with
  | nil => exact .refl s
  | cons f l ih => exact (Stands.hear f s).trans (ih _)

theorem Stands.lateOnHook (p : Port) (s : State) : Stands s (s.lateOnHook p) := by
  unfold State.lateOnHook
  split
  · exact (InStep.refl s).takeOnHook.brings.settle
  · exact .refl s

theorem stays_frameReceived (low : Nat) (wire : List WireRun) (s : State) : Stays s (execFrameReceived low wire s) := by
  unfold execFrameReceived
  split
  · exact stays_finish (.refl s)
  · exact stays_next (Stands.hears _ s)
  · exact stays_next (Stands.hears _ s)

theorem stays_frameSent (s : State) : Stays s (execFrameSent s) := by
  have h := InStep.refl s
  refine stays_finish ?_
  split
  · exact h.headLeaves.markReported.afterLeaving
  · exact h

theorem stays_collision (s : State) : Stays s (execCollision s) := by
  have h := InStep.refl s
  refine stays_finish ?_
  split
  · exact .ite h.headLeaves.enterListenOnly.raise h.headLeaves.afterLeaving
  · exact h

theorem stays_take (s : State) : Stays s (execTake s) := by
  have h := InStep.refl s
  refine stays_finish ?_
  split
  · exact h.takeUp
  · exact h

theorem stays_overheardGrant (s : State) : Stays s (execOverheardGrant s) := by
  have h := InStep.refl s
  refine stays_finish ?_
  split
  · split
    · exact h.hearGrant
    · exact h
  · exact h

theorem stays_overheardTake (s : State) : Stays s (execOverheardTake s) := by
  have h := InStep.refl s
  refine stays_finish ?_
  split
  · exact h.hearTake
  · exact h

theorem stays_pendingAnyExpiry (n : Nat) (s : State) : Stays s (execPendingAnyExpiry n s) := by
  have h := InStep.refl s
  refine stays_finish ?_
  split
  · exact h.reach.anyExpires
  · exact h

theorem stays_test (s : State) : Stays s (execTest s) :=
  stays_serve fun d t h => by
    split
    · exact h.testRequest
    · exact h

theorem stays_counterRead (s : State) : Stays s (execCounterRead s) :=
  stays_serve fun d t h => by
    split
    · exact h.readCounter
    · exact h

theorem stays_counterReadClear (s : State) : Stays s (execCounterReadClear s) :=
  stays_serve fun d t h => by
    split
    · exact h.clearCounter
    · exact h

theorem stays_counterSet (s : State) : Stays s (execCounterSet s) :=
  stays_serve fun d t h => by
    split
    · exact h.setCounter
    · exact h

theorem stays_counterDelegate (s : State) : Stays s (execCounterDelegate s) :=
  stays_serve fun d t h => h.asManager <| by
    split
    · exact h.delegateCounter
    · exact h

theorem stays_railSettleEnd (s : State) : Stays s (execRailSettleEnd s) := by
  have h := InStep.refl s
  refine stays_finish ?_
  split
  · exact h.reach.onSup
  · exact h

theorem stays_overheadTimerExpiry (s : State) : Stays s (execOverheadTimerExpiry s) := by
  refine stays_linked ?_
  split
  · rename_i o slot
    exact linked_overheadExpires (Linked.refl s).reach fun held => by
      rw [reach_link]
      exact held.showtime_of_slot slot
  · exact .refl s

theorem stays_predictionMiss (s : State) : Stays s (execPredictionMiss s) := by
  refine stays_linked ?_
  split
  · rename_i k lock
    exact (Linked.refl s).sync (Syncs.refl s).onSync.missPrediction fun held => held.showtime_of_sync Showtime.lock lock
  · exact .refl s

theorem stays_outpulseTimerExpiry (s : State) : Stays s (execOutpulseTimerExpiry s) := by
  have h := InStep.refl s
  refine stays_finish ?_
  split
  · exact h.reach.advanceOutpulse
  · exact h

theorem stays_automaticCheckStart (s : State) : Stays s (execAutomaticCheckStart s) := by
  refine stays_finish ?_
  split
  · split
    · rename_i free
      exact (InStep.refl s).startCheck free.2.2
    · exact .refl s
  · exact .refl s

theorem stays_itemTimerExpiry (y : LoopReadings) (s : State) : Stays s (execItemTimerExpiry y s) := by
  refine stays_finish ?_
  split
  · rename_i i item
    exact inStep_onExpiry fun d _ => (InStep.refl s).reach.completeItem (by rw [reach_stage]; exact item)
  · exact .refl s

theorem stays_restoreTimerExpiry (s : State) : Stays s (execRestoreTimerExpiry s) := by
  refine stays_brings ?_
  cases runs : s.lth.restoreTimer with
  | none => exact (InStep.refl s).brings
  | some d =>
    refine (InStep.refl s).reach.brings.trans (brings_restored ?_)
    rw [reach_restore, runs]
    nofun

theorem stays_surveyPhaseStart (s : State) : Stays s (execSurveyPhaseStart s) := by
  refine stays_finish ?_
  split
  · exact (InStep.refl s).beginPhase ‹_›
  · exact .refl s

theorem stays_portLoopClosed (p : Port) (s : State) : Stays s (execPortLoopClosed p s) := by
  have h := InStep.refl (s.lateOnHook p)
  exact stays_next ((Stands.lateOnHook p s).trans (InStep.ite h.loopClosed h).brings.settle)

/-! ### The commands of the link -/

theorem stays_handshakeTimeout (s : State) : Stays s (execHandshakeTimeout s) :=
  stays_onLinkExpiry fun x runs => (Linked.refl s).reach.trainingFailure fun held => by
    rw [reach_link, held.handshake (by rw [runs]; nofun)]
    nofun

theorem stays_loadTimeout (s : State) : Stays s (execLoadTimeout s) :=
  stays_onLinkExpiry fun x runs => (Linked.refl s).reach.trainingFailure fun held => by
    rw [reach_link, held.load (by rw [runs]; nofun)]
    nofun

theorem stays_backoffExpiry (s : State) : Stays s (execBackoffExpiry s) :=
  stays_onLinkExpiry fun x runs => (Linked.refl s).reach.enterDown fun held => by
    rw [reach_link, held.backoff (by rw [runs]; nofun)]
    nofun

theorem stays_lockoutExpiry (s : State) : Stays s (execLockoutExpiry s) :=
  stays_onLinkExpiry fun x runs => (Linked.refl s).reach.lockoutEnds fun held => by
    rw [reach_link, held.wait (by rw [runs]; nofun)]

theorem stays_codeword (e : Event) (f : Showtime → Showtime) (s : State) : Stays s (finish s (s.codeword e f)) :=
  stays_when fun showtime => (Linked.refl s).sync (Syncs.refl s).signal.onSync fun _ => showtime

/-- What a command of SHOWTIME does within it. -/
theorem stays_showtime (showtime : Syncs s t) : Stays s (finish s (if s.lle.link = .showtime then t else s)) :=
  stays_when fun x => (Linked.refl s).sync showtime fun _ => x

/-- The expiry of a timer of SHOWTIME that ends nothing. -/
theorem stays_onSyncExpiry {f : State → State} (g : Showtime → Timer) (hf : ∀ t, Syncs s t → Syncs s (f t))
    (start : g Showtime.start = none := by rfl) : Stays s (finish s (s.onExpiry (g s.lle.sync) f)) :=
  stays_linked <| linked_onExpiry fun _ runs => (hf _ (Syncs.refl s).reach).linked fun held =>
    held.showtime_of_sync g runs start

theorem stays_secondTimerExpiry (s : State) : Stays s (execSecondTimerExpiry s) :=
  stays_linked <| linked_onSyncExpiry Showtime.secondTimer fun _ showtime =>
    (((Linked.refl s).reach).sync (Syncs.refl _).onSync showtime).endSecond showtime

theorem stays_lossOfSignalExpiry (s : State) : Stays s (execLossOfSignalExpiry s) :=
  stays_linked <| linked_onSyncExpiry Showtime.signalTimer fun _ showtime =>
    ((Linked.refl s).reach.drop fun held => by rw [showtime held]; nofun).onLth

end Sys2Proof.Proofs.Standing
end

section
/-! Every step keeps the link, the outside line and the call table in step: the statement O60. -/

set_option Elab.async false

namespace Sys2Proof.Proofs.Standing

open Sys2Proof Sys2Proof.Machine Sys2Proof.Proofs.Steps Sys2Proof.Proofs.Telling Sys2Proof.Proofs.Calls

variable {s t : State}

theorem down_of_mayTrain (may : s.mayTrain = true) : s.lle.link = .down := by
  simp only [State.mayTrain, Bool.and_eq_true, decide_eq_true_eq] at may
  exact may.1.1.1

/-- Every command, whatever its operands. -/
theorem stays_exec (i : Instr) (s : State) (reset : ∀ straps mainsOk battLow, i ≠ .deviceReset straps mainsOk battLow)
    (config : ∀ memory, i ≠ .configReadDone memory) : Stays s (exec i s) := by
  have h := InStep.refl s
  have l := Linked.refl s
  have y := Syncs.refl s
  cases i with
  | deviceReset straps mainsOk battLow => exact absurd rfl (reset _ _ _)
  | configReadDone memory => exact absurd rfl (config _)
  | listenTimerExpiry => exact stays_onExpiry fun _ => InStep.beginReady
  | frameReceived low wire => exact stays_frameReceived low wire s
  | ownSlotBegins cls => exact stays_ite h.ownSlot
  | frameSent => exact stays_frameSent s
  | collision => exact stays_collision s
  | yieldEnd => exact stays_ite h.onYbi
  | backlogTimerExpiry => exact stays_onExpiry fun _ hs => hs.onYbi.makeInactive
  | presenceTimerExpiry => exact stays_onExpiry fun _ hs => hs.onYbi.handRoutine
  | presenceAgeing => exact stays_onExpiry fun _ hs => hs.onYbi
  | stationAbsent station => exact stays_ite h.goAbsent
  | hookOn => exact stays_serve fun _ _ => InStep.hookOn
  | hookFlash => exact stays_serve fun _ _ => InStep.hookFlash
  | claimOutside => exact stays_serve fun _ _ hs => hs.withTag hs.decideOutside
  | claimOutsideAny => exact stays_serve fun _ _ => InStep.claimAny
  | claimAnswer => exact stays_serve fun _ _ hs => hs.withTag hs.decideAnswer
  | claimIntercom => exact stays_serve fun _ _ hs => hs.withTag hs.claimIntercom
  | claimJoin => exact stays_serve fun _ _ hs => hs.withTag hs.decideJoin
  | take => exact stays_take s
  | hold => exact stays_serve fun _ _ => InStep.takeHold
  | retrieve => exact stays_serve fun _ _ hs => hs.withTag hs.decideRetrieve
  | release => exact stays_serve fun _ _ => InStep.takeRelease
  | overheardGrant => exact stays_overheardGrant s
  | overheardTake => exact stays_overheardTake s
  | grantDeadlineExpiry station => exact stays_onExpiry fun _ => InStep.withdraw
  | pendingAnyExpiry station => exact stays_pendingAnyExpiry station s
  | intercomRingExpiry callId => exact stays_finish (inStep_callEnds fun _ => ringTimer_free)
  | holdAgeRecall callId => exact stays_onExpiry fun _ => InStep.recallDue
  | recallRetryExpiry callId => exact stays_onExpiry fun _ => InStep.recallAgain
  | holdAgeRelease callId => exact stays_finish inStep_holdEnds
  | clearingGuardExpiry callId => exact stays_finish (inStep_callEnds fun _ => guardTimer_free)
  | queryLink => exact stays_serve fun _ _ hs => hs.report
  | queryLoopRecord => exact stays_serve fun _ _ => InStep.queryLoop
  | queryFaultSummary => exact stays_serve fun _ _ => InStep.querySummary
  | queryFaultAll => exact stays_serve fun _ _ => InStep.queryFaults
  | queryFaultActive => exact stays_serve fun _ _ => InStep.queryFaults
  | queryPresenceTable => exact stays_serve fun _ _ => InStep.queryPresence
  | queryConfiguration => exact stays_serve fun _ _ => InStep.queryConfiguration
  | test => exact stays_test s
  | linkControlHold => exact stays_serve fun _ t hs => hs.asManager (hs.linked (Linked.refl t).controlHold)
  | linkControlRelease => exact stays_serve fun _ _ hs => hs.asManager (hs.done.linked (Linked.refl _).removeHolder)
  | linkControlRetrain => exact stays_serve fun _ t hs => hs.asManager (hs.linked (Linked.refl t).controlRetrain)
  | clearRetry => exact stays_serve fun _ t hs => hs.asManager (hs.linked (Linked.refl t).clearRetry)
  | clearFaults => exact stays_serve fun _ t hs => hs.asManager (hs.onFlt (spared_cleared t.flt)).done
  | counterRead => exact stays_counterRead s
  | counterReadClear => exact stays_counterReadClear s
  | counterSet => exact stays_counterSet s
  | counterDelegate => exact stays_counterDelegate s
  | mainsOkChange level => exact stays_finish h.onPins.onSup
  | mainsOkDebounced => exact stays_onLinkExpiry fun _ _ => l.reach.onSup.deriveSupply
  | battLowChange asserted => exact stays_finish h.onPins.onSup
  | battLowDebounced => exact stays_onLinkExpiry fun _ _ => l.reach.onSup.deriveSupply
  | railSettleEnd => exact stays_railSettleEnd s
  | converterSettleEnd => exact stays_onExpiry fun _ hs => hs.onSup
  | converterIdleExpiry => exact stays_onExpiry fun _ hs => hs.onSup
  | handshakeStart => exact stays_when fun may => linked_beginHandshake (down_of_mayTrain may)
  | farEndAnswer => exact stays_when linked_answered
  | handshakeTimeout => exact stays_handshakeTimeout s
  | probeEnd snr => exact stays_onLinkExpiry fun _ runs => linked_endProbe runs
  | probeSignalLoss => exact stays_when fun probe => l.trainingFailure fun _ => by rw [probe]; nofun
  | farTablesReceived normal guard => exact stays_when linked_takeTables
  | loadTimeout => exact stays_loadTimeout s
  | backoffExpiry => exact stays_backoffExpiry s
  | lockoutExpiry => exact stays_lockoutExpiry s
  | overheadAgree number => exact stays_linked (linked_takeAnswer fun _ _ g showtime => g.agreed showtime)
  | overheadDecline number => exact stays_linked (linked_takeAnswer fun _ _ g showtime => g.declined showtime)
  | overheadTimerExpiry => exact stays_overheadTimerExpiry s
  | farEndSwap number table group bits => exact stays_linked (linked_takeFar fun _ => l.farSwap)
  | farEndSwitch number table => exact stays_linked (linked_takeFar fun _ => l.onLle.answerFar)
  | farEndRetrain number => exact stays_linked (linked_takeFar fun showtime => l.enterDown fun _ => by rw [showtime]; nofun)
  | payloadFrameOffered payload => exact stays_ite h.onPlp
  | payloadFrameSent => exact stays_ite h.onPlp
  | refreshTimerExpiry measured => exact stays_onSyncExpiry Showtime.refreshTimer fun _ => Syncs.refreshDue
  | catchUpExpiry measured => exact stays_onSyncExpiry Showtime.catchUpTimer fun _ hs => hs.onSync.refresh
  | guardExit => exact stays_onSyncExpiry Showtime.guardTimer fun _ hs => hs.onSync.alignTable
  | switchRetryExpiry => exact stays_onSyncExpiry Showtime.switchRetryTimer fun _ hs => hs.onSync.alignTable
  | impulseEvent start length => exact stays_showtime y.takeImpulse
  | predictionMiss => exact stays_predictionMiss s
  | correctedCodeword => exact stays_codeword _ _ s
  | uncorrectedCodeword => exact stays_codeword _ _ s
  | secondTimerExpiry => exact stays_secondTimerExpiry s
  | signalAbsent => exact stays_showtime y.onSync
  | signalPresent => exact stays_showtime y.onSync
  | lossOfSignalExpiry => exact stays_lossOfSignalExpiry s
  | marginWatchExpiry => exact stays_onSyncExpiry Showtime.marginTimer fun _ => Syncs.marginWatchEnds
  | portLoopClosed port => exact stays_portLoopClosed port s
  | portLoopOpened port => exact stays_ite h.onPort
  | portOnHook port => exact stays_ite (h.onExpiry fun _ hs => InStep.takeOnHook (p := port) (hs : InStep s _))
  | digitPauseExpiry port => exact stays_onExpiry fun _ => InStep.endPulses
  | dtmfDigit port key => exact stays_finish h.takeDigit
  | firstDigitWindowExpiry port => exact stays_onExpiry fun _ => InStep.firstWindowEnds
  | interDigitExpiry port => exact stays_onExpiry fun _ hs => hs.onPort
  | postFlashWindowExpiry port => exact stays_onExpiry fun _ => InStep.postFlashEnds
  | offHookTimerExpiry port => exact stays_onExpiry fun _ => InStep.enterHowler
  | howlerTimerExpiry port => exact stays_onExpiry fun _ hs => hs.onPort.raise
  | noLoadTimerExpiry port => exact stays_onExpiry fun _ => InStep.beginCheck
  | noLoadCheckDone port ringerFound => exact stays_onExpiry fun _ => InStep.endCheck
  | loopCurrentChange port milliamp => exact stays_finish (InStep.takeCurrent _ _ s)
  | lowCurrentExpiry port => exact stays_onExpiry fun _ hs => hs.onPort.raise
  | lineVoltageChange millivolt => exact stays_finish h.onPins.senseVoltage
  | offHookBandHeld => exact stays_finish inStep_offHookBand
  | onHookBandHeld => exact stays_finish inStep_onHookBand
  | noFeedExpiry => exact stays_onExpiry fun _ hs => hs.onVsw.raise.handOverLine
  | feedRestored => exact stays_onExpiry fun _ => InStep.feedStands
  | ringingVoltageChange present => exact stays_finish h.onPins.senseRinging
  | ringBurstDetected => exact stays_ite (h.onExpiry fun _ => InStep.takeBurst)
  | ringBurstEnd => exact stays_finish inStep_burstEnds
  | ringEndTimeout => exact stays_finish inStep_ringEnd
  | releaseGuardExpiry => exact stays_finish inStep_released
  | outpulseTimerExpiry => exact stays_outpulseTimerExpiry s
  | cadencePhaseExpiry callId => exact stays_finish inStep_nextPhase
  | testRingDetected => exact stays_ite (h.onExpiry fun _ hs => hs.onVsw.abortSurvey)
  | surveyPhaseStart => exact stays_surveyPhaseStart s
  | automaticCheckStart => exact stays_automaticCheckStart s
  | itemTimerExpiry readings => exact stays_itemTimerExpiry readings s
  | restoreTimerExpiry => exact stays_restoreTimerExpiry s
  | waitTimerExpiry => exact stays_onExpiry fun _ hs => hs.onRunning.continueSurvey 2
  | holdOffExpiry => exact stays_onExpiry fun _ hs => hs.onLth
  | periodicCheckExpiry => exact stays_onExpiry fun _ hs => hs.onLth
  | recheckTimerExpiry => exact stays_onExpiry fun _ hs => hs.onLth
  | lampFlashToggle => exact stays_onExpiry fun t hs => hs.onFlt (.of_entries rfl fun x => x)
  | anotherStationStartBit => exact stays_ite h.onYbi

/-! ### DEVICE_RESET and CONFIG_READ_DONE -/

/-- R26 to R28: all that follows the record leaves the line and the calls. -/
theorem linked_endLoading (memory : Option (List Byte)) (s : State) : Linked s (s.endLoading memory) := by
  have h := (Linked.refl s).onCfl (f := loadedCfl memory s.now)
  have faults {b : Bool} : Linked s (startFaults b (s.onCfl (loadedCfl memory s.now))) :=
    .ite (Linked.ite h.raise h).raise (.ite h.raise h)
  have taken {r : ConfigRecord} {t : State} (ht : Linked s t) :
      Linked s ((t.onLle fun l => { l with d := r.dInit }).onCtb (Ctb.takeEvents r.counterEvents)) := ht.onLle.onCtb
  rw [endLoading_eq]
  exact .ite (taken faults).addHolder (taken faults)

theorem stays_configReadDone (memory : Option (List Byte)) (s : State) : Stays s (execConfigReadDone memory s) :=
  stays_when fun _ => linked_endLoading memory s

/-- R22: after a reset nothing rings, no call stands, and the link is DOWN or QUIET. -/
theorem stays_deviceReset (straps : Fin 32) (mainsOk battLow : Bool) (s : State) :
    Stays s (exec (.deviceReset straps mainsOk battLow) s) := by
  obtain ⟨start, isStart⟩ : ∃ t, t = s.afterReset straps.val mainsOk battLow := ⟨_, rfl⟩
  have linkHeld : LinkHeld start.lle start.flt := by
    rw [isStart]
    exact (linkHeld_iff State.reset).mpr ⟨by decide, by decide⟩
  obtain ⟨lineHeld, tested, rings⟩ : LineHeld start.cct start.vsw ∧ Tested start.lth start.vsw.line ∧
      start.ringsAsCalled = true := by
    rw [isStart]
    exact (lineKept_iff State.reset).mp ⟨by decide, by decide⟩
  have noCalls : start.cct.calls = [] := by
    rw [isStart]
    rfl
  have supplied := (Linked.refl start).deriveSupply
  obtain ⟨carried, follows⟩ := settle_carries start.deriveSupply s
  have all := supplied.inStep.carries.trans carried
  have ports := ((InStep.refl start.deriveSupply).settlePortB (before := s)).settleRecall (before := s)
  refine stays_next (t := (s.afterReset straps.val mainsOk battLow).deriveSupply.settle s) ?_
  rw [← isStart]
  refine ⟨fun _ => all.link linkHeld, fun _ _ _ => ?_⟩
  obtain ⟨line, test⟩ := all.line lineHeld tested
  refine ⟨line, test, follows fun _ => ringsAsCalled_of rings (ports.rings.trans supplied.inStep.rings) ?_⟩
  have calls : (start.deriveSupply.settlePortB s).cct.calls = [] := by
    rw [settlePortB_calls, supplied.cct, noCalls]
  have none : ∀ c ∈ (start.deriveSupply.settlePortB s).cct.calls, c.state ≠ .held := by
    rw [calls]
    exact List.forall_mem_nil _
  rw [settleRecall_noHeld none, calls, noCalls]

/-! ### Every command -/

theorem stays_every (i : Instr) (s : State) : Stays s (exec i s) := by
  by_cases reset : ∀ straps mainsOk battLow, i ≠ .deviceReset straps mainsOk battLow
  · by_cases config : ∀ memory, i ≠ .configReadDone memory
    · exact stays_exec i s reset config
    · obtain ⟨memory, rfl⟩ := not_forall_not.mp config
      exact stays_configReadDone memory s
  · obtain ⟨straps, rest⟩ := not_forall.mp reset
    obtain ⟨mainsOk, rest⟩ := not_forall.mp rest
    obtain ⟨battLow, rfl⟩ := not_forall_not.mp rest
    exact stays_deviceReset straps mainsOk battLow s

theorem stands_step (next : step s = .next t) : Stands s t := by
  rcases step_cases next with ⟨i, rest, -, run⟩ | ⟨-, rfl⟩
  · exact ⟨(stays_every i _ t run).link, (stays_every i _ t run).line⟩
  · have reached := (Linked.refl s).reach (d := s.now + 1)
    exact ⟨reached.link, fun held tests rings => ⟨reached.inStep.line held, reached.inStep.tested held tests,
      ringsAsCalled_of rings reached.inStep.rings (congrArg Cct.calls reached.cct)⟩⟩

/-- Settles O60: what a command does leaves the link, the line and the table in step, and after it the episodes follow
the table. -/
theorem everyStepKeepsLinkAndLineInStep : Obligations.EveryStepKeepsLinkAndLineInStep := by
  refine ⟨fun s t fits kept next => ?_, fun s t fits kept next => ?_⟩
  · simp only [State.fits, Bool.and_eq_true] at fits
    obtain ⟨⟨-, flt⟩, -⟩ := fits
    exact ((linkHeld_iff t).mp ((stands_step next).link ((linkHeld_iff s).mpr ⟨kept, flt⟩))).1
  · simp only [State.fits, Bool.and_eq_true] at fits
    obtain ⟨⟨⟨-, cct⟩, -⟩, -⟩ := fits
    obtain ⟨held, tests, rings⟩ := (lineKept_iff s).mp ⟨kept, ((cct_fits_iff _).mp cct).1⟩
    exact ((lineKept_iff t).mpr ((stands_step next).line held tests rings)).1

end Sys2Proof.Proofs.Standing
end
